-- ==== Sys2Proof/Word.lean ====
section
/-!
DEFINITION. The words of the VRL9620: 32-bit register words (R4) and bytes, and the plainest arithmetic on them.
-/

namespace Sys2Proof

/-- A 32-bit register word (R4). -/
abbrev Word := BitVec 32

/-- One byte of memory. -/
abbrev Byte := BitVec 8

/-- Bits `[lo + width - 1 : lo]` of a natural number. -/
def bitsOf (n lo width : Nat) : Nat := n / 2 ^ lo % 2 ^ width

/-- Bit `i` of a natural number. -/
def bitOf (n i : Nat) : Bool := n / 2 ^ i % 2 == 1

/-- `n` with bits `[lo + width - 1 : lo]` replaced by the low bits of `v`. -/
def putBits (n lo width v : Nat) : Nat :=
  n - bitsOf n lo width * 2 ^ lo + v % 2 ^ width * 2 ^ lo

/-- `n` with bit `i` set to `b`. -/
def putBit (n i : Nat) (b : Bool) : Nat := putBits n i 1 (if b then 1 else 0)

/-- The two's complement reading of the low `w` bits of `n`. -/
def toSigned (w n : Nat) : Int :=
  let m := n % 2 ^ w
  if m < 2 ^ (w - 1) then (m : Int) else (m : Int) - 2 ^ w

/-- The low `w` bits of the two's complement form of `z`. -/
def ofSigned (w : Nat) (z : Int) : Nat := (z % (2 ^ w : Nat)).toNat

/-- `z` limited to `[lo, hi]`. -/
def clampInt (lo hi z : Int) : Int := if z < lo then lo else if hi < z then hi else z

/-- `n` limited to `[lo, hi]`. -/
def clampNat (lo hi n : Nat) : Nat := if n < lo then lo else if hi < n then hi else n

/-- `z` limited to the signed range of `w` bits. -/
def satSigned (w : Nat) (z : Int) : Int := clampInt (-(2 ^ (w - 1))) (2 ^ (w - 1) - 1) z

end Sys2Proof
end

