-- ==== Sys2Proof/Syntax.lean ====
section
/-!
DEFINITION. The commands of the block: one constructor of `Instr` per row of the opcode table, and the operand types.
A command is a register access, an operation of a bus or a link, an event on a pin, or a step that a sequencer of the
device takes by itself.
-/

namespace Sys2Proof

/-- R8. The masters of register accesses: the host, Thimble, and each task slot of each engine. -/
inductive Master where
  | host
  | thimble
  | eng (e : Fin 16) (slot : Fin 8)
deriving DecidableEq, Repr

/-- R497. A buffer slot that the host has filled: ADDR and BUFLEN. -/
structure Slot where
  addr : BitVec 64
  buflen : BitVec 24
deriving DecidableEq, Repr

/-- R499. The fields of a command descriptor that every operation has, as HIF fetched them. -/
structure Desc where
  opc : BitVec 16
  fence : Bool
  tag : BitVec 32
  addr : BitVec 64
  len : BitVec 32
deriving DecidableEq, Repr

/-- R504. The PARAM fields of CELL_MGMT and the request data from the host buffer. -/
structure MgmtReq where
  cell : BitVec 8
  chain : BitVec 8
  op : BitVec 8
  obj : BitVec 16
  offset : BitVec 16
  cnt : BitVec 16
  data : List Byte
deriving DecidableEq, Repr


/-- R303. A sample set of the fast channels: the sample words of TWIN0–TWIN3. -/
structure FastSet where
  t0 : BitVec 16
  t1 : BitVec 16
  t2 : BitVec 16
  t3 : BitVec 16
deriving DecidableEq, Repr

/-- R505. The fields of a transmit slot that the host writes. -/
structure TxDesc where
  addr : BitVec 64
  len : BitVec 16
  stamp : Bool
  onestep : Bool
  t2sec : BitVec 48
  t2ns : BitVec 32
  t2frac : BitVec 8
deriving DecidableEq, Repr

/-- R216, R244. What K28.7 characters on a lane form: a single one, which interrupts a frame, or a whole fast trip ordered set, which
may interrupt one. -/
inductive TripSet where
  | single
  | whole (midFrame : Bool)
deriving DecidableEq, Repr

/-- R24. The indices of a place in the design, from its subsystem down to a bit cell of a macro. -/
structure Place where
  sub : Fin 15
  clu : BitVec 6
  til : BitVec 8
  mac : BitVec 8
  row : BitVec 16
  col : BitVec 16
deriving DecidableEq, Repr

/-- R527. KIND of a failure: the signature of a tile, a bit, the address decoder of a macro, more than two failing columns in a
macro. -/
inductive BistKind where
  | tile
  | bit
  | decoder
  | columns
deriving DecidableEq, Repr

/-- R527. A failure that a BIST run found: where, KIND, macro index, expected and observed signature or word. -/
structure BistFail where
  place : Place
  kind : BistKind
  mac : BitVec 16
  expected : Word
  observed : Word
deriving DecidableEq, Repr

/-- R532. An instruction of the test access port: those of boundary scan, debug of an engine, and those of full access. -/
inductive TapIr where
  | bypass
  | sample
  | extest
  | idcode
  | engineDebug
  | full
deriving DecidableEq, Repr


/-- The commands the block takes: one constructor per row of the opcode table. -/
inductive Instr where
  /-- R5. REGISTER_WRITE: A write to a register that has no row of its own stores or acts according to its field types, subject to locks, width rules and refusals. -/
  | registerWrite (m : Master) (a : BitVec 20) (size : Fin 9) (v : Word)
  /-- R8. PAIR_LO_READ: A read of a _LO register captures the matching _HI word for that master. -/
  | pairLoRead (m : Master) (a : BitVec 20) (size : Fin 9)
  /-- R94. NTM_TIME_NS_READ: A read of NTM_TIME_NS, or of NTM_PPSIN_NS, captures the seconds and fraction from the same tick for that master. -/
  | ntmTimeNsRead (m : Master) (pps : Bool)
  /-- R538. SUPPLY_MONITOR_TRIP: A rail outside its monitor window for more than 1 µs raises fault source 0x04 with the rail code. -/
  | supplyMonitorTrip (rail : Fin 9)
  /-- R36. WARM_RESET: A write of GLB_RESET with the key while CTRL_RUN is 0 performs a warm reset and keeps NTM, the tick count and the listed state. -/
  | warmReset (m : Master) (w : Word)
  /-- R517. READY_SET: Boot and self-test complete, so GLB_STATUS.READY is set and BOOTMS is recorded. -/
  | readySet (fails : List BistFail)
  /-- R22. RUN_SET: A write of GLB_CTRL.RUN = 1 checks the cycle configuration and the Stitch phases and arms the start of control cycles. -/
  | runSet (m : Master)
  /-- R34. RUN_CLEAR: Clearing RUN starts an orderly stop in a commanding unit or stops cycles at once in a standby. -/
  | runClear (m : Master)
  /-- R508. LONGOP_COMPLETE: A long operation ends: RESULT is written, BUSY clears and LOVEC is sent if enabled. -/
  | longopComplete (fails : List BistFail)
  /-- R53. H0_ENABLE: Setting HOOP_CTRL.H0EN starts H0 at angle 0 in ACQUIRE or FREE. -/
  | h0Enable (m : Master)
  /-- R53. H0_DISABLE: Clearing H0EN while CTRL_RUN is 0 returns H0 to OFF and clears angle, step and turns. -/
  | h0Disable (m : Master)
  /-- R53. H0_DC_SET: Setting H0DC while CTRL_RUN is 0 puts H0 into FREE at the virtual frequency. -/
  | h0DcSet (m : Master)
  /-- R53. H0_DC_CLEAR: Clearing H0DC while CTRL_RUN is 0 returns H0 from FREE to ACQUIRE. -/
  | h0DcClear (m : Master)
  /-- R53. H0NOM_WRITE: A write of HOOP_H0NOM in FREE moves the step at once to the new virtual frequency. -/
  | h0nomWrite (m : Master) (nom : BitVec 16)
  /-- R56. PRIMARY_RETURN: A write of PRIRET while the primary is valid returns H0 to the primary source. -/
  | primaryReturn (m : Master)
  /-- R51. H0_PRIMARY_UPDATE: Completion of the last primary entry of a sequence run forms a phase error and updates the H0 loop. -/
  | h0PrimaryUpdate (angle : Word) (pos : BitVec 16) (neg : BitVec 16)
  /-- R58. H1_TRACK_UPDATE: An update of the H1 TRACK source drives the H1 loop. -/
  | h1TrackUpdate (angle : Word) (pos : BitVec 16) (neg : BitVec 16)
  /-- R59. H1_ANGLE_WRITE: A write of HOOP_H1ANGLE with the H1 step at 0 sets the angle and restarts the H1 walk; otherwise it is refused. -/
  | h1AngleWrite (m : Master) (v : Word)
  /-- R71. PRK_ENABLE: Setting PRK_CTRL.EN starts the scheduler on page INIT if it is READY. -/
  | prkEnable (m : Master)
  /-- R71. PRK_DISABLE: Clearing EN while CTRL_RUN is 0 empties the queue, cancels the swap and discards the walks. -/
  | prkDisable (m : Master)
  /-- R73. PRK_EDIT_READ: The edit command READ copies an entry to PRK_EDDATA. -/
  | prkEditRead (m : Master) (page : Fin 4)
  /-- R73. PRK_EDIT_WRITE: The edit command WRITE replaces an entry of an inactive page and clears READY. -/
  | prkEditWrite (m : Master) (page : Fin 4)
  /-- R73. PRK_EDIT_INSERT: The edit command INSERT puts an entry at its sorted position in an inactive page. -/
  | prkEditInsert (m : Master) (page : Fin 4)
  /-- R73. PRK_EDIT_DELETE: The edit command DELETE removes an entry from an inactive page. -/
  | prkEditDelete (m : Master) (page : Fin 4)
  /-- R73. PRK_EDIT_CLEAR: The edit command CLEAR sets COUNT to 0. -/
  | prkEditClear (m : Master) (page : Fin 4)
  /-- R74. PRK_EDIT_COMMIT: The edit command COMMIT sorts and validates an inactive page. -/
  | prkEditCommit (m : Master) (page : Fin 4)
  /-- R76. PRK_SWAP_REQUEST: A write of PRK_SWAP checks the target page and arms a swap. -/
  | prkSwapRequest (m : Master) (page : Fin 4)
  /-- R291. ADC_SEQ_TRIG: The Pricking action starts the sequence of each selected SAR converter. -/
  | adcSeqTrig (mask : BitVec 2)
  /-- R134. TASK_WAKE: The Pricking action wakes a slot on each engine it names. -/
  | taskWake (engines : BitVec 16) (arg : Word)
  /-- R218. CELL_SNAPSHOT: The Pricking action requests a node state capture, carried in SNAP of the next SYNC. -/
  | cellSnapshot (target : BitVec 16) (kind : BitVec 7)
  /-- R331. TW_ARM: The Pricking action arms the TWU for ARG µs, or disarms it with ARG = 0. -/
  | twArm (mask : BitVec 4) (window : Word)
  /-- R318. PHU_ALIGN: The Pricking action clears the phasor history of the named channels and restarts frame numbering. -/
  | phuAlign (mask : BitVec 12)
  /-- R449. AGE_PROBE: The Pricking action names the cell whose set at the next latch carries an ageing probe. -/
  | ageProbe (target : BitVec 16) (params : Word)
  /-- R198. ROTATE_POINT: The Pricking action permits rank rotation of the named phases at the next latch. -/
  | rotatePoint (phases : BitVec 3)
  /-- R348. PWM_COMMIT: The Pricking action commits the pending period and duty of the named legs. -/
  | pwmCommit (legs : BitVec 12)
  /-- R70. GPIO_SET: The Pricking action drives a GPIO pin high. -/
  | gpioSet (pin : Fin 16)
  /-- R70. GPIO_CLR: The Pricking action drives a GPIO pin low. -/
  | gpioClr (pin : Fin 16)
  /-- R70. MARK: The Pricking action writes a marker record to ring 18. -/
  | mark (page : Fin 4) (idx : BitVec 14) (tag : Word)
  /-- R76. PAGE_SWAP: The Pricking action requests a page swap. -/
  | pageSwap (page : Fin 4)
  /-- R93. NTM_INC_WRITE: A write of NTM_INC_LO applies the increment pair at the next tick, clamped to its range. -/
  | ntmIncWrite (m : Master) (lo : Word)
  /-- R95. NTM_ADJ_STEP: A write of NTM_ADJ in step mode steps the clock, counts the step and applies the T-entry step rules. -/
  | ntmAdjStep (m : Master) (v : Word)
  /-- R95. NTM_ADJ_SLEW: A write of NTM_ADJ in slew mode adds the correction to the slew remainder. -/
  | ntmAdjSlew (m : Master) (v : Word)
  /-- R96. NTM_SET: NTM_ADJCTL.SET loads the SET registers into the clock in FREE or ACQUIRE, and counts it as a step. -/
  | ntmSet (m : Master)
  /-- R99. NTM_CMD_FREE: The state command FREE returns the clock to FREE. -/
  | ntmCmdFree (m : Master)
  /-- R99. NTM_CMD_ACQUIRE: The state command ACQUIRE moves the clock from FREE or HOLDOVER to ACQUIRE. -/
  | ntmCmdAcquire (m : Master)
  /-- R99. NTM_CMD_LOCK: The state command LOCK enters LOCKED if the master is present; otherwise it is refused. -/
  | ntmCmdLock (m : Master)
  /-- R99. NTM_CMD_HOLD: The state command HOLD moves the clock from LOCKED to HOLDOVER and starts the estimate. -/
  | ntmCmdHold (m : Master)
  /-- R100. NTM_MASTERID_WRITE: A write of the master identity or source discards earlier matches and, in LOCKED, enters HOLDOVER. -/
  | ntmMasteridWrite (m : Master) (reg : Fin 3) (v : Word)
  /-- R108. PPS_IN_EDGE: A selected 1PPS_IN edge is captured and counts for master presence with SRC = 1. -/
  | ppsInEdge (falling : Bool) (quarter : Fin 8)
  /-- R108. REF10_MEASURE: Each NTM second the 10 MHz cycles are counted and NTM_REF10ERR is published. -/
  | ref10Measure (err : Word)
  /-- R104. ETH_RX_FRAME: A received Ethernet frame is stamped, matched against the master, filtered for PRP duplicates and delivered to its ring. -/
  | ethRxFrame (port : Fin 2) (frame : List Byte) (fcsOk : Bool)
  /-- R505. ETH_TX_FRAME: A transmit descriptor is sent, with a stamp, one-step insertion or PRP trailer as requested. -/
  | ethTxFrame (port : Fin 2) (d : TxDesc) (frame : List Byte) (returned : Nat)
  /-- R119. ETH_LINK_CHANGE: An Ethernet port's link or auto-negotiation state changes. `an`: none while auto-negotiation is not
  complete, else whether it settled on 1000 Mb/s (R118). -/
  | ethLinkChange (port : Fin 2) (sigdet sync : Bool) (an : Option Bool) (remFlt : Bool)
  /-- R122. ENGINE_BASE_INSTRUCTION: An engine executes an RV32IMFC integer, multiply or floating-point instruction. -/
  | engineBaseInstruction (e : Fin 16)
  /-- R26. LOAD: An engine load reads its region, subject to ownership, ECC and the permitted regions. -/
  | load (e : Fin 16)
  /-- R125. STORE: An engine store is posted to the write buffer, and stalls if the buffer is full. -/
  | store (e : Fin 16)
  /-- R125. POSTED_STORE_ACCEPTED: A posted store reaches and is accepted by its target. -/
  | postedStoreAccepted (e : Fin 16)
  /-- R466. ALIAS_BIT_SET: A write to the bit-set alias ORs its data into the target word atomically. -/
  | aliasBitSet (e : Fin 16)
  /-- R466. ALIAS_BIT_CLEAR: A write to the bit-clear alias clears bits of the target word atomically. -/
  | aliasBitClear (e : Fin 16)
  /-- R122. FENCE: FENCE waits until every posted store of the engine has been accepted. -/
  | fence (e : Fin 16)
  /-- R122. FENCE_I: FENCE.I acts as FENCE and empties the fetch buffer. -/
  | fenceI (e : Fin 16)
  /-- R122. WFI: WFI is executed as WAITSLOT with rd = x0. -/
  | wfi (e : Fin 16)
  /-- R139. ECALL: ECALL ends the run as a slot fault with cause 0x5. -/
  | ecall (e : Fin 16)
  /-- R139. EBREAK: EBREAK ends the run as a slot fault with cause 0x6. -/
  | ebreak (e : Fin 16)
  /-- R123. CSR_ACCESS: A CSR instruction reads cycle, time, instret, the FP flags or mhartid, capturing the high half. -/
  | csrAccess (e : Fin 16)
  /-- R126. ILLEGAL_INSTRUCTION: An unlisted encoding or CSR violation ends the run as a slot fault with cause 0x4. -/
  | illegalInstruction (e : Fin 16)
  /-- R126. VA_DIFF: VA.DIFF returns the signed angle difference. -/
  | vaDiff (e : Fin 16)
  /-- R126. VA_LT: VA.LT returns 1 if the angle difference is negative. -/
  | vaLt (e : Fin 16)
  /-- R128. VA_BTW: VA.BTW tests whether an angle lies in a half-open forward arc. -/
  | vaBtw (e : Fin 16)
  /-- R127. VQ_MACQ31: VQ.MACQ31 accumulates a rounded Q31 product with saturation. -/
  | vqMacq31 (e : Fin 16)
  /-- R127. VQ_MULQ31: VQ.MULQ31 returns a rounded, saturated Q31 product. -/
  | vqMulq31 (e : Fin 16)
  /-- R127. VQ_MACQ15: VQ.MACQ15 accumulates a Q15 product into a Q2.30 accumulator. -/
  | vqMacq15 (e : Fin 16)
  /-- R127. VQ_RNDQ15: VQ.RNDQ15 rounds a Q2.30 value to Q1.15. -/
  | vqRndq15 (e : Fin 16)
  /-- R127. VS_ADD2: VS.ADD2 adds the two 16-bit halves with saturation. -/
  | vsAdd2 (e : Fin 16)
  /-- R127. VS_SUB2: VS.SUB2 subtracts the two 16-bit halves with saturation. -/
  | vsSub2 (e : Fin 16)
  /-- R127. VS_MAC2: VS.MAC2 accumulates two halfword products. -/
  | vsMac2 (e : Fin 16)
  /-- R127. VS_MUL2: VS.MUL2 multiplies the two halves in Q15. -/
  | vsMul2 (e : Fin 16)
  /-- R129. VC_SIN: VC.SIN returns the sine of an angle in Q1.31 through the shared CORDIC. -/
  | vcSin (e : Fin 16)
  /-- R129. VC_COS: VC.COS returns the cosine of an angle in Q1.31. -/
  | vcCos (e : Fin 16)
  /-- R129. VC_SC: VC.SC returns the cosine and sine in Q1.15. -/
  | vcSc (e : Fin 16)
  /-- R131. VR_RD: VR.RD reads a time or angle quantity by selector, capturing the _HI parts. -/
  | vrRd (e : Fin 16)
  /-- R132. WAITSLOT: WAITSLOT ends the run, saves the PC and puts the slot into WAITING. -/
  | waitslot (e : Fin 16)
  /-- R130. VT_LH: VT.LH loads a sign-extended halfword of a cell image by cell ID. -/
  | vtLh (e : Fin 16)
  /-- R130. VT_LW: VT.LW loads a word of a cell image. -/
  | vtLw (e : Fin 16)
  /-- R130. VT_LHU: VT.LHU loads a zero-extended halfword of a cell image. -/
  | vtLhu (e : Fin 16)
  /-- R130. VT_SH: VT.SH stores a halfword to the downstream image. -/
  | vtSh (e : Fin 16)
  /-- R130. VT_SW: VT.SW stores a word to the downstream image. -/
  | vtSw (e : Fin 16)
  /-- R134. BOB_WAKE_WRITE: A write to BOB_WAKE by an engine or the host wakes the selected slots. -/
  | bobWakeWrite (m : Master) (e : Fin 16) (w : Word)
  /-- R136. SLOT_DISPATCH: The highest-priority READY slot takes the engine after a 12-cycle context switch. -/
  | slotDispatch (e : Fin 16)
  /-- R137. SLOT_BUDGET_OVERRUN: The budget count reaches BUDGET, so the run is aborted as an overrun. -/
  | slotBudgetOverrun (e : Fin 16)
  /-- R136. SLOT_ENABLE: Setting BOB_SCFGn.EN takes a slot from DISABLED to IDLE. -/
  | slotEnable (m : Master) (e : Fin 16) (slot : Fin 8)
  /-- R136. SLOT_DISABLE: Clearing BOB_SCFGn.EN disables the slot, after the run ends if it is running. -/
  | slotDisable (m : Master) (e : Fin 16) (slot : Fin 8)
  /-- R142. ENGINE_ENABLE: Setting BOB_CTRL.EN with LOADED set starts every enabled slot in IDLE. -/
  | engineEnable (m : Master) (e : Fin 16)
  /-- R142. ENGINE_DISABLE: Clearing BOB_CTRL.EN lets the running slot finish and disables the others. -/
  | engineDisable (m : Master) (e : Fin 16)
  /-- R147. BOB_WDKICK: A write to BOB_WDKICK services the Bobbin watchdog. -/
  | bobWdkick (m : Master) (e : Fin 16)
  /-- R173. STITCH_PHASE_ENABLE: Setting a PHEN bit checks the phase and starts it or refuses it. -/
  | stitchPhaseEnable (m : Master) (mask : BitVec 3)
  /-- R189. STITCH_PHASE_DISABLE: Clearing a PHEN bit takes all its cells out at their valleys. -/
  | stitchPhaseDisable (m : Master) (mask : BitVec 3)
  /-- R228. UP_FRAME_RX: A valid UP frame is written into the upstream image, with late and gap flags. -/
  | upFrameRx (c : Fin 24) (f : List Byte)
  /-- R221. MGMT_RSP_RX: A management response completes its request and is reported on ring 24. -/
  | mgmtRspRx (c : Fin 24) (f : List Byte)
  /-- R242. CLAIM_RSP_RX: A CLAIM_RSP records the chain outcome; a later DISPLACED makes it lost. -/
  | claimRspRx (c : Fin 24) (f : List Byte)
  /-- R230. DELAY_RSP_RX: A DELAY_RSP yields a one-way delay, subject to the median and jump rules. -/
  | delayRspRx (lane : Fin 26) (f : List Byte) (t4 : BitVec 64)
  /-- R251. NAK_RX: A NAK from a node is handled by its code, with a retry after a sequence gap or busy. -/
  | nakRx (c : Fin 24) (f : List Byte)
  /-- R223. CHAIN_HBT_RX: A partner HBT received on a chain counts for the chain heartbeat path. -/
  | chainHbtRx (c : Fin 24) (f : List Byte)
  /-- R236. ENUM_RETURN: A returned ENUM records NFOUND, mismatches and excess nodes for its chain. -/
  | enumReturn (c : Fin 24) (f : List Byte)
  /-- R244. FAST_TRIP_RX: A fast trip ordered set arriving from a chain or the Shuttle link is counted and, in a standby, repeated on healed chains.
  `x`: what has arrived (R216). -/
  | fastTripRx (lane : Fin 26) (x : TripSet)
  /-- R221. MGMT_TIMEOUT: No response within TMO cycles leads to a retry or, after the last, a timeout report. -/
  | mgmtTimeout (c : Fin 24)
  /-- R251. MGMT_BUSY_RETRY: 1 ms after a busy NAK the request is sent again. -/
  | mgmtBusyRetry (cell : Fin 192)
  /-- R231. DELAY_EXCHANGE_PERIOD: Each PERIOD a delay exchange is sent to a node. -/
  | delayExchangePeriod (cell : Fin 192)
  /-- R235. ENUM_ASSIGN: CEL_ENUMGO with MODE ASSIGN starts an assigning enumeration pass on the chains. -/
  | enumAssign (m : Master) (chains : BitVec 24)
  /-- R235. ENUM_FILL: CEL_ENUMGO with MODE FILL starts a filling pass. -/
  | enumFill (m : Master) (chains : BitVec 24)
  /-- R236. ENUM_BREAK_TIMEOUT: An ENUM not returned within 4 cycles sets BREAK. -/
  | enumBreakTimeout (c : Fin 24)
  /-- R238. CELL_LOST_TIMEOUT: An admitted cell without valid UP for CELL_HOLD_MAX becomes LOST. -/
  | cellLostTimeout (cell : Fin 192)
  /-- R268. LANE_ENABLE: Setting LNK_CTRL.EN puts the lane into WAIT sending TRAIN frames. -/
  | laneEnable (m : Master) (lane : Fin 26)
  /-- R275. LANE_DISABLE: Clearing LNK_CTRL.EN ends frames, drops queues and idles the lane. -/
  | laneDisable (m : Master) (lane : Fin 26)
  /-- R268. LANE_SIGNAL_LOCK: Signal detected and clock recovery locked take the lane to ALIGN. -/
  | laneSignalLock (lane : Fin 26)
  /-- R266. LANE_ALIGNED: Three commas at one position align the lane and start TRAIN. -/
  | laneAligned (lane : Fin 26) (inverted : Bool)
  /-- R271. TRAIN_FRAME_RX: A received TRAIN frame carries tap requests, status and error counts. `head`: the bytes of its header;
  `body`: its payload and CRC; `eye`: the eye opening measured over it. -/
  | trainFrameRx (lane : Fin 26) (head body : List Byte) (eye : Byte)
  /-- R271. FFE_TAP_UPDATE: A requested FFE tap change is applied within 1 µs. -/
  | ffeTapUpdate (lane : Fin 26)
  /-- R272. TRAIN_CTLE_DONE: CTLE adaptation ends after 100 µs and tuning starts. -/
  | trainCtleDone (lane : Fin 26) (boost : Fin 16)
  /-- R272. TRAIN_TUNE_EVAL: After the evaluated frames, the metric decides the next tap request or READY. -/
  | trainTuneEval (lane : Fin 26)
  /-- R272. TRAIN_TUNE_RESTART: Without READY within 512 frames, tuning restarts from the preset. -/
  | trainTuneRestart (lane : Fin 26)
  /-- R273. LANE_LINK_UP: 8 READY frames each way take the lane to LINK and record LNK_TRLAST. -/
  | laneLinkUp (lane : Fin 26)
  /-- R268. LANE_TRAIN_TIMEOUT: TRTMO expires, so the lane goes to BACKOFF. -/
  | laneTrainTimeout (lane : Fin 26)
  /-- R268. LANE_LOSS: Loss of signal, clock recovery or sync takes the lane out of LINK. -/
  | laneLoss (lane : Fin 26) (signal clock : Bool) (codes : Fin 17)
  /-- R268. LANE_BACKOFF_END: RETRYDLY elapses and the lane restarts in WAIT. -/
  | laneBackoffEnd (lane : Fin 26)
  /-- R268. LANE_RETRAIN: LNK_CTRL.RETRAIN restarts training from LINK or DOWN. -/
  | laneRetrain (m : Master) (lane : Fin 26)
  /-- R264. LANE_PLL_LOSS: A lane PLL loses lock and its lanes go to WAIT in electrical idle. -/
  | lanePllLoss (pll : Fin 4)
  /-- R264. LANE_PLL_LOCK: A lane PLL locks and its lanes may start a blind start. -/
  | lanePllLock (pll : Fin 4)
  /-- R278. LANE_PRBS_ENABLE: LNK_PRBS.EN puts an allowed lane into PRBS. -/
  | lanePrbsEnable (m : Master) (lane : Fin 26)
  /-- R278. LANE_PRBS_DISABLE: Clearing LNK_PRBS.EN returns the lane to WAIT. -/
  | lanePrbsDisable (m : Master) (lane : Fin 26)
  /-- R279. PRBS_ERRINJ: ERRINJ inverts one transmitted bit. -/
  | prbsErrinj (m : Master) (lane : Fin 26)
  /-- R279. PRBS_CHECKER_LOCK: The checker locks after 64 error-free bits. -/
  | prbsCheckerLock (lane : Fin 26)
  /-- R279. PRBS_CHECKER_LOSS: 32 errors in 64 bits make the checker lose lock and set PRBSLOSS. -/
  | prbsCheckerLoss (lane : Fin 26) (errs : Fin 65)
  /-- R280. EYE_SCAN_START: LNK_EYECTL.GO starts an eye scan on a lane in LINK. -/
  | eyeScanStart (m : Master) (lane : Fin 26)
  /-- R280. EYE_SCAN_DONE: An eye scan completes and LNK_EYE shows WIDTH and HEIGHT. -/
  | eyeScanDone (lane : Fin 26) (height width : Fin 65)
  /-- R265. ELASTIC_RECENTER: The elastic buffer deletes or inserts an idle ordered set and counts it. -/
  | elasticRecenter (lane : Fin 26)
  /-- R293. SAR_ENABLE: Setting SARENn starts the converter. -/
  | sarEnable (m : Master) (conv : Fin 2)
  /-- R293. SAR_READY: Within 20 µs the converter is ready and leaves OFF. -/
  | sarReady (conv : Fin 2)
  /-- R293. SAR_DISABLE: Clearing SARENn abandons a sequence and sets the converter OFF. -/
  | sarDisable (m : Master) (conv : Fin 2)
  /-- R290. ADC_SEQSW_GO: A write of ADC_SEQSW.GO triggers the selected converters. -/
  | adcSeqswGo (m : Master) (mask : BitVec 2)
  /-- R289. SAR_CONVERSION_RESULT: A conversion slot ends and its result is written with its flags; a pending start may follow. -/
  | sarConversionResult (conv : Fin 2) (code : BitVec 20)
  /-- R292. ADC_URGENT_REQUEST: A write of ADC_URG requests one urgent conversion. -/
  | adcUrgentRequest (m : Master) (conv : Fin 2) (input : BitVec 5)
  /-- R295. REF_SELECT: A write that changes the reference selection clears SETTLED. -/
  | refSelect (m : Master) (sel : BitVec 2) (vnom : BitVec 12)
  /-- R295. REF_SETTLED: The reference has been in band for the settling time, so SETTLED sets. -/
  | refSettled (settled : Bool)
  /-- R301. WINDOW_COMPARATOR_CHANGE: A window comparator asserts or releases above or below. -/
  | windowComparatorChange (k : Fin 8) (level : Option Int)
  /-- R307. ADC_INJECT: A write of ADC_INJ sets OVR, REFNS, self-check or comparator injection points. -/
  | adcInject (m : Master) (w : Word)
  /-- R304. FAST_STREAM_START: Setting ADC_FCTRL.RUN starts the fast stream into the capture bank. -/
  | fastStreamStart (m : Master) (chen : BitVec 4)
  /-- R304. FAST_STREAM_STOP: Clearing RUN, or a bank handover, stops the fast stream. -/
  | fastStreamStop (m : Master)
  /-- R315. PHU_ENABLE: Setting PHU_CTRL.EN checks the configuration and starts the PHU. -/
  | phuEnable (m : Master)
  /-- R324. PHU_FRAME_EMIT: A completed window gives a phasor frame written to ring 16. The operands say which float32 neighbour each
  number takes, the upper where true: the parts of the phasors in turn, the frequency, the ROCOF (log entry 47). -/
  | phuFrameEmit (phasors : List Bool) (freq rocof : Bool)
  /-- R332. TW_TRIGGER: A modal derivative crossing THR while armed triggers a travelling-wave event. -/
  | twTrigger (xs : List FastSet)
  /-- R332. TW_POST_END: POST ends, the record is written to ring 17 and hold-off starts. -/
  | twPostEnd (first : BitVec 64) (xs : List FastSet)
  /-- R337. TW_LOCATE: TWU_LOCCMD.GO starts a double-ended location. -/
  | twLocate (m : Master)
  /-- R347. PWM_LEG_ENABLE: Setting PWM_CTRLn.EN arms a leg that has no latch. -/
  | pwmLegEnable (m : Master) (n : Fin 12)
  /-- R347. PWM_LEG_DISABLE: Clearing EN stops the leg after a running dead time. -/
  | pwmLegDisable (m : Master) (n : Fin 12)
  /-- R347. PWM_GSTART: A write of PWM_GSTART starts the ARMED legs of its mask together. -/
  | pwmGstart (m : Master) (mask : BitVec 12)
  /-- R348. PWM_CTRL_COMMIT: PWM_CTRLn.COMMIT commits the pending pair. -/
  | pwmCtrlCommit (m : Master) (n : Fin 12)
  /-- R348. PWM_PERIOD_BOUNDARY: At a period boundary the pending pair is loaded or split, and a new period begins. -/
  | pwmPeriodBoundary (n : Fin 12)
  /-- R345. PWM_TRANSITION: At an ideal transition the side that is on turns off. -/
  | pwmTransition (n : Fin 12) (high : Bool)
  /-- R350. DEAD_TIME_END: The dead time ends and the opposite side may turn on. -/
  | deadTimeEnd (n : Fin 12)
  /-- R350. GATE_ACK_INPUT: A gate-off acknowledge input changes, allowing turn-on or an active short. -/
  | gateAckInput (n : Fin 12) (high : Bool) (level : Bool)
  /-- R351. ACK_TIMEOUT: A missing acknowledge within SELV_ACK_TMO latches the leg's acknowledge source. -/
  | ackTimeout (n : Fin 12) (high : Bool)
  /-- R353. BSUV_INPUT: An assertion of BSUVn_N latches the supply source or requests a Picot refresh. -/
  | bsuvInput (n : Fin 12) (asserted : Bool)
  /-- R353. PICOT_SUPPLY_CHECK: 200 ns after a refresh, a BSUV still asserted latches the supply source. -/
  | picotSupplyCheck (n : Fin 12)
  /-- R355. DSAT_BLANK_END: The DSAT blanking after a turn-on ends. -/
  | dsatBlankEnd (n : Fin 12)
  /-- R354. SELVAGE_DECISION: A source condition that holds after its filter latches and sets its leg, STACK and BRK latches. -/
  | selvageDecision (src : Fin 64)
  /-- R359. SELV_FORCE: A keyed write of SELV_FORCE is a decision of source 61. -/
  | selvForce (m : Master) (w : Word)
  /-- R362. SELV_CLR: A keyed write of SELV_CLR releases requested latches that no live source holds. -/
  | selvClr (m : Master) (w : Word)
  /-- R378. FAULT_EVENT: FLT samples a source event, classifies it and applies its reactions in order. -/
  | faultEvent (src : Fin 256) (inst : Fin 256) (detail : Byte)
  /-- R375. FAULT_WINDOW_CLOSE: A counting window closes W ms after it opened and the count restarts. -/
  | faultWindowClose (src : Fin 256)
  /-- R390. FAULT_CONDITION_END: A condition source ends and its log record is rewritten with CLEARED. -/
  | faultConditionEnd (src : Fin 256) (inst : Fin 256)
  /-- R384. ERRPIN_HOLD_WRITE: A write of FLT_ERRPIN_HOLD asserts or releases ERR_N. -/
  | errpinHoldWrite (m : Master) (hold : Bool)
  /-- R385. FLT_RELEASE_SAFE: FLT_RELEASE with SAFE releases FLT_SAFEHOLD unless a live condition holds it. -/
  | fltReleaseSafe (m : Master) (key : BitVec 16)
  /-- R386. FLT_RELEASE_TRIPCLR: FLT_RELEASE with TRIPCLR starts sending TRIPCLR to tripped nodes. -/
  | fltReleaseTripclr (m : Master) (key : BitVec 16)
  /-- R385. CELL_BYPASS_RELEASE: Writing 1 to a FLT_CBYPk bit releases a cell bypass unless a live source holds it. -/
  | cellBypassRelease (m : Master) (k : Fin 6) (mask : Word)
  /-- R375. ESCALATION_CLEAR: Writing 1 to a FLT_ESCk bit ends the escalation and closes the window. -/
  | escalationClear (m : Master) (k : Fin 8) (mask : Word)
  /-- R387. FAULT_INJECT: A write of FLT_INJ injects an event of a source. -/
  | faultInject (m : Master) (w : Word)
  /-- R387. INJECT_CONDITION_END: An injected condition ends after DUR × 10 µs. -/
  | injectConditionEnd (src : Fin 256) (inst : Fin 256)
  /-- R388. ECC_INJECT_ARM: A write of FLT_ECCINJ arms inverted check bits for the next write to a memory. -/
  | eccInjectArm (m : Master) (w : Word)
  /-- R389. LOG_CLEAR: A keyed FLT_LOGCLR empties the pinned page for new records. -/
  | logClear (m : Master) (w : Word)
  /-- R400. RDN_ENABLE: Setting RDN_CTRL.EN checks the hold time and enters JOIN. -/
  | rdnEnable (m : Master)
  /-- R408. RDN_DISABLE: Clearing EN in JOIN, STANDBY or CLAIM returns the unit to SINGLE. -/
  | rdnDisable (m : Master)
  /-- R403. SHUTTLE_HBT_RX: A Shuttle heartbeat updates partner state, the pair cell time and H0, and carries HCMD. -/
  | shuttleHbtRx (lane : Fin 26) (f : List Byte) (frac : BitVec 16)
  /-- R412. STATE_SEGMENT_RX: A received STATE segment is applied, or a complete delta is loaded. -/
  | stateSegmentRx (f : List Byte)
  /-- R421. TUNNEL_RX: A TUNNEL frame is injected on a healed chain or handled as received from it. -/
  | tunnelRx (f : List Byte)
  /-- R408. RDN_CLAIMGO: RDN_CTRL.CLAIMGO makes the unit claim without fencing. -/
  | rdnClaimgo (m : Master)
  /-- R424. RDN_HOREQ: RDN_CTRL.HOREQ starts a planned handover. -/
  | rdnHoreq (m : Master)
  /-- R425. RDN_HOABORT: RDN_CTRL.HOABORT abandons a planned handover. -/
  | rdnHoabort (m : Master)
  /-- R428. STANDBY_LBIST_TILE: A standby runs LBIST on one tile of its held logic. -/
  | standbyLbistTile (fail : Bool)
  /-- R444. DIE_SENSOR_SAMPLE: A die sample updates TDIE and may trigger the stop level, an immediate safe state, a yield or an orderly stop. -/
  | dieSensorSample (rs : List (BitVec 16))
  /-- R435. DIODE_READING: Every 1 ms a remote diode reading is taken and judged. -/
  | diodeReading (k : Fin 8) (bad : Bool) (t : BitVec 16)
  /-- R439. THM_NSTEP_WRITE: A write of NSTEP is checked, and a lower value takes the step down at once. -/
  | thmNstepWrite (m : Master) (n : BitVec 4)
  /-- R442. THM_ACK: THM_ACK clears FROZEN and removes the failure offset. -/
  | thmAck (m : Master)
  /-- R447. PATH_MONITOR_READ: Every 10 s the path monitors are read and the VID code may change. -/
  | pathMonitorRead (slacks : List (BitVec 16))
  /-- R449. PROBE_TIMEOUT: A probe not returned within TMO cycles fails. -/
  | probeTimeout (cell : Fin 192)
  /-- R452. AGE_CELL_RESET: A keyed AGE_CELLRST restarts a cell record. -/
  | ageCellReset (m : Master) (w : Word)
  /-- R462. MEM_OWNER_WRITE: An accepted write of MEM_OWNn stops the old owner and starts the drain. -/
  | memOwnerWrite (m : Master) (n : Fin 21) (w : Word)
  /-- R462. OWNERSHIP_DRAIN_END: The drain ends: the new owner proceeds and OWNCHG is set. -/
  | ownershipDrainEnd (n : Fin 21)
  /-- R469. BANK_POWER_REQUEST: A write of MEM_PWRn.REQ starts a bank power transition. -/
  | bankPowerRequest (m : Master) (n : Fin 21) (w : Word)
  /-- R469. BANK_POWER_DONE: A bank completes its power transition. -/
  | bankPowerDone (n : Fin 21)
  /-- R478. NVM_WRITE_GO: NVM_WCMD.GO queues a user line write or is refused. -/
  | nvmWriteGo (m : Master)
  /-- R479. TAMPER_PIN: TAMPER_N low for PINFILT starts a secure bank wipe. -/
  | tamperPin (high : Bool)
  /-- R479. VOLTAGE_TAMPER: VDD or VDDMR out of range for 1 µs starts a wipe. -/
  | voltageTamper (ok : Bool)
  /-- R479. CLOCK_TAMPER: REFCLK out of range or absent starts a wipe. -/
  | clockTamper (ok : Bool)
  /-- R491. BAR4_READ: A host BAR4 read returns data under the window and ownership rules. -/
  | bar4Read (off : BitVec 26) (len : Fin 65)
  /-- R491. BAR4_WRITE: A host BAR4 write stores data where permitted or is refused. -/
  | bar4Write (off : BitVec 26) (data : List Byte)
  /-- R494. RING_DOORBELL: A doorbell write updates the host index of a ring or is refused. -/
  | ringDoorbell (ring : Fin 32) (v : Word) (slots : List Slot)
  /-- R495. RING_ENABLE: Setting HIF_RCFGn.EN starts a ring with both indices at 0. -/
  | ringEnable (m : Master) (ring : Fin 32)
  /-- R495. RING_DISABLE: Clearing EN takes a ring to STOPPING or from ERROR to DISABLED. -/
  | ringDisable (m : Master) (ring : Fin 32)
  /-- R495. RING_STOP_DONE: The last in-flight descriptor completes and the ring is DISABLED. -/
  | ringStopDone (ring : Fin 32)
  /-- R498. DMA_ERROR: A DMA error puts the ring into ERROR and records the error. -/
  | dmaError (ring : Fin 32) (write : Bool) (cpl : Byte) (addr : BitVec 64)
  /-- R502. NOP: The command NOP completes with RESULT 0. -/
  | nop (ring : Fin 8) (d : Desc)
  /-- R502. PRK_READ: The command PRK_READ reads Pricking entries into a host buffer. -/
  | prkRead (ring : Fin 8) (d : Desc) (page : Fin 4) (idx : Fin 65536) (cnt : Fin 65536)
  /-- R502. PRK_WRITE: The command PRK_WRITE replaces Pricking entries. -/
  | prkWrite (ring : Fin 8) (d : Desc) (page : Fin 4) (idx : Fin 65536) (entries : List (BitVec 128))
  /-- R502. PRK_INSERT: The command PRK_INSERT inserts Pricking entries. -/
  | prkInsert (ring : Fin 8) (d : Desc) (page : Fin 4) (entries : List (BitVec 128))
  /-- R502. PRK_DELETE: The command PRK_DELETE deletes Pricking entries. -/
  | prkDelete (ring : Fin 8) (d : Desc) (page : Fin 4) (idx : Fin 65536) (cnt : Fin 65536)
  /-- R502. PRK_CLEAR: The command PRK_CLEAR empties a page. -/
  | prkClear (ring : Fin 8) (d : Desc) (page : Fin 4)
  /-- R502. PRK_COMMIT: The command PRK_COMMIT validates a page. -/
  | prkCommit (ring : Fin 8) (d : Desc) (page : Fin 4)
  /-- R502. PRK_SWAP: The command PRK_SWAP requests a swap and completes when it takes effect. -/
  | prkSwap (ring : Fin 8) (d : Desc) (page : Fin 4)
  /-- R504. CELL_MGMT: The command CELL_MGMT sends a management request to a cell or chain. -/
  | cellMgmt (ring : Fin 8) (d : Desc) (q : MgmtReq)
  /-- R502. CELLMAP_WRITE: The command CELLMAP_WRITE writes cell map entries. -/
  | cellmapWrite (ring : Fin 8) (d : Desc) (first : Fin 256) (entries : List (List Byte))
  /-- R502. MEM_READ: The command MEM_READ copies engine memory to a host buffer. -/
  | memRead (ring : Fin 8) (d : Desc) (addr : Word)
  /-- R502. MEM_WRITE: The command MEM_WRITE copies a host buffer to engine memory. -/
  | memWrite (ring : Fin 8) (d : Desc) (addr : Word) (data : List Byte)
  /-- R500. COMMAND_COMPLETE: A finished command writes its completion entry when the completion ring has room. -/
  | commandComplete (cq : Fin 8)
  /-- R498. IRQ_HOLDOFF_END: The IMOD hold-off ends and any pending slot is signalled. -/
  | irqHoldoffEnd (ring : Fin 32)
  /-- R492. MSIX_UNMASK: Unmasking a vector with its pending bit set sends the message. -/
  | msixUnmask (vec : Fin 64) (masked : Bool) (addr : BitVec 64) (data : Word)
  /-- R507. MAILBOX_FETCH: HIF fetches a host-to-engine message into the mailbox FIFO when it has room. -/
  | mailboxFetch (k : Fin 4) (msg : List Byte)
  /-- R507. MAILBOX_POP: HIF_MBCTLk.POP removes the oldest message. -/
  | mailboxPop (m : Master) (k : Fin 4)
  /-- R507. MAILBOX_POST: HIF_MBCTLk.POST sends an engine message to the host ring. -/
  | mailboxPost (m : Master) (k : Fin 4)
  /-- R521. BOOT_SELECT: A keyed BST_BOOTCFG with SELVALID chooses the image for the next boot. -/
  | bootSelect (m : Master) (sel : Bool)
  /-- R525. SHUTDOWN_BIST_DONE: The shutdown BIST ends, the stamp is written and the device is in SHUTDOWN. -/
  | shutdownBistDone (fails : List BistFail)
  /-- R514. PCIE_LINK_UP: The PCIe link trains and enters L0, so HIF_STATUS.LINKUP, SPEED and WIDTH are set. -/
  | pcieLinkUp (speed : Fin 16) (width : Fin 8)
  /-- R489. PCIE_CONFIG_WRITE: A host write to configuration space changes Bus Master Enable, MSI-X enable or the power state. -/
  | pcieConfigWrite (bme : Bool) (msixen : Bool) (d3hot : Bool)
  /-- R274. CTLE_TRACK_STEP: With TRACK = 1 a lane in LINK moves its CTLE by one step per 1 ms to follow drift. -/
  | ctleTrackStep (lane : Fin 26) (up : Bool)
  /-- R236. ENUM_FAR_END_RX: A unit that receives an ENUM with RET = 0 from the far end of a chain returns it towards the sender with RET = 1. -/
  | enumFarEndRx (c : Fin 24) (f : List Byte)
  /-- R406. SHUTTLE_DELAY_REQ_RX: A DELAY_REQ from the partner on LN24 is answered with a DELAY_RSP, so that the partner can measure RDN_SHDLY. -/
  | shuttleDelayReqRx (f : List Byte) (t2 : BitVec 64)
  /-- R359. SELVAGE_INPUT_CHANGE: A TRIP, DSAT, FOC or BSUV input changes its filtered level without latching, for example on release or while its source is disabled, and SELV_LIVE follows. -/
  | selvageInputChange (src : Fin 60) (level : Bool)
  /-- R352. PICOT_PULSE_END: PWM_PICOT_W after the low side turns on in a Picot refresh, GLn turns off and GHn follows after DT and the acknowledge. -/
  | picotPulseEnd (n : Fin 12)
  /-- R305. FAST_CHANNEL_CLIP: A fast sample clamps, so CLIP and CLIPNOW are set, ADC_FCLIPc counts the episode and ADC_EVT.FCLIP is set. -/
  | fastChannelClip (c : Fin 4) (clip : Bool)
  /-- R532. TAP_INSTRUCTION: An instruction is shifted in through the IEEE 1149.1 test access port, for example EXTEST, which holds the gate outputs low. -/
  | tapInstruction (ir : TapIr)
  /-- R517. POWER_ON_RESET: Release of the internal reset after PWR_OK rises starts the timebase PLL, loads the fuses and starts Thimble. -/
  | powerOnReset
  /-- R520. PERST_RESET: Assertion and release of PERST_N reset the device and restart it as at power-up. -/
  | perstReset
  /-- R519. POWER_DOWN: A fall of PWR_OK puts the device into reset within 1 µs, with the gate outputs and ACT_OUT low. -/
  | powerDown
  /-- R16. TIMEBASE_PLL_LOCK: The timebase PLL locks and sets TBLOCK. -/
  | timebasePllLock
  /-- R16. TIMEBASE_PLL_LOSS: The timebase PLL loses lock, which is a class F fault with reaction ALL_SAFE. -/
  | timebasePllLoss
  /-- R16. CORE_PLL_LOSS: The core PLL loses lock, which is a class F fault with reaction ALL_SAFE. -/
  | corePllLoss
  /-- R45. REF10M_LOSS: Loss of the 10 MHz input sets REF10MLOSS and switches the holdover estimate to its first form. -/
  | ref10mLoss
  /-- R543. REF10M_DETECT: The 10 MHz input is detected as present after its first edges. -/
  | ref10mDetect
  /-- R45. PCIE_REF_LOSS: Loss of the PCIe reference sets PCIELOSS. -/
  | pcieRefLoss
  /-- R146. THIMBLE_WATCHDOG_EXPIRY: Expiry of the fixed 10 ms Thimble watchdog raises the watchdog source and leads to a Thimble watchdog reset. -/
  | thimbleWatchdogExpiry
  /-- R37. THIMBLE_WATCHDOG_RESET: The Thimble watchdog reset takes effect after the reaction of the watchdog source has been applied. -/
  | thimbleWatchdogReset
  /-- R143. LOCKSTEP_MISMATCH: A mismatch between the Thimble cores raises the class F lockstep source and a Thimble watchdog reset follows. -/
  | lockstepMismatch
  /-- R145. THIMBLE_BOOT: Thimble starts from mask ROM, selects and verifies an image, copies the engine sections and sets LOADED. -/
  | thimbleBoot
  /-- R22. CTRL_RUN_START: CTRL_RUN sets and control cycles start at the next H0 angle zero after a passing check. -/
  | ctrlRunStart
  /-- R445. ORDERLY_STOP_STACK: At TBRK the stop sets the STACK latch, so the fast trip bypasses every cell. -/
  | orderlyStopStack
  /-- R445. ORDERLY_STOP_LEGS: At TBRK + 0.5 ms the stop sets all leg latches. -/
  | orderlyStopLegs
  /-- R445. ORDERLY_STOP_END: At 5.0 ms CTRL_RUN, RUN and STOP clear and a ring 27 record is written. -/
  | orderlyStopEnd
  /-- R508. MRAM_IMAGE_COMMIT: Long operation 0x1 verifies the staged image and writes it to the image region not booted. -/
  | mramImageCommit
  /-- R530. LIFECYCLE_ADVANCE: Long operation 0x2 programs the next lifecycle state and wipes the secure bank. -/
  | lifecycleAdvance
  /-- R508. FUSE_PROGRAM: Long operation 0x3 programs a column repair, the key hash or DBG_KILL. -/
  | fuseProgram
  /-- R524. ON_DEMAND_BIST: Long operation 0x4 runs LBIST and MBIST on the listed tiles and banks and leaves the engines unloaded. -/
  | onDemandBist
  /-- R479. SECURE_WIPE: Long operation 0x5 wipes the secure bank. -/
  | secureWipe
  /-- R18. CYCLE_START: The CYCLE_START action marks t0: sampling, the conversion pass and the prediction of the next cycle. -/
  | cycleStart
  /-- R18. REFS_DUE: At REFS_DUE Stitch latches the reference tables and Tatting samples its inputs and ranks. -/
  | refsDue
  /-- R199. TATTING_PUBLISH: 200 ns after REFS_DUE, Tatting publishes the orders and offsets to Stitch and updates TAT_KEYk and TAT_OFSk. -/
  | tattingPublish
  /-- R185. STITCH_COMPUTE_DONE: Stitch finishes computing the sets and writes them to the downstream images. -/
  | stitchComputeDone
  /-- R20. DOWN_DEPARTURE: At the departure mark, SYNC and DOWN frames leave on every chain lane, followed by HBT and other requests. -/
  | downDeparture
  /-- R49. ANGLE_ZERO: The H0 or H1 angle passes zero through the step and its turn count increments. -/
  | angleZero
  /-- R78. PRICKING_PASS: A conversion pass converts the entries inside the horizon and re-converts queued actions. -/
  | prickingPass
  /-- R74. PRK_EDIT_COMPLETE: An edit command finishes, writes its status to PRK_EDSTAT and clears BUSY. -/
  | prkEditComplete
  /-- R77. PAGE_SWAP_EFFECT: A pending swap takes effect at the next H0 angle zero not yet converted. -/
  | pageSwapEffect
  /-- R426. HANDOVER_POINT: The Pricking action marks the instant at which an armed planned handover may occur. -/
  | handoverPoint
  /-- R95. NTM_SLEW_COMPLETE: The slew remainder reaches 0 and SLEWING clears. -/
  | ntmSlewComplete
  /-- R99. NTM_MASTER_TIMEOUT: The master is absent for NTM_MTMO while LOCKED, so the clock enters HOLDOVER. -/
  | ntmMasterTimeout
  /-- R102. NTM_HOLD_UPDATE: Every 1 ms in HOLDOVER the estimate is updated, and crossing NTM_HOLDLIM clears NTMLOCK. -/
  | ntmHoldUpdate
  /-- R98. PPS_OUT_PULSE: 1PPS_OUT rises at the instant of an NTM second plus the offset. -/
  | ppsOutPulse
  /-- R108. PPS_OUT_PULSE_END: 1PPS_OUT falls after WIDTH. -/
  | ppsOutPulseEnd
  /-- R109. NTM_ALARM: NTM time reaches the armed alarm: ALARM is set, ARM clears and Quiet is woken. -/
  | ntmAlarm
  /-- R107. PRP_ENTRY_EXPIRE: A duplicate-table entry unused for FORGET ms is freed. -/
  | prpEntryExpire
  /-- R147. BOBBIN_WATCHDOG_CHECK: At the end of each period Thimble flags engines that did not kick and may clear their EN. -/
  | bobbinWatchdogCheck
  /-- R235. ENUM_FILL_PERIODIC: While control runs, a FILL pass is sent on each chain once per second. -/
  | enumFillPeriodic
  /-- R242. CLAIM_OUTCOME: Two cycles after CLAIM, the chain outcomes decide whether the claim is won or lost. -/
  | claimOutcome
  /-- R299. HK_SCAN_PERIOD: Each housekeeping period a new scan starts, and a late scan is counted. -/
  | hkScanPeriod
  /-- R300. SELF_CHECK_PERIOD: Each self-check period a new round of test points starts. -/
  | selfCheckPeriod
  /-- R295. REF_INBAND_LOSS: The reference leaves its band, so SETTLED clears and REFLOSS is set. -/
  | refInbandLoss
  /-- R319. PHU_GUARD_DECISION: 0.5 µs before a grid instant the guard shift is chosen against Stitch edges. -/
  | phuGuardDecision
  /-- R316. PHU_TRIGGER: The PHU triggers its converter for a grid instant. -/
  | phuTrigger
  /-- R332. TW_HOLDOFF_END: Hold-off ends and triggers are accepted again. -/
  | twHoldoffEnd
  /-- R331. TW_ARM_EXPIRE: ARMLEFT reaches 0 and the TWU disarms. -/
  | twArmExpire
  /-- R336. TW_CAPTURE_DONE: The waveform copy to ring 19 completes. -/
  | twCaptureDone
  /-- R337. TW_LOCATE_DONE: The location result or error is written. -/
  | twLocateDone
  /-- R360. BRK_MIN_EXPIRE: SELV_BRKMIN elapses, so BRK_TRIP_N may be released. -/
  | brkMinExpire
  /-- R391. LOG_RECORD_COMMIT: Thimble commits a queued record to the MRAM event log and ring 18. -/
  | logRecordCommit
  /-- R384. ERRPIN_MINW_EXPIRE: The minimum ERR_N pulse ends and the pin follows HOLD. -/
  | errpinMinwExpire
  /-- R411. SNAPSHOT_PERIOD: Each PERIOD the active unit starts sending the snapshot regions. -/
  | snapshotPeriod
  /-- R415. STANDBY_TX_SLOT: At T − 3.0 µs a standby sends HBT, delay exchanges, fencing queries and CLAIM on its chains. -/
  | standbyTxSlot
  /-- R424. REVERT_TIMER_EXPIRE: The preferred unit has been a healthy standby for RDN_REVERT_S, so it requests a handover. -/
  | revertTimerExpire
  /-- R425. HOARM_TIMEOUT: No HANDOVER_POINT within 1 s of HOARM abandons the handover. -/
  | hoarmTimeout
  /-- R426. HANDOVER_CLAIM: At T − 0.25 µs of the handover cycle the standby claims with epoch + 1. -/
  | handoverClaim
  /-- R408. HANDOFF_TIMEOUT: No heartbeat from the new active unit within 4 cycles makes the old unit claim again. -/
  | handoffTimeout
  /-- R406. CTLOCK_TIMEOUT: CTLOCK clears 100 ms after the last Shuttle heartbeat. -/
  | ctlockTimeout
  /-- R406. SHUTTLE_DELAY_PERIOD: Once per second the Shuttle one-way delay is measured. -/
  | shuttleDelayPeriod
  /-- R428. STANDBY_HEALTH_REPORT: Every second the standby writes a health report to ring 26. -/
  | standbyHealthReport
  /-- R419. CHAIN_RECLAIM: Every 10 cycles a silent chain is claimed again. -/
  | chainReclaim
  /-- R439. THROTTLE_EVALUATE: Every 1 ms TC is evaluated and the throttle step may rise or fall by one. -/
  | throttleEvaluate
  /-- R443. CELL_HEADROOM_UPDATE: Before REFS_DUE, HEAD is computed for every cell with a fresh image. -/
  | cellHeadroomUpdate
  /-- R446. DIE_COMPARATOR_TRIP: A fixed 135 °C comparator decides: all latches set and MRAM writes stop. -/
  | dieComparatorTrip
  /-- R446. THERMAL_HALT: 10 µs after the decision the device halts with its outputs held. -/
  | thermalHalt
  /-- R446. THERMAL_RESTART: After 100 ms below 120 °C the device restarts as at power-on with THERM set. -/
  | thermalRestart
  /-- R448. AGE_EYE_SCAN_PERIOD: Every PER seconds AGE starts an eye scan on the next lane. -/
  | ageEyeScanPeriod
  /-- R451. AGE_LIFE_UPDATE: Once per second LIFE and DERATE are updated for each cell. -/
  | ageLifeUpdate
  /-- R452. AGE_SAVE: Every SAVEPER the ageing records are saved to MRAM. -/
  | ageSave
  /-- R453. AGE_REPORT: Every RPTPER a cell summary is written to ring 25. -/
  | ageReport
  /-- R468. SCRUB_PASS: Every SCRUBPER the scrubber reads every word of the banks that are ON. -/
  | scrubPass
  /-- R467. ECC_WRITEBACK: A corrected word is written back in the next idle port cycle. -/
  | eccWriteback
  /-- R464. STARVE_TIMEOUT: A level 5 request waiting 1,024 cycles is counted in MEM_STARVE. -/
  | starveTimeout
  /-- R474. MRAM_LINE_WRITTEN: An MRAM line write completes. -/
  | mramLineWritten
  /-- R479. SECURE_WIPE_DONE: A secure bank wipe completes and Thimble restarts from ROM. -/
  | secureWipeDone
  /-- R480. THIMBLE_RESTART_DONE: Thimble's restart after a wipe ends and RESTART clears. -/
  | thimbleRestartDone
  /-- R514. PCIE_LINK_DOWN: The PCIe link leaves L0 and L1 other than by PERST_N. -/
  | pcieLinkDown
  /-- R521. BOOT_CONFIRM: A keyed BST_BOOTCFG with CONFIRM confirms the booted image. -/
  | bootConfirm
  /-- R525. SHUTDOWN_START: A keyed BST_SDCMD sets every Selvage latch and starts the shutdown sequence. -/
  | shutdownStart
  /-- R525. SHUTDOWN_PAD_HOLD: After 10 µs the safe levels are frozen by the pad hold. -/
  | shutdownPadHold
  /-- R528. QUIET_ENTER: A keyed BST_QCMD with ENTER requests Quiet, or is refused. -/
  | quietEnter
  /-- R528. QUIET_ENTRY_DONE: Entry into Quiet completes. -/
  | quietEntryDone
  /-- R529. WAKE_PIN: WAKE held high for 1 µs wakes the device from Quiet. -/
  | wakePin
  /-- R529. QUIET_WAKE_CMD: A keyed BST_QCMD with WAKE wakes the device. -/
  | quietWakeCmd
  /-- R529. QUIET_AWAKE: 500 µs after the wake the device is AWAKE with its engines and lanes enabled again. -/
  | quietAwake
  /-- R45. CORE_PLL_LOCK: The core PLL locks and GLB_CLKSTAT.COREPLL sets. -/
  | corePllLock
  /-- R45. PCIE_REF_DETECT: The PCIe reference becomes present and GLB_CLKSTAT.PCIEREF sets. -/
  | pcieRefDetect
  /-- R155. THIMBLE_HEARTBEAT: Every 1 ms Thimble firmware increments THB_HEART. -/
  | thimbleHeartbeat
deriving DecidableEq, Repr

end Sys2Proof
end

