-- ==== Sys2Proof/Decode.lean ====
section
/-!
DEFINITION. The command that a word spells by the opcode table's bits. No row of the table gives bits: the block takes commands
from its senders, not words, so no word spells one. (The instruction words that the Bobbin engines fetch are decoded in
Machine/Rv.lean.)
-/

namespace Sys2Proof

/-- The command of a word of `nbits` bits: none, since no row of the opcode table gives bits. -/
def decodeTableWord (_nbits _w : Nat) : Option Instr := none

end Sys2Proof
end

