-- ==== Sys2Proof/Machine/Float.lean ====
section
/-!
DEFINITION. Single-precision floating point of the engines (R122): IEEE 754 with subnormals and all five rounding modes.
Every operation forms the exact result and rounds it once. The NaN that an operation gives, the flags and the corner cases are
those of the RISC-V F extension, which R122 names (PRESUMED, log entry 60). Words are naturals below 2^32; flags are NV 16,
DZ 8, OF 4, UF 2, NX 1.
-/

namespace Sys2Proof.Machine

/-- A word and the flags it raised. -/
abbrev FRes := Nat × Nat

def fNV : Nat := 16
def fDZ : Nat := 8
def fOF : Nat := 4
def fUF : Nat := 2
def fNX : Nat := 1

/-- The NaN that operations give. -/
def fQNaN : Nat := 0x7FC00000

def fSign (x : Nat) : Bool := bitOf x 31
def fExp (x : Nat) : Nat := bitsOf x 23 8
def fFrac (x : Nat) : Nat := bitsOf x 0 23
def fIsNaN (x : Nat) : Bool := fExp x == 255 && fFrac x != 0
def fIsSNaN (x : Nat) : Bool := fIsNaN x && !bitOf x 22
def fIsInf (x : Nat) : Bool := fExp x == 255 && fFrac x == 0
def fIsZero (x : Nat) : Bool := x % 2 ^ 31 == 0

/-- The word of a sign and a magnitude. -/
def fPack (neg : Bool) (mag : Nat) : Nat := (if neg then 2 ^ 31 else 0) + mag

def fInf (neg : Bool) : Nat := fPack neg 0x7F800000
def fZero (neg : Bool) : Nat := fPack neg 0

/-- Significand and exponent of a finite number: its magnitude is m × 2^e. -/
def fMant (x : Nat) : Nat := if fExp x = 0 then fFrac x else 2 ^ 23 + fFrac x
def fE (x : Nat) : Int := if fExp x = 0 then -149 else (fExp x : Int) - 150

/-- Bits of a number. -/
def bitLen (n : Nat) : Nat := if n = 0 then 0 else Nat.log2 n + 1

/-- Whether a magnitude of `sig` units and a rest is rounded up: modes RNE 0, RTZ 1, RDN 2, RUP 3, RMM 4. `half` compares the
rest with half a unit; `inexact` says that it is not 0. -/
def fUp (rm : Nat) (neg : Bool) (sig : Nat) (half : Ordering) (inexact : Bool) : Bool :=
  if rm = 0 then half == .gt || (half == .eq && sig % 2 == 1)
  else if rm = 1 then false
  else if rm = 2 then neg && inexact
  else if rm = 3 then !neg && inexact
  else half != .lt

/-- The magnitude m × 2^e, plus a rest below one unit of m where `sticky`, in units of 2^q: the integer, and how it was
rounded. -/
def fQuant (rm : Nat) (neg : Bool) (m : Nat) (e : Int) (sticky : Bool) (q : Int) : Nat × Bool :=
  if q ≤ e then (m * 2 ^ (e - q).toNat, sticky)
  else
    let sh := (q - e).toNat
    let sig := m / 2 ^ sh
    let rest := m % 2 ^ sh
    let half := 2 ^ (sh - 1)
    let inexact := rest != 0 || sticky
    let c : Ordering := if rest < half then .lt else if rest = half ∧ sticky = false then .eq else .gt
    (if fUp rm neg sig c inexact then sig + 1 else sig, inexact)

/-- The float that the number ±(m × 2^e, plus the rest) rounds to. A zero is not rounded. -/
def fRound (rm : Nat) (neg : Bool) (m : Nat) (e : Int) (sticky : Bool) : FRes :=
  if m = 0 then (fZero neg, 0)
  else
    let q0 := e + (bitLen m : Int) - 24
    let q := max q0 (-149)
    let r := fQuant rm neg m e sticky q
    let sig := if r.1 = 2 ^ 24 then 2 ^ 23 else r.1
    let q := if r.1 = 2 ^ 24 then q + 1 else q
    let bexp := (q + 150).toNat
    if 2 ^ 23 ≤ sig ∧ 255 ≤ bexp then
      let up := rm == 0 || rm == 4 || (rm == 3 && !neg) || (rm == 2 && neg)
      (if up then fInf neg else fPack neg 0x7F7FFFFF, fOF + fNX)
    else
      let tiny := decide (q0 < -149) && !(q0 == -150 && (fQuant rm neg m e sticky q0).1 == 2 ^ 24)
      let flags := if r.2 then (if tiny then fUF + fNX else fNX) else 0
      (fPack neg (if sig < 2 ^ 23 then sig else bexp * 2 ^ 23 + (sig - 2 ^ 23)), flags)

/-- The NaN result of operands of which one is a NaN. -/
def fNaNs (xs : List Nat) : FRes := (fQNaN, if xs.any fIsSNaN then fNV else 0)

/-- The sum of two finite magnitudes with sign, exactly rounded; `sz` is the sign of an exact zero of two zeros of equal
sign. -/
def fSum (rm : Nat) (na : Bool) (ma : Nat) (ea : Int) (nb : Bool) (mb : Nat) (eb : Int) : FRes :=
  let e := min ea eb
  let a : Int := (ma * 2 ^ (ea - e).toNat : Nat)
  let b : Int := (mb * 2 ^ (eb - e).toNat : Nat)
  let z := (if na then -a else a) + (if nb then -b else b)
  if z = 0 then (fZero (if ma = 0 ∧ mb = 0 ∧ na = nb then na else rm == 2), 0)
  else fRound rm (decide (z < 0)) z.natAbs e false

def fAdd (rm a b : Nat) : FRes :=
  if fIsNaN a || fIsNaN b then fNaNs [a, b]
  else if fIsInf a then (if fIsInf b && fSign a != fSign b then (fQNaN, fNV) else (a, 0))
  else if fIsInf b then (b, 0)
  else fSum rm (fSign a) (fMant a) (fE a) (fSign b) (fMant b) (fE b)

/-- The number with its sign turned. -/
def fNeg (x : Nat) : Nat := if fSign x then x - 2 ^ 31 else x + 2 ^ 31

def fSub (rm a b : Nat) : FRes := if fIsNaN a || fIsNaN b then fNaNs [a, b] else fAdd rm a (fNeg b)

def fMul (rm a b : Nat) : FRes :=
  let neg := fSign a != fSign b
  if fIsNaN a || fIsNaN b then fNaNs [a, b]
  else if fIsInf a || fIsInf b then (if fIsZero a || fIsZero b then (fQNaN, fNV) else (fInf neg, 0))
  else fRound rm neg (fMant a * fMant b) (fE a + fE b) false

/-- a × b + c, rounded once. -/
def fMadd (rm a b c : Nat) : FRes :=
  let neg := fSign a != fSign b
  let bad := (fIsInf a && fIsZero b) || (fIsZero a && fIsInf b)
  if fIsNaN a || fIsNaN b || fIsNaN c then (fQNaN, if bad || [a, b, c].any fIsSNaN then fNV else 0)
  else if bad then (fQNaN, fNV)
  else if fIsInf a || fIsInf b then (if fIsInf c && fSign c != neg then (fQNaN, fNV) else (fInf neg, 0))
  else if fIsInf c then (c, 0)
  else fSum rm neg (fMant a * fMant b) (fE a + fE b) (fSign c) (fMant c) (fE c)

def fDiv (rm a b : Nat) : FRes :=
  let neg := fSign a != fSign b
  if fIsNaN a || fIsNaN b then fNaNs [a, b]
  else if fIsInf a then (if fIsInf b then (fQNaN, fNV) else (fInf neg, 0))
  else if fIsInf b then (fZero neg, 0)
  else if fIsZero b then (if fIsZero a then (fQNaN, fNV) else (fInf neg, fDZ))
  else
    let n := fMant a * 2 ^ 60
    fRound rm neg (n / fMant b) (fE a - fE b - 60) (n % fMant b != 0)

/-- The integer square root, bit by bit: `k` bits are still to be tried. -/
def isqrtGo (n : Nat) : Nat → Nat → Nat
  | 0, r => r
  | k + 1, r => let t := r + 2 ^ k; isqrtGo n k (if t * t ≤ n then t else r)

def isqrt (n : Nat) : Nat := isqrtGo n 64 0

def fSqrt (rm a : Nat) : FRes :=
  if fIsNaN a then fNaNs [a]
  else if fIsZero a then (a, 0)
  else if fSign a then (fQNaN, fNV)
  else if fIsInf a then (a, 0)
  else
    let odd := (fE a) % 2 != 0
    let n := fMant a * 2 ^ (if odd then 61 else 60)
    let e := (if odd then fE a - 61 else fE a - 60) / 2
    let r := isqrt n
    fRound rm false r e (r * r != n)

/-- The order of two numbers that are not NaNs; the zeros are equal. -/
def fLt (a b : Nat) : Bool :=
  if fIsZero a && fIsZero b then false
  else if fSign a then (if fSign b then decide (b < a) else true)
  else if fSign b then false else decide (a < b)

def fEqv (a b : Nat) : Bool := a == b || (fIsZero a && fIsZero b)

/-- FEQ, FLT, FLE. -/
def fCmpEq (a b : Nat) : FRes :=
  if fIsNaN a || fIsNaN b then (0, if fIsSNaN a || fIsSNaN b then fNV else 0) else (if fEqv a b then 1 else 0, 0)
def fCmpLt (a b : Nat) : FRes := if fIsNaN a || fIsNaN b then (0, fNV) else (if fLt a b then 1 else 0, 0)
def fCmpLe (a b : Nat) : FRes := if fIsNaN a || fIsNaN b then (0, fNV) else (if fLt a b || fEqv a b then 1 else 0, 0)

/-- FMIN and FMAX: −0 lies below +0; a NaN yields the other operand. -/
def fMinMax (wantMax : Bool) (a b : Nat) : FRes :=
  let flags := if fIsSNaN a || fIsSNaN b then fNV else 0
  if fIsNaN a && fIsNaN b then (fQNaN, flags)
  else if fIsNaN a then (b, flags)
  else if fIsNaN b then (a, flags)
  else
    let less := if fIsZero a && fIsZero b then fSign a else fLt a b
    (if less != wantMax then a else b, flags)

/-- FSGNJ, FSGNJN, FSGNJX. -/
def fSgn (mode a b : Nat) : Nat :=
  let neg := if mode = 0 then fSign b else if mode = 1 then !fSign b else fSign a != fSign b
  fPack neg (a % 2 ^ 31)

/-- FCLASS. -/
def fClass (a : Nat) : Nat :=
  if fIsNaN a then (if fIsSNaN a then 0x100 else 0x200)
  else if fIsInf a then (if fSign a then 0x001 else 0x080)
  else if fIsZero a then (if fSign a then 0x008 else 0x010)
  else if fExp a = 0 then (if fSign a then 0x004 else 0x020)
  else if fSign a then 0x002 else 0x040

/-- FCVT to an integer in the range from `lo` to `hi`, as the low 32 bits. -/
def fToInt (rm : Nat) (lo hi : Int) (a : Nat) : FRes :=
  if fIsNaN a then (ofSigned 32 hi, fNV)
  else if fIsInf a then (ofSigned 32 (if fSign a then lo else hi), fNV)
  else
    let r := fQuant rm (fSign a) (fMant a) (fE a) false 0
    let z : Int := if fSign a then -(r.1 : Int) else (r.1 : Int)
    if z < lo then (ofSigned 32 lo, fNV) else if hi < z then (ofSigned 32 hi, fNV) else (ofSigned 32 z, if r.2 then fNX else 0)

/-- FCVT from an integer. -/
def fOfInt (rm : Nat) (z : Int) : FRes := fRound rm (decide (z < 0)) z.natAbs 0 false

end Sys2Proof.Machine
end

