-- ==== Sys2Proof/Machine/Crypto.lean ====
section
/-!
DEFINITION. SHA-384 (FIPS 180-4) and the verification of an ECDSA signature on P-384 with SHA-384 (FIPS 186-5), which R512
names. The spec names the standards and does not give their text (PRESUMED, log entry 40).
-/

namespace Sys2Proof.Machine

/-! ### SHA-384 -/

/-- The 80 round constants of SHA-384. -/
def shaK : List Nat :=
  [0x428a2f98d728ae22, 0x7137449123ef65cd, 0xb5c0fbcfec4d3b2f, 0xe9b5dba58189dbbc] ++
  [0x3956c25bf348b538, 0x59f111f1b605d019, 0x923f82a4af194f9b, 0xab1c5ed5da6d8118] ++
  [0xd807aa98a3030242, 0x12835b0145706fbe, 0x243185be4ee4b28c, 0x550c7dc3d5ffb4e2] ++
  [0x72be5d74f27b896f, 0x80deb1fe3b1696b1, 0x9bdc06a725c71235, 0xc19bf174cf692694] ++
  [0xe49b69c19ef14ad2, 0xefbe4786384f25e3, 0x0fc19dc68b8cd5b5, 0x240ca1cc77ac9c65] ++
  [0x2de92c6f592b0275, 0x4a7484aa6ea6e483, 0x5cb0a9dcbd41fbd4, 0x76f988da831153b5] ++
  [0x983e5152ee66dfab, 0xa831c66d2db43210, 0xb00327c898fb213f, 0xbf597fc7beef0ee4] ++
  [0xc6e00bf33da88fc2, 0xd5a79147930aa725, 0x06ca6351e003826f, 0x142929670a0e6e70] ++
  [0x27b70a8546d22ffc, 0x2e1b21385c26c926, 0x4d2c6dfc5ac42aed, 0x53380d139d95b3df] ++
  [0x650a73548baf63de, 0x766a0abb3c77b2a8, 0x81c2c92e47edaee6, 0x92722c851482353b] ++
  [0xa2bfe8a14cf10364, 0xa81a664bbc423001, 0xc24b8b70d0f89791, 0xc76c51a30654be30] ++
  [0xd192e819d6ef5218, 0xd69906245565a910, 0xf40e35855771202a, 0x106aa07032bbd1b8] ++
  [0x19a4c116b8d2d0c8, 0x1e376c085141ab53, 0x2748774cdf8eeb99, 0x34b0bcb5e19b48a8] ++
  [0x391c0cb3c5c95a63, 0x4ed8aa4ae3418acb, 0x5b9cca4f7763e373, 0x682e6ff3d6b2b8a3] ++
  [0x748f82ee5defb2fc, 0x78a5636f43172f60, 0x84c87814a1f0ab72, 0x8cc702081a6439ec] ++
  [0x90befffa23631e28, 0xa4506cebde82bde9, 0xbef9a3f7b2c67915, 0xc67178f2e372532b] ++
  [0xca273eceea26619c, 0xd186b8c721c0c207, 0xeada7dd6cde0eb1e, 0xf57d4f7fee6ed178] ++
  [0x06f067aa72176fba, 0x0a637dc5a2c898a6, 0x113f9804bef90dae, 0x1b710b35131c471b] ++
  [0x28db77f523047d84, 0x32caab7b40c72493, 0x3c9ebe0a15c9bebc, 0x431d67c49c100d4c] ++
  [0x4cc5d4becb3e42b6, 0x597f299cfc657e2a, 0x5fcb6fab3ad6faec, 0x6c44198c4a475817]

/-- The initial hash value of SHA-384. -/
def shaInit : List Nat :=
  [0xcbbb9d5dc1059ed8, 0x629a292a367cd507, 0x9159015a3070dd17, 0x152fecd8f70e5939] ++
  [0x67332667ffc00b31, 0x8eb44a8768581511, 0xdb0c2e0d64f98fa7, 0x47b5481dbefa4fa4]

/-- 64-bit words. -/
def shaMod : Nat := 2 ^ 64

/-- Rotation of a 64-bit word to the right. -/
def shaRotr (n x : Nat) : Nat := (x / 2 ^ n + x * 2 ^ (64 - n)) % shaMod

/-- The functions of FIPS 180-4 on 64-bit words. -/
def shaBig0 (x : Nat) : Nat := shaRotr 28 x ^^^ shaRotr 34 x ^^^ shaRotr 39 x
def shaBig1 (x : Nat) : Nat := shaRotr 14 x ^^^ shaRotr 18 x ^^^ shaRotr 41 x
def shaSmall0 (x : Nat) : Nat := shaRotr 1 x ^^^ shaRotr 8 x ^^^ (x / 2 ^ 7)
def shaSmall1 (x : Nat) : Nat := shaRotr 19 x ^^^ shaRotr 61 x ^^^ (x / 2 ^ 6)
def shaCh (x y z : Nat) : Nat := (x &&& y) ^^^ ((shaMod - 1 - x) &&& z)
def shaMaj (x y z : Nat) : Nat := (x &&& y) ^^^ (x &&& z) ^^^ (y &&& z)

/-- The message schedule: the words of a block, newest first, extended by `n` words. -/
def shaSched : Nat → List Nat → List Nat
  | 0, w => w
  | n + 1, w => shaSched n (((shaSmall1 (w.getD 1 0) + w.getD 6 0 + shaSmall0 (w.getD 14 0) + w.getD 15 0) % shaMod) :: w)

/-- One round on the working variables a to h. -/
def shaRound (v : List Nat) (kw : Nat × Nat) : List Nat :=
  let a := v.getD 0 0
  let e := v.getD 4 0
  let t1 := v.getD 7 0 + shaBig1 e + shaCh e (v.getD 5 0) (v.getD 6 0) + kw.1 + kw.2
  let t2 := shaBig0 a + shaMaj a (v.getD 1 0) (v.getD 2 0)
  [(t1 + t2) % shaMod, a, v.getD 1 0, v.getD 2 0, (v.getD 3 0 + t1) % shaMod, e, v.getD 5 0, v.getD 6 0]

/-- A big-endian number. -/
def beNum (l : List Byte) : Nat := l.foldl (fun n b => n * 256 + b.toNat) 0

/-- The low `k` bytes of a number, highest first. -/
def beOut (n k : Nat) : List Byte := ((List.range k).map (fun i => BitVec.ofNat 8 (n / 256 ^ i))).reverse

/-- The hash value after one block of 128 bytes. -/
def shaBlock (h : List Nat) (blk : List Byte) : List Nat :=
  let w0 := (List.range 16).map (fun i => beNum ((blk.drop (8 * i)).take 8))
  let w := (shaSched 64 w0.reverse).reverse
  let v := (shaK.zip w).foldl shaRound h
  (h.zip v).map (fun e => (e.1 + e.2) % shaMod)

/-- The hash value after `n` blocks. -/
def shaBlocks : Nat → List Byte → List Nat → List Nat
  | 0, _, h => h
  | n + 1, m, h => shaBlocks n (m.drop 128) (shaBlock h (m.take 128))

/-- The SHA-384 digest of a message, 48 bytes. -/
def sha384 (m : List Byte) : List Byte :=
  let fill := (239 - m.length % 128) % 128
  let p := m ++ [0x80#8] ++ List.replicate fill 0#8 ++ beOut (8 * m.length) 16
  ((shaBlocks (p.length / 128) p shaInit).flatMap (fun x => beOut x 8)).take 48

/-! ### ECDSA on P-384 -/

/-- The prime, the order of the base point, the constant b and the base point of P-384. -/
def ecP : Nat := 2 ^ 384 - 2 ^ 128 - 2 ^ 96 + 2 ^ 32 - 1
def ecN : Nat := 0xFFFFFFFFFFFFFFFFFFFFFFFFFFFFFFFFFFFFFFFFFFFFFFFFC7634D81F4372DDF581A0DB248B0A77AECEC196ACCC52973
def ecB : Nat := 0xB3312FA7E23EE7E4988E056BE3F82D19181D9C6EFE8141120314088F5013875AC656398D8A2ED19D2A85C8EDD3EC2AEF
def ecG : Nat × Nat :=
  (0xAA87CA22BE8B05378EB1C71EF320AD746E1D3B628BA79B9859F741E082542A385502F25DBF55296C3A545E3872760AB7,
   0x3617DE4A96262C6F5D9E98BF9292DC29F8F41DBD289A147CE9DA3113B5F0B8C00A60B1CE1D7E819D7A431D7C90EA0E5F)

/-- The bits of a number below 2^384, highest first. -/
def ecBits (n : Nat) : List Bool := ((List.range 384).map (fun i => bitOf n i)).reverse

/-- A power modulo `m`. -/
def powMod (m b e : Nat) : Nat := (ecBits e).foldl (fun acc x => if x then acc * acc % m * b % m else acc * acc % m) 1

/-- The inverse modulo a prime. -/
def invMod (m a : Nat) : Nat := powMod m (a % m) (m - 2)

/-- The sum of two points; `none` is the point at infinity. -/
def ecAdd : Option (Nat × Nat) → Option (Nat × Nat) → Option (Nat × Nat)
  | none, q => q
  | p, none => p
  | some (x1, y1), some (x2, y2) =>
    if x1 = x2 ∧ (y1 + y2) % ecP = 0 then none
    else
      let l := if x1 = x2 then (3 * x1 * x1 + 3 * (ecP - 1)) * invMod ecP (2 * y1) % ecP
        else (y2 + ecP - y1) * invMod ecP (x2 + ecP - x1) % ecP
      let x := (l * l + 2 * ecP - x1 - x2) % ecP
      some (x, (l * (x1 + ecP - x) + ecP - y1) % ecP)

/-- A multiple of a point. -/
def ecMul (k : Nat) (p : Nat × Nat) : Option (Nat × Nat) :=
  (ecBits k).foldl (fun acc x => if x then ecAdd (ecAdd acc acc) (some p) else ecAdd acc acc) none

/-- Whether a point lies on the curve. -/
def ecOn (x y : Nat) : Bool :=
  decide (x < ecP) && decide (y < ecP) && decide (y * y % ecP = (x * x * x + (ecP - 3) * x + ecB) % ecP)

/-- Whether (r, sg) is a valid signature of a message under the public key (x, y). -/
def ecdsaOk (x y r sg : Nat) (msg : List Byte) : Bool :=
  let z := beNum (sha384 msg) % ecN
  let w := invMod ecN sg
  ecOn x y && decide (0 < r) && decide (r < ecN) && decide (0 < sg) && decide (sg < ecN) &&
    (match ecAdd (ecMul (z * w % ecN) ecG) (ecMul (r * w % ecN) (x, y)) with
     | some q => q.1 % ecN == r
     | none => false)

end Sys2Proof.Machine
end

