-- ==== Sys2Proof/Config.lean ====
section
/-!
DEFINITION. What an implementation fixes and the spec leaves open: the free values. Each is opaque, so nothing in Lean
can prove a value of it and a claim about it holds for every value.
-/

namespace Sys2Proof.Config

/-- The stream of fresh free values; `State.freeCtr` says which one is next (log entry 2). -/
opaque freeValue : Nat → BitVec 64

/-- R526. The CRC-32 over the fuse contents, as a function of the contents: the spec does not give their layout (log
entry 41). -/
opaque fuseCrc : List Nat → BitVec 32

/-- R49. The loop of H0 and H1, of second order with damping 0.707: the step that it asks for, and its next frequency state,
from the bandwidth in Hz, the frequency state, the ticks since the last update and the phase error (log entry 69). -/
opaque loopStep (bw freq dt : Nat) (err : Int) : Nat
opaque loopFreq (bw freq dt : Nat) (err : Int) : Nat

/-- R55, R407. What a first-order filter with a time constant of 100 ms takes in of a difference in `dt` ticks; the model
bounds it between 0 and the difference (log entry 20). -/
opaque filterPart (dt : Nat) (delta : Int) : Int

/-- R406. The rate estimate of the second-order loop of CTOFS, in 2^-48 tick per tick, from the last estimate and the phase error
in 2^-16 tick (log entry 78). -/
opaque ctRate (rate err : Int) : Int

/-- R320. The weight at a grid distance from the centre of the M class window: the spec takes it from a reference model outside
it (log entry 47). Operands: Fs, grid instants in half a window, the distance. -/
opaque phuWeight (fs half k : Nat) : Int

/-- R321. Frequency and ROCOF as the reference model of a class forms them (outside the spec, log entry 47).
Operands: M class, f0, Fs, and of L1, L2 and L3 the effective instants in ns and the samples. -/
opaque phuFreq (m : Bool) (f0 fs : Nat) (xs : List (List (Rat × Rat))) : Rat
opaque phuRocof (m : Bool) (f0 fs : Nat) (xs : List (List (Rat × Rat))) : Rat

end Sys2Proof.Config
end

