-- ==== Sys2Proof/Machine/RegMap.lean ====
section
/-!
DEFINITION. The register map: every register of spec/ at its BAR0 address (block offset of R28 plus the offset of the
block's register table), its fields with the types of R5, its reset value, the R41 counters, and the value ranges whose
out-of-range writes the spec stores as another value. `regRow` finds the row of an address, `regReset` the value a
register holds after a power-on reset.
-/

namespace Sys2Proof.Machine

/-- A named field of a register: bits `[lo + width - 1 : lo]` of the register at BAR0 address `addr`. -/
structure Fld where
  addr : Nat
  lo : Nat
  width : Nat
deriving DecidableEq, Repr

/-- The register field types of R5. -/
inductive FTy where
  | rw | ro | w1c | w1s | wo | rwl
deriving DecidableEq, Repr

/-- One field of a row: position, type, and the value ranges `(a, b, c)` in which a written value is stored as `c`. -/
structure FRow where
  lo : Nat
  width : Nat
  ty : FTy
  subs : List (Nat × Nat × Nat) := []
deriving DecidableEq, Repr

/-- One row of a register table: base BAR0 address, up to two array dimensions (count, stride), reset value, whether
the register is a counter in the layout of R41, and its fields. -/
structure RegRow where
  base : Nat
  n1 : Nat
  s1 : Nat
  n2 : Nat
  s2 : Nat
  reset : Nat
  counter : Bool
  fields : List FRow
deriving DecidableEq, Repr

/-- R29. GLB_ID (RO): part, family and silicon revision -/
def GLB_ID : Nat := 0x0
def GLB_ID_PART : Fld := ⟨GLB_ID, 16, 16⟩
def GLB_ID_FAMILY : Fld := ⟨GLB_ID, 8, 8⟩
def GLB_ID_MAJOR : Fld := ⟨GLB_ID, 4, 4⟩
def GLB_ID_MINOR : Fld := ⟨GLB_ID, 0, 4⟩

/-- R29. GLB_STATUS (RO): device state -/
def GLB_STATUS : Nat := 0x4
def GLB_STATUS_BUSY : Fld := ⟨GLB_STATUS, 31, 1⟩
def GLB_STATUS_READY : Fld := ⟨GLB_STATUS, 30, 1⟩
def GLB_STATUS_LCS : Fld := ⟨GLB_STATUS, 28, 2⟩
def GLB_STATUS_BOOTIMG : Fld := ⟨GLB_STATUS, 27, 1⟩
def GLB_STATUS_STAMP : Fld := ⟨GLB_STATUS, 26, 1⟩
def GLB_STATUS_CTRL_RUN : Fld := ⟨GLB_STATUS, 24, 1⟩
def GLB_STATUS_ROLE : Fld := ⟨GLB_STATUS, 22, 2⟩
def GLB_STATUS_LANES_OK : Fld := ⟨GLB_STATUS, 21, 1⟩
def GLB_STATUS_NTMLOCK : Fld := ⟨GLB_STATUS, 20, 1⟩
def GLB_STATUS_H0LOCK : Fld := ⟨GLB_STATUS, 19, 1⟩
def GLB_STATUS_TBLOCK : Fld := ⟨GLB_STATUS, 18, 1⟩
def GLB_STATUS_ENERG_OK : Fld := ⟨GLB_STATUS, 17, 1⟩
def GLB_STATUS_SAFE : Fld := ⟨GLB_STATUS, 16, 1⟩

/-- R29. GLB_CTRL (RW): run control -/
def GLB_CTRL : Nat := 0x8
def GLB_CTRL_NTM_OPT : Fld := ⟨GLB_CTRL, 1, 1⟩
def GLB_CTRL_RUN : Fld := ⟨GLB_CTRL, 0, 1⟩

/-- R29. GLB_RESET (WO): warm reset request -/
def GLB_RESET : Nat := 0xc
def GLB_RESET_KEY : Fld := ⟨GLB_RESET, 16, 16⟩
def GLB_RESET_WARM : Fld := ⟨GLB_RESET, 0, 1⟩

/-- R29. GLB_RSTCAUSE (W1C): cause of the last reset -/
def GLB_RSTCAUSE : Nat := 0x10
def GLB_RSTCAUSE_THERM : Fld := ⟨GLB_RSTCAUSE, 4, 1⟩
def GLB_RSTCAUSE_WDOG : Fld := ⟨GLB_RSTCAUSE, 3, 1⟩
def GLB_RSTCAUSE_WARM : Fld := ⟨GLB_RSTCAUSE, 2, 1⟩
def GLB_RSTCAUSE_PERST : Fld := ⟨GLB_RSTCAUSE, 1, 1⟩
def GLB_RSTCAUSE_POR : Fld := ⟨GLB_RSTCAUSE, 0, 1⟩

/-- R29. GLB_LONGOP (RW, RO, WO): long operation code, start and result -/
def GLB_LONGOP : Nat := 0x14
def GLB_LONGOP_START : Fld := ⟨GLB_LONGOP, 31, 1⟩
def GLB_LONGOP_RESULT : Fld := ⟨GLB_LONGOP, 8, 4⟩
def GLB_LONGOP_OP : Fld := ⟨GLB_LONGOP, 0, 4⟩

/-- R29. GLB_LONGARG (RW): long operation argument -/
def GLB_LONGARG : Nat := 0x18

/-- R29. GLB_REJECT (RO, W1C): host accesses refused during long operations -/
def GLB_REJECT : Nat := 0x1c
def GLB_REJECT_SAT : Fld := ⟨GLB_REJECT, 31, 1⟩
def GLB_REJECT_COUNT : Fld := ⟨GLB_REJECT, 0, 31⟩

/-- R29. GLB_CYCCFG (RWL): pipeline mode and highest checked frequency -/
def GLB_CYCCFG : Nat := 0x20
def GLB_CYCCFG_FMAX : Fld := ⟨GLB_CYCCFG, 16, 16⟩
def GLB_CYCCFG_PIPE : Fld := ⟨GLB_CYCCFG, 0, 1⟩

/-- R29. GLB_CYCSTAT (RO): length of the last completed control cycle -/
def GLB_CYCSTAT : Nat := 0x24

/-- R29. GLB_CYCCNT (RO): control cycle count -/
def GLB_CYCCNT : Nat := 0x28

/-- R29. GLB_TLMISS (RO, W1C): cycles with a missed DOWN departure -/
def GLB_TLMISS : Nat := 0x2c
def GLB_TLMISS_SAT : Fld := ⟨GLB_TLMISS, 31, 1⟩
def GLB_TLMISS_COUNT : Fld := ⟨GLB_TLMISS, 0, 31⟩

/-- R29. GLB_CLKSTAT (RO, W1C): clock lock and loss -/
def GLB_CLKSTAT : Nat := 0x30
def GLB_CLKSTAT_REF10MLOSS : Fld := ⟨GLB_CLKSTAT, 12, 1⟩
def GLB_CLKSTAT_PCIELOSS : Fld := ⟨GLB_CLKSTAT, 11, 1⟩
def GLB_CLKSTAT_LANELOSS : Fld := ⟨GLB_CLKSTAT, 10, 1⟩
def GLB_CLKSTAT_COREPLLLOSS : Fld := ⟨GLB_CLKSTAT, 9, 1⟩
def GLB_CLKSTAT_TBLOSS : Fld := ⟨GLB_CLKSTAT, 8, 1⟩
def GLB_CLKSTAT_REF10M : Fld := ⟨GLB_CLKSTAT, 4, 1⟩
def GLB_CLKSTAT_PCIEREF : Fld := ⟨GLB_CLKSTAT, 3, 1⟩
def GLB_CLKSTAT_LANEPLL : Fld := ⟨GLB_CLKSTAT, 2, 1⟩
def GLB_CLKSTAT_COREPLL : Fld := ⟨GLB_CLKSTAT, 1, 1⟩
def GLB_CLKSTAT_TBLOCK : Fld := ⟨GLB_CLKSTAT, 0, 1⟩

/-- R29. GLB_LOCK (W1S): lock for RWL fields -/
def GLB_LOCK : Nat := 0x34
def GLB_LOCK_CFG : Fld := ⟨GLB_LOCK, 0, 1⟩

/-- R29. GLB_SCRATCH (RW): scratch word for host software -/
def GLB_SCRATCH : Nat := 0x38

/-- R29. GLB_CFGERR (RO): result of the RUN configuration check -/
def GLB_CFGERR : Nat := 0x3c
def GLB_CFGERR_NOSCHED : Fld := ⟨GLB_CFGERR, 4, 1⟩
def GLB_CFGERR_CYC_UNEVEN : Fld := ⟨GLB_CFGERR, 3, 1⟩
def GLB_CFGERR_FMAX_RANGE : Fld := ⟨GLB_CFGERR, 2, 1⟩
def GLB_CFGERR_CYC_LONG : Fld := ⟨GLB_CFGERR, 1, 1⟩
def GLB_CFGERR_CYC_SHORT : Fld := ⟨GLB_CFGERR, 0, 1⟩

/-- R29. GLB_TICK_LO (RO): tick count, bits [31:0] -/
def GLB_TICK_LO : Nat := 0x40

/-- R29. GLB_TICK_HI (RO): tick count, bits [63:32] -/
def GLB_TICK_HI : Nat := 0x44

/-- R61. HOOP_CTRL (RW, W1S): modes, enables, source control -/
def HOOP_CTRL : Nat := 0x4000
def HOOP_CTRL_H1MODE : Fld := ⟨HOOP_CTRL, 5, 2⟩
def HOOP_CTRL_PRIRET : Fld := ⟨HOOP_CTRL, 4, 1⟩
def HOOP_CTRL_BKFORCE : Fld := ⟨HOOP_CTRL, 3, 1⟩
def HOOP_CTRL_BKEN : Fld := ⟨HOOP_CTRL, 2, 1⟩
def HOOP_CTRL_H0DC : Fld := ⟨HOOP_CTRL, 1, 1⟩
def HOOP_CTRL_H0EN : Fld := ⟨HOOP_CTRL, 0, 1⟩

/-- R61. HOOP_STATUS (RO): states and live flags -/
def HOOP_STATUS : Nat := 0x4004
def HOOP_STATUS_TNTM : Fld := ⟨HOOP_STATUS, 11, 1⟩
def HOOP_STATUS_H1COAST : Fld := ⟨HOOP_STATUS, 10, 1⟩
def HOOP_STATUS_H1STATE : Fld := ⟨HOOP_STATUS, 8, 2⟩
def HOOP_STATUS_SLEW : Fld := ⟨HOOP_STATUS, 7, 1⟩
def HOOP_STATUS_RANGE : Fld := ⟨HOOP_STATUS, 6, 1⟩
def HOOP_STATUS_BKOK : Fld := ⟨HOOP_STATUS, 5, 1⟩
def HOOP_STATUS_PRIOK : Fld := ⟨HOOP_STATUS, 4, 1⟩
def HOOP_STATUS_H0SRC : Fld := ⟨HOOP_STATUS, 3, 1⟩
def HOOP_STATUS_H0STATE : Fld := ⟨HOOP_STATUS, 0, 3⟩

/-- R61. HOOP_EVT (W1C): sticky events; fault sources -/
def HOOP_EVT : Nat := 0x4008
def HOOP_EVT_CFGREF : Fld := ⟨HOOP_EVT, 8, 1⟩
def HOOP_EVT_H1ANGREF : Fld := ⟨HOOP_EVT, 7, 1⟩
def HOOP_EVT_H1LOCKLOSS : Fld := ⟨HOOP_EVT, 6, 1⟩
def HOOP_EVT_BKFAIL : Fld := ⟨HOOP_EVT, 5, 1⟩
def HOOP_EVT_PRIFAIL : Fld := ⟨HOOP_EVT, 4, 1⟩
def HOOP_EVT_H0SLEW : Fld := ⟨HOOP_EVT, 3, 1⟩
def HOOP_EVT_H0RANGE : Fld := ⟨HOOP_EVT, 2, 1⟩
def HOOP_EVT_H0SWBK : Fld := ⟨HOOP_EVT, 1, 1⟩
def HOOP_EVT_H0LOCKLOSS : Fld := ⟨HOOP_EVT, 0, 1⟩

/-- R61. HOOP_H0NOM (RW): [15:0] NOM: nominal or virtual frequency, 0.01 Hz units -/
def HOOP_H0NOM : Nat := 0x400c
def HOOP_H0NOM_NOM : Fld := ⟨HOOP_H0NOM, 0, 16⟩

/-- R61. HOOP_H0LOOP (RW): loop parameters -/
def HOOP_H0LOOP : Nat := 0x4010
def HOOP_H0LOOP_MINMAG : Fld := ⟨HOOP_H0LOOP, 24, 8⟩
def HOOP_H0LOOP_LOCKTHR : Fld := ⟨HOOP_H0LOOP, 16, 8⟩
def HOOP_H0LOOP_BW : Fld := ⟨HOOP_H0LOOP, 0, 6⟩

/-- R61. HOOP_H0SRC (RW): primary source entries -/
def HOOP_H0SRC : Nat := 0x4014
def HOOP_H0SRC_SINGLE : Fld := ⟨HOOP_H0SRC, 25, 1⟩
def HOOP_H0SRC_CONV : Fld := ⟨HOOP_H0SRC, 24, 1⟩
def HOOP_H0SRC_ENT_L3 : Fld := ⟨HOOP_H0SRC, 16, 5⟩
def HOOP_H0SRC_ENT_L2 : Fld := ⟨HOOP_H0SRC, 8, 5⟩
def HOOP_H0SRC_ENT_L1 : Fld := ⟨HOOP_H0SRC, 0, 5⟩

/-- R61. HOOP_H0OFS (RW): [31:0] signed angle reference offset -/
def HOOP_H0OFS : Nat := 0x4018

/-- R61. HOOP_H0BKTRIM (RW): [31:0] signed backup trim angle -/
def HOOP_H0BKTRIM : Nat := 0x401c

/-- R61. HOOP_H0ANGLE (RO): [31:0] current H0 angle word -/
def HOOP_H0ANGLE : Nat := 0x4020

/-- R61. HOOP_H0STEP_LO (RO): step bits [31:0] -/
def HOOP_H0STEP_LO : Nat := 0x4024

/-- R61. HOOP_H0STEP_HI (RO): step bits [63:32] -/
def HOOP_H0STEP_HI : Nat := 0x4028

/-- R61. HOOP_H0FREQ (RO): [31:0] frequency, unsigned Q16.16 Hz -/
def HOOP_H0FREQ : Nat := 0x402c

/-- R61. HOOP_H0ROCOF (RO): [31:0] rate of change of the step, signed Q16.16 Hz/s -/
def HOOP_H0ROCOF : Nat := 0x4030

/-- R61. HOOP_H0PERR (RO): [31:0] last phase error, signed angle -/
def HOOP_H0PERR : Nat := 0x4034

/-- R61. HOOP_H0BKDIFF (RO): [31:0] filtered backup − primary angle, signed -/
def HOOP_H0BKDIFF : Nat := 0x4038

/-- R61. HOOP_H0TURNS (RO): [31:0] H0 turn count; wraps -/
def HOOP_H0TURNS : Nat := 0x403c

/-- R61. HOOP_H1CFG (RW): H1 target frequency and ramp -/
def HOOP_H1CFG : Nat := 0x4040
def HOOP_H1CFG_RAMP : Fld := ⟨HOOP_H1CFG, 16, 16⟩
def HOOP_H1CFG_FSET : Fld := ⟨HOOP_H1CFG, 0, 16⟩

/-- R61. HOOP_H1SRC (RW): H1 track source entries -/
def HOOP_H1SRC : Nat := 0x4044
def HOOP_H1SRC_SINGLE : Fld := ⟨HOOP_H1SRC, 25, 1⟩
def HOOP_H1SRC_CONV : Fld := ⟨HOOP_H1SRC, 24, 1⟩
def HOOP_H1SRC_ENT_L3 : Fld := ⟨HOOP_H1SRC, 16, 5⟩
def HOOP_H1SRC_ENT_L2 : Fld := ⟨HOOP_H1SRC, 8, 5⟩
def HOOP_H1SRC_ENT_L1 : Fld := ⟨HOOP_H1SRC, 0, 5⟩

/-- R61. HOOP_H1ANGLE (RW): [31:0] H1 angle word; write per R59 -/
def HOOP_H1ANGLE : Nat := 0x4048

/-- R61. HOOP_H1FREQ (RO): [31:0] H1 frequency, unsigned Q16.16 Hz -/
def HOOP_H1FREQ : Nat := 0x404c

/-- R61. HOOP_H1TURNS (RO): [31:0] H1 turn count; wraps -/
def HOOP_H1TURNS : Nat := 0x4050

/-- R61. HOOP_TANGLE (RO): [31:0] T angle word (R60) -/
def HOOP_TANGLE : Nat := 0x4054

/-- R84. PRK_CTRL (RW): enable, page mode, initial page -/
def PRK_CTRL : Nat := 0x5000
def PRK_CTRL_INIT : Fld := ⟨PRK_CTRL, 4, 2⟩
def PRK_CTRL_MODE : Fld := ⟨PRK_CTRL, 1, 2⟩
def PRK_CTRL_EN : Fld := ⟨PRK_CTRL, 0, 1⟩

/-- R84. PRK_STATUS (RO): active page, swap and queue state -/
def PRK_STATUS : Nat := 0x5004
def PRK_STATUS_QLEVEL : Fld := ⟨PRK_STATUS, 16, 11⟩
def PRK_STATUS_PASSMODE : Fld := ⟨PRK_STATUS, 6, 1⟩
def PRK_STATUS_RUNNING : Fld := ⟨PRK_STATUS, 5, 1⟩
def PRK_STATUS_SWAP_TGT : Fld := ⟨PRK_STATUS, 3, 2⟩
def PRK_STATUS_SWAP_PEND : Fld := ⟨PRK_STATUS, 2, 1⟩
def PRK_STATUS_ACTIVE : Fld := ⟨PRK_STATUS, 0, 2⟩

/-- R84. PRK_HORIZON (RW): [9:0] HORIZON: requested horizon in µs, 10–1,000 -/
def PRK_HORIZON : Nat := 0x5008
def PRK_HORIZON_HORIZON : Fld := ⟨PRK_HORIZON, 0, 10⟩

/-- R84. PRK_SWAP (WO): swap request -/
def PRK_SWAP : Nat := 0x500c
def PRK_SWAP_PAGE : Fld := ⟨PRK_SWAP, 1, 2⟩
def PRK_SWAP_GO : Fld := ⟨PRK_SWAP, 0, 1⟩

/-- R84. PRK_EDCMD (WO): edit command -/
def PRK_EDCMD : Nat := 0x5010
def PRK_EDCMD_PAGE : Fld := ⟨PRK_EDCMD, 4, 2⟩
def PRK_EDCMD_CMD : Fld := ⟨PRK_EDCMD, 0, 4⟩

/-- R84. PRK_EDSTAT (RO, W1C): edit and swap status -/
def PRK_EDSTAT : Nat := 0x5014
def PRK_EDSTAT_BUSY : Fld := ⟨PRK_EDSTAT, 31, 1⟩
def PRK_EDSTAT_LOST : Fld := ⟨PRK_EDSTAT, 30, 1⟩
def PRK_EDSTAT_STATUS : Fld := ⟨PRK_EDSTAT, 0, 8⟩

/-- R84. PRK_EDIDX (RW): [13:0] IDX: entry index within the page -/
def PRK_EDIDX : Nat := 0x5018
def PRK_EDIDX_IDX : Fld := ⟨PRK_EDIDX, 0, 14⟩

/-- R84. PRK_EDDATA (RW): entry bits [31:0] to [127:96] -/
def PRK_EDDATA (i : Nat) : Nat := 0x501c + i * 0x4

/-- R84. PRK_PG (RO): state of page n -/
def PRK_PG (i : Nat) : Nat := 0x5030 + i * 0x4
def PRK_PG_READY (i : Nat) : Fld := ⟨PRK_PG i, 31, 1⟩
def PRK_PG_COUNT (i : Nat) : Fld := ⟨PRK_PG i, 0, 15⟩

/-- R84. PRK_LATE (RO, W1C): late dispatches; layout of R41 -/
def PRK_LATE : Nat := 0x5040
def PRK_LATE_SAT : Fld := ⟨PRK_LATE, 31, 1⟩
def PRK_LATE_COUNT : Fld := ⟨PRK_LATE, 0, 31⟩

/-- R84. PRK_QFULL (RO, W1C): passes stopped by a full queue; layout of R41 -/
def PRK_QFULL : Nat := 0x5044
def PRK_QFULL_SAT : Fld := ⟨PRK_QFULL, 31, 1⟩
def PRK_QFULL_COUNT : Fld := ⟨PRK_QFULL, 0, 31⟩

/-- R84. PRK_DLYMAX (RO, WO): longest dispatch hold -/
def PRK_DLYMAX : Nat := 0x5048
def PRK_DLYMAX_CLR : Fld := ⟨PRK_DLYMAX, 31, 1⟩
def PRK_DLYMAX_MAX : Fld := ⟨PRK_DLYMAX, 0, 16⟩

/-- R84. PRK_SWAPCNT (RO): [31:0] swaps performed; wraps -/
def PRK_SWAPCNT : Nat := 0x504c

/-- R84. PRK_STEPEVT (RO, W1C): network time steps handled; layout of R41 -/
def PRK_STEPEVT : Nat := 0x5050
def PRK_STEPEVT_SAT : Fld := ⟨PRK_STEPEVT, 31, 1⟩
def PRK_STEPEVT_COUNT : Fld := ⟨PRK_STEPEVT, 0, 31⟩

/-- R111. NTM_CTRL (RW, WO): source, ports, holdover reference, state command -/
def NTM_CTRL : Nat := 0x6000
def NTM_CTRL_CMD : Fld := ⟨NTM_CTRL, 9, 3⟩
def NTM_CTRL_HOLDREF10 : Fld := ⟨NTM_CTRL, 5, 1⟩
def NTM_CTRL_SRC : Fld := ⟨NTM_CTRL, 4, 1⟩
def NTM_CTRL_PORT1 : Fld := ⟨NTM_CTRL, 3, 1⟩
def NTM_CTRL_PORT0 : Fld := ⟨NTM_CTRL, 2, 1⟩

/-- R111. NTM_STATUS (RO): state and presence flags -/
def NTM_STATUS : Nat := 0x6004
def NTM_STATUS_HOLDEXC : Fld := ⟨NTM_STATUS, 8, 1⟩
def NTM_STATUS_REF10 : Fld := ⟨NTM_STATUS, 7, 1⟩
def NTM_STATUS_MPRES1 : Fld := ⟨NTM_STATUS, 6, 1⟩
def NTM_STATUS_MPRES0 : Fld := ⟨NTM_STATUS, 5, 1⟩
def NTM_STATUS_PPSIN : Fld := ⟨NTM_STATUS, 4, 1⟩
def NTM_STATUS_SLEWING : Fld := ⟨NTM_STATUS, 3, 1⟩
def NTM_STATUS_STATE : Fld := ⟨NTM_STATUS, 0, 3⟩

/-- R111. NTM_EVT (W1C): sticky events; fault sources -/
def NTM_EVT : Nat := 0x6008
def NTM_EVT_ALARM : Fld := ⟨NTM_EVT, 7, 1⟩
def NTM_EVT_CFGREF : Fld := ⟨NTM_EVT, 6, 1⟩
def NTM_EVT_HOLDWR : Fld := ⟨NTM_EVT, 5, 1⟩
def NTM_EVT_HOLDEXC : Fld := ⟨NTM_EVT, 4, 1⟩
def NTM_EVT_LOCKREF : Fld := ⟨NTM_EVT, 3, 1⟩
def NTM_EVT_MASTERCHG : Fld := ⟨NTM_EVT, 2, 1⟩
def NTM_EVT_MASTERLOSS : Fld := ⟨NTM_EVT, 1, 1⟩
def NTM_EVT_STEP : Fld := ⟨NTM_EVT, 0, 1⟩

/-- R111. NTM_TIME_NS (RO): [29:0] nanoseconds; read captures the time (R94) -/
def NTM_TIME_NS : Nat := 0x600c

/-- R111. NTM_TIME_SECL (RO): seconds bits [31:0] -/
def NTM_TIME_SECL : Nat := 0x6010

/-- R111. NTM_TIME_SECH (RO): [15:0] seconds bits [47:32] -/
def NTM_TIME_SECH : Nat := 0x6014

/-- R111. NTM_TIME_FRAC (RO): [31:0] fractional ns -/
def NTM_TIME_FRAC : Nat := 0x6018

/-- R111. NTM_INC_LO (RW): increment fraction (R93) -/
def NTM_INC_LO : Nat := 0x601c

/-- R111. NTM_INC_HI (RW): [1:0] increment integer ns -/
def NTM_INC_HI : Nat := 0x6020

/-- R111. NTM_ADJ (WO): [31:0] signed correction in ns (R95) -/
def NTM_ADJ : Nat := 0x6024

/-- R111. NTM_ADJCTL (RW, WO): correction mode, slew rate, set -/
def NTM_ADJCTL : Nat := 0x6028
def NTM_ADJCTL_SET : Fld := ⟨NTM_ADJCTL, 9, 1⟩
def NTM_ADJCTL_MODE : Fld := ⟨NTM_ADJCTL, 8, 1⟩
def NTM_ADJCTL_SLEWPPM : Fld := ⟨NTM_ADJCTL, 0, 8⟩

/-- R111. NTM_ADJREM (RO): [31:0] signed slew remainder in ns -/
def NTM_ADJREM : Nat := 0x602c

/-- R111. NTM_SETNS (RW): [29:0] nanoseconds for SET -/
def NTM_SETNS : Nat := 0x6030

/-- R111. NTM_SETSEC_LO (RW): seconds bits [31:0] for SET -/
def NTM_SETSEC_LO : Nat := 0x6034

/-- R111. NTM_SETSEC_HI (RW): [15:0] seconds bits [47:32] for SET -/
def NTM_SETSEC_HI : Nat := 0x6038

/-- R111. NTM_MASTERID_LO (RW): clockIdentity octets 4–7; octet 7 in [7:0] -/
def NTM_MASTERID_LO : Nat := 0x603c

/-- R111. NTM_MASTERID_HI (RW): clockIdentity octets 0–3; octet 0 in [31:24] -/
def NTM_MASTERID_HI : Nat := 0x6040

/-- R111. NTM_MASTERPORT (RW): [16] ANY: match clockIdentity only; [15:0] PORT: portNumber -/
def NTM_MASTERPORT : Nat := 0x6044
def NTM_MASTERPORT_ANY : Fld := ⟨NTM_MASTERPORT, 16, 1⟩
def NTM_MASTERPORT_PORT : Fld := ⟨NTM_MASTERPORT, 0, 16⟩

/-- R111. NTM_MTMO (RW): [15:0] master timeout in ms, 10–65,535 -/
def NTM_MTMO : Nat := 0x6048

/-- R111. NTM_HOLD (RO): [31:0] holdover estimate in ns, saturating (R102) -/
def NTM_HOLD : Nat := 0x604c

/-- R111. NTM_HOLDE0 (RW): [31:0] error at holdover entry, ns -/
def NTM_HOLDE0 : Nat := 0x6050

/-- R111. NTM_HOLDDRIFT (RW): [31:16] AGE, 0.001 ppb/s; [15:0] FRQ, 0.01 ppb -/
def NTM_HOLDDRIFT : Nat := 0x6054
def NTM_HOLDDRIFT_AGE : Fld := ⟨NTM_HOLDDRIFT, 16, 16⟩
def NTM_HOLDDRIFT_FRQ : Fld := ⟨NTM_HOLDDRIFT, 0, 16⟩

/-- R111. NTM_HOLDLIM (RW): [31:0] limit for NTMLOCK in holdover, ns -/
def NTM_HOLDLIM : Nat := 0x6058

/-- R111. NTM_PPSCFG (RW): 1PPS pulse width, input edge, output mode -/
def NTM_PPSCFG : Nat := 0x605c
def NTM_PPSCFG_WIDTH : Fld := ⟨NTM_PPSCFG, 16, 16⟩
def NTM_PPSCFG_INEDGE : Fld := ⟨NTM_PPSCFG, 8, 1⟩
def NTM_PPSCFG_OUT : Fld := ⟨NTM_PPSCFG, 0, 2⟩

/-- R111. NTM_PPSOFS (RW): [15:0] signed 1PPS_OUT offset, 250 ps units -/
def NTM_PPSOFS : Nat := 0x6060

/-- R111. NTM_PPSIN_NS (RO): [31:30] quarter-ns; [29:0] ns of last 1PPS_IN edge -/
def NTM_PPSIN_NS : Nat := 0x6064

/-- R111. NTM_PPSIN_SECL (RO): seconds bits [31:0] of last 1PPS_IN edge -/
def NTM_PPSIN_SECL : Nat := 0x6068

/-- R111. NTM_REF10ERR (RO): [31:0] signed error of NTM against 10 MHz, 0.01 ppb; 0x8000_0000 when absent -/
def NTM_REF10ERR : Nat := 0x606c

/-- R111. NTM_ALARM_NS (RW): [29:0] alarm nanoseconds -/
def NTM_ALARM_NS : Nat := 0x6070

/-- R111. NTM_ALARM_SECL (RW): alarm seconds bits [31:0] -/
def NTM_ALARM_SECL : Nat := 0x6074

/-- R111. NTM_ALARM_SECH (RW): [31] ARM; [15:0] SEC: alarm seconds bits [47:32] -/
def NTM_ALARM_SECH : Nat := 0x6078
def NTM_ALARM_SECH_ARM : Fld := ⟨NTM_ALARM_SECH, 31, 1⟩
def NTM_ALARM_SECH_SEC : Fld := ⟨NTM_ALARM_SECH, 0, 16⟩

/-- R111. NTM_STEPCNT (RO): [31:0] steps and sets applied; wraps -/
def NTM_STEPCNT : Nat := 0x607c

/-- R117. ETH_CTRL (RW): enable, mode, auto-negotiation, loopback -/
def ETH_CTRL (i : Nat) : Nat := 0x7000 + i * 0x800
def ETH_CTRL_LOOP (i : Nat) : Fld := ⟨ETH_CTRL i, 5, 1⟩
def ETH_CTRL_MODE (i : Nat) : Fld := ⟨ETH_CTRL i, 2, 2⟩
def ETH_CTRL_ANEN (i : Nat) : Fld := ⟨ETH_CTRL i, 1, 1⟩
def ETH_CTRL_EN (i : Nat) : Fld := ⟨ETH_CTRL i, 0, 1⟩

/-- R117. ETH_STATUS (RO): link state -/
def ETH_STATUS (i : Nat) : Nat := 0x7004 + i * 0x800
def ETH_STATUS_ANDONE (i : Nat) : Fld := ⟨ETH_STATUS i, 3, 1⟩
def ETH_STATUS_REMFLT (i : Nat) : Fld := ⟨ETH_STATUS i, 2, 1⟩
def ETH_STATUS_SIGDET (i : Nat) : Fld := ⟨ETH_STATUS i, 1, 1⟩
def ETH_STATUS_LINK (i : Nat) : Fld := ⟨ETH_STATUS i, 0, 1⟩

/-- R117. ETH_MAC_LO (RW): MAC octets 2–5; octet 5 in [7:0] -/
def ETH_MAC_LO (i : Nat) : Nat := 0x7008 + i * 0x800

/-- R117. ETH_MAC_HI (RW): [15:0] MAC octets 0–1; octet 0 in [15:8] -/
def ETH_MAC_HI (i : Nat) : Nat := 0x700c + i * 0x800

/-- R117. ETH_PTPCFG (RW): PTP recognition -/
def ETH_PTPCFG (i : Nat) : Nat := 0x7010 + i * 0x800
def ETH_PTPCFG_DOMAIN (i : Nat) : Fld := ⟨ETH_PTPCFG i, 24, 8⟩
def ETH_PTPCFG_UDP4 (i : Nat) : Fld := ⟨ETH_PTPCFG i, 2, 1⟩
def ETH_PTPCFG_VLAN (i : Nat) : Fld := ⟨ETH_PTPCFG i, 1, 1⟩
def ETH_PTPCFG_PTPEN (i : Nat) : Fld := ⟨ETH_PTPCFG i, 0, 1⟩

/-- R117. ETH_TXLAT (RW): [15:0] signed transmit latency, 1/16 ns -/
def ETH_TXLAT (i : Nat) : Nat := 0x7014 + i * 0x800

/-- R117. ETH_RXLAT (RW): [15:0] signed receive latency, 1/16 ns -/
def ETH_RXLAT (i : Nat) : Nat := 0x7018 + i * 0x800

/-- R117. ETH_PRPCFG (RW): PRP control; used in ETH0 only, reads 0 in ETH1 -/
def ETH_PRPCFG (i : Nat) : Nat := 0x701c + i * 0x800
def ETH_PRPCFG_FORGET (i : Nat) : Fld := ⟨ETH_PRPCFG i, 16, 16⟩
def ETH_PRPCFG_WRONGLAN (i : Nat) : Fld := ⟨ETH_PRPCFG i, 1, 1⟩
def ETH_PRPCFG_PRPEN (i : Nat) : Fld := ⟨ETH_PRPCFG i, 0, 1⟩

/-- R117. ETH_RXFRM (RO, W1C): frames received -/
def ETH_RXFRM (i : Nat) : Nat := 0x7020 + i * 0x800
def ETH_RXFRM_SAT (i : Nat) : Fld := ⟨ETH_RXFRM i, 31, 1⟩
def ETH_RXFRM_COUNT (i : Nat) : Fld := ⟨ETH_RXFRM i, 0, 31⟩

/-- R117. ETH_TXFRM (RO, W1C): frames transmitted -/
def ETH_TXFRM (i : Nat) : Nat := 0x7024 + i * 0x800
def ETH_TXFRM_SAT (i : Nat) : Fld := ⟨ETH_TXFRM i, 31, 1⟩
def ETH_TXFRM_COUNT (i : Nat) : Fld := ⟨ETH_TXFRM i, 0, 31⟩

/-- R117. ETH_CRCERR (RO, W1C): frames received with a bad frame check sequence -/
def ETH_CRCERR (i : Nat) : Nat := 0x7028 + i * 0x800
def ETH_CRCERR_SAT (i : Nat) : Fld := ⟨ETH_CRCERR i, 31, 1⟩
def ETH_CRCERR_COUNT (i : Nat) : Fld := ⟨ETH_CRCERR i, 0, 31⟩

/-- R117. ETH_RXDUP (RO, W1C): PRP duplicates dropped -/
def ETH_RXDUP (i : Nat) : Nat := 0x702c + i * 0x800
def ETH_RXDUP_SAT (i : Nat) : Fld := ⟨ETH_RXDUP i, 31, 1⟩
def ETH_RXDUP_COUNT (i : Nat) : Fld := ⟨ETH_RXDUP i, 0, 31⟩

/-- R117. ETH_WRONGLAN (RO, W1C): trailers with a foreign LAN identifier -/
def ETH_WRONGLAN (i : Nat) : Nat := 0x7030 + i * 0x800
def ETH_WRONGLAN_SAT (i : Nat) : Fld := ⟨ETH_WRONGLAN i, 31, 1⟩
def ETH_WRONGLAN_COUNT (i : Nat) : Fld := ⟨ETH_WRONGLAN i, 0, 31⟩

/-- R117. ETH_PRPEVICT (RO, W1C): duplicate-table replacements; ETH0 only -/
def ETH_PRPEVICT (i : Nat) : Nat := 0x7034 + i * 0x800
def ETH_PRPEVICT_SAT (i : Nat) : Fld := ⟨ETH_PRPEVICT i, 31, 1⟩
def ETH_PRPEVICT_COUNT (i : Nat) : Fld := ⟨ETH_PRPEVICT i, 0, 31⟩

/-- R117. ETH_STAMPLOST (RO, W1C): event messages sent without a stamp (R105) -/
def ETH_STAMPLOST (i : Nat) : Nat := 0x7038 + i * 0x800
def ETH_STAMPLOST_SAT (i : Nat) : Fld := ⟨ETH_STAMPLOST i, 31, 1⟩
def ETH_STAMPLOST_COUNT (i : Nat) : Fld := ⟨ETH_STAMPLOST i, 0, 31⟩

/-- R117. ETH_MSYNC (RO, W1C): Syncs matched to the master (R100) -/
def ETH_MSYNC (i : Nat) : Nat := 0x703c + i * 0x800
def ETH_MSYNC_SAT (i : Nat) : Fld := ⟨ETH_MSYNC i, 31, 1⟩
def ETH_MSYNC_COUNT (i : Nat) : Fld := ⟨ETH_MSYNC i, 0, 31⟩

/-- R149. BOB_CTRL (RW): [0] EN; [31:1] reserved -/
def BOB_CTRL (i : Nat) : Nat := 0x8000 + i * 0x200
def BOB_CTRL_EN (i : Nat) : Fld := ⟨BOB_CTRL i, 0, 1⟩

/-- R149. BOB_STATUS (RO): engine state -/
def BOB_STATUS (i : Nat) : Nat := 0x8004 + i * 0x200
def BOB_STATUS_THSTEP (i : Nat) : Fld := ⟨BOB_STATUS i, 8, 4⟩
def BOB_STATUS_BUSY (i : Nat) : Fld := ⟨BOB_STATUS i, 7, 1⟩
def BOB_STATUS_CURSLOT (i : Nat) : Fld := ⟨BOB_STATUS i, 4, 3⟩
def BOB_STATUS_STOPPING (i : Nat) : Fld := ⟨BOB_STATUS i, 3, 1⟩
def BOB_STATUS_HELD (i : Nat) : Fld := ⟨BOB_STATUS i, 2, 1⟩
def BOB_STATUS_LOADED (i : Nat) : Fld := ⟨BOB_STATUS i, 1, 1⟩
def BOB_STATUS_RUNNING (i : Nat) : Fld := ⟨BOB_STATUS i, 0, 1⟩

/-- R149. BOB_WAKE (WO): wake request (R134) -/
def BOB_WAKE (i : Nat) : Nat := 0x8008 + i * 0x200
def BOB_WAKE_WORD (i : Nat) : Fld := ⟨BOB_WAKE i, 8, 24⟩
def BOB_WAKE_SLOTS (i : Nat) : Fld := ⟨BOB_WAKE i, 0, 8⟩

/-- R149. BOB_WDKICK (WO): any write services the Bobbin watchdog -/
def BOB_WDKICK (i : Nat) : Nat := 0x800c + i * 0x200

/-- R149. BOB_MBWAKE (RW): mailbox ring wake routing -/
def BOB_MBWAKE (i : Nat) : Nat := 0x8010 + i * 0x200
def BOB_MBWAKE_SLOT (i : Nat) : Fld := ⟨BOB_MBWAKE i, 4, 3⟩
def BOB_MBWAKE_RINGS (i : Nat) : Fld := ⟨BOB_MBWAKE i, 0, 4⟩

/-- R149. BOB_FINFO (RO): last abort: cause and slot -/
def BOB_FINFO (i : Nat) : Nat := 0x8014 + i * 0x200
def BOB_FINFO_CAUSE (i : Nat) : Fld := ⟨BOB_FINFO i, 28, 4⟩
def BOB_FINFO_SLOT (i : Nat) : Fld := ⟨BOB_FINFO i, 24, 3⟩
def BOB_FINFO_USED (i : Nat) : Fld := ⟨BOB_FINFO i, 0, 24⟩

/-- R149. BOB_FPC (RO): [31:0] PC of the last aborted instruction -/
def BOB_FPC (i : Nat) : Nat := 0x8018 + i * 0x200

/-- R149. BOB_FADDR (RO): [31:0] address of the last faulting access; 0 otherwise -/
def BOB_FADDR (i : Nat) : Nat := 0x801c + i * 0x200

/-- R149. BOB_FAULT (W1C): sticky abort bits per slot -/
def BOB_FAULT (i : Nat) : Nat := 0x8020 + i * 0x200
def BOB_FAULT_OVR (i : Nat) : Fld := ⟨BOB_FAULT i, 8, 8⟩
def BOB_FAULT_FLT (i : Nat) : Fld := ⟨BOB_FAULT i, 0, 8⟩

/-- R149. BOB_WINMISS (RO, W1C): window misses (R141) -/
def BOB_WINMISS (i : Nat) : Nat := 0x8024 + i * 0x200
def BOB_WINMISS_SAT (i : Nat) : Fld := ⟨BOB_WINMISS i, 31, 1⟩
def BOB_WINMISS_COUNT (i : Nat) : Fld := ⟨BOB_WINMISS i, 0, 31⟩

/-- R149. BOB_CYC_LO (RO): engine cycles since EN set, bits [31:0] -/
def BOB_CYC_LO (i : Nat) : Nat := 0x8028 + i * 0x200

/-- R149. BOB_CYC_HI (RO): bits [63:32] -/
def BOB_CYC_HI (i : Nat) : Nat := 0x802c + i * 0x200

/-- R149. BOB_BUSY_LO (RO): cycles in which a slot held the engine, bits [31:0] -/
def BOB_BUSY_LO (i : Nat) : Nat := 0x8030 + i * 0x200

/-- R149. BOB_BUSY_HI (RO): bits [63:32] -/
def BOB_BUSY_HI (i : Nat) : Nat := 0x8034 + i * 0x200

/-- R149. BOB_SCFG (RW): slot configuration -/
def BOB_SCFG (i : Nat) (j : Nat) : Nat := 0x8040 + i * 0x200 + j * 0x10
def BOB_SCFG_EN (i : Nat) (j : Nat) : Fld := ⟨BOB_SCFG i j, 31, 1⟩
def BOB_SCFG_WINDOW (i : Nat) (j : Nat) : Fld := ⟨BOB_SCFG i j, 30, 1⟩
def BOB_SCFG_SKIPNEXT (i : Nat) (j : Nat) : Fld := ⟨BOB_SCFG i j, 29, 1⟩
def BOB_SCFG_DEFLVL (i : Nat) (j : Nat) : Fld := ⟨BOB_SCFG i j, 24, 4⟩
def BOB_SCFG_DEFMAX (i : Nat) (j : Nat) : Fld := ⟨BOB_SCFG i j, 16, 8⟩

/-- R149. BOB_SBUD (RW): [23:0] BUDGET in engine cycles; 0 = none -/
def BOB_SBUD (i : Nat) (j : Nat) : Nat := 0x8044 + i * 0x200 + j * 0x10
def BOB_SBUD_BUDGET (i : Nat) (j : Nat) : Fld := ⟨BOB_SBUD i j, 0, 24⟩

/-- R149. BOB_SENTRY (RW): [31:1] entry address; [0] reserved -/
def BOB_SENTRY (i : Nat) (j : Nat) : Nat := 0x8048 + i * 0x200 + j * 0x10

/-- R149. BOB_SSP (RW): [31:0] initial stack pointer -/
def BOB_SSP (i : Nat) (j : Nat) : Nat := 0x804c + i * 0x200 + j * 0x10

/-- R149. BOB_SSTAT (RO): slot state -/
def BOB_SSTAT (i : Nat) (j : Nat) : Nat := 0x80c0 + i * 0x200 + j * 0x20
def BOB_SSTAT_DEFRUN (i : Nat) (j : Nat) : Fld := ⟨BOB_SSTAT i j, 8, 8⟩
def BOB_SSTAT_RESTART (i : Nat) (j : Nat) : Fld := ⟨BOB_SSTAT i j, 5, 1⟩
def BOB_SSTAT_SKIP (i : Nat) (j : Nat) : Fld := ⟨BOB_SSTAT i j, 4, 1⟩
def BOB_SSTAT_STATE (i : Nat) (j : Nat) : Fld := ⟨BOB_SSTAT i j, 0, 3⟩

/-- R149. BOB_SLAST (RO): [23:0] budget cycles of the last completed run -/
def BOB_SLAST (i : Nat) (j : Nat) : Nat := 0x80c4 + i * 0x200 + j * 0x20

/-- R149. BOB_SMAX (RO, WO): [31] CLR (WO); [23:0] MAX: longest completed run, saturating -/
def BOB_SMAX (i : Nat) (j : Nat) : Nat := 0x80c8 + i * 0x200 + j * 0x20
def BOB_SMAX_CLR (i : Nat) (j : Nat) : Fld := ⟨BOB_SMAX i j, 31, 1⟩
def BOB_SMAX_MAX (i : Nat) (j : Nat) : Fld := ⟨BOB_SMAX i j, 0, 24⟩

/-- R149. BOB_SOVR (RO, W1C): overruns -/
def BOB_SOVR (i : Nat) (j : Nat) : Nat := 0x80cc + i * 0x200 + j * 0x20
def BOB_SOVR_SAT (i : Nat) (j : Nat) : Fld := ⟨BOB_SOVR i j, 31, 1⟩
def BOB_SOVR_COUNT (i : Nat) (j : Nat) : Fld := ⟨BOB_SOVR i j, 0, 31⟩

/-- R149. BOB_SDROP (RO, W1C): dropped and skipped wakes -/
def BOB_SDROP (i : Nat) (j : Nat) : Nat := 0x80d0 + i * 0x200 + j * 0x20
def BOB_SDROP_SAT (i : Nat) (j : Nat) : Fld := ⟨BOB_SDROP i j, 31, 1⟩
def BOB_SDROP_COUNT (i : Nat) (j : Nat) : Fld := ⟨BOB_SDROP i j, 0, 31⟩

/-- R149. BOB_SDEFER (RO, W1C): deferred wakes -/
def BOB_SDEFER (i : Nat) (j : Nat) : Nat := 0x80d4 + i * 0x200 + j * 0x20
def BOB_SDEFER_SAT (i : Nat) (j : Nat) : Fld := ⟨BOB_SDEFER i j, 31, 1⟩
def BOB_SDEFER_COUNT (i : Nat) (j : Nat) : Fld := ⟨BOB_SDEFER i j, 0, 31⟩

/-- R149. BOB_SWAKE (RO): [31:0] wakes received; wraps -/
def BOB_SWAKE (i : Nat) (j : Nat) : Nat := 0x80d8 + i * 0x200 + j * 0x20

/-- R155. THB_FWVER (RO): [31:24] major, [23:16] minor, [15:0] build of Thimble firmware; 0 until boot -/
def THB_FWVER : Nat := 0xa000

/-- R155. THB_STATUS (RO): Thimble state -/
def THB_STATUS : Nat := 0xa004
def THB_STATUS_LONGOP : Fld := ⟨THB_STATUS, 3, 1⟩
def THB_STATUS_IMGWP : Fld := ⟨THB_STATUS, 2, 1⟩
def THB_STATUS_LSOK : Fld := ⟨THB_STATUS, 1, 1⟩
def THB_STATUS_FWRUN : Fld := ⟨THB_STATUS, 0, 1⟩

/-- R155. THB_RSTINFO (W1C): detail of the last Thimble watchdog reset -/
def THB_RSTINFO : Nat := 0xa008
def THB_RSTINFO_LOCKSTEP : Fld := ⟨THB_RSTINFO, 1, 1⟩
def THB_RSTINFO_WDEXP : Fld := ⟨THB_RSTINFO, 0, 1⟩

/-- R155. THB_HEART (RO): [31:0] incremented by Thimble firmware every 1 ms; wraps -/
def THB_HEART : Nat := 0xa00c

/-- R155. THB_BWDCFG (RW): Bobbin watchdog -/
def THB_BWDCFG : Nat := 0xa010
def THB_BWDCFG_HALT : Fld := ⟨THB_BWDCFG, 16, 16⟩
def THB_BWDCFG_PERIOD : Fld := ⟨THB_BWDCFG, 0, 16⟩

/-- R155. THB_BWDSTAT (W1C): [15:0] MISS: bit n, engine n missed a period; [31:16] reserved -/
def THB_BWDSTAT : Nat := 0xa014
def THB_BWDSTAT_MISS : Fld := ⟨THB_BWDSTAT, 0, 16⟩

/-- R155. THB_LSMIS (RO): [7:0] lockstep mismatches since power-on, saturating -/
def THB_LSMIS : Nat := 0xa018

/-- R187. STCH_CTRL (RW): phase enables -/
def STCH_CTRL : Nat := 0xb000
def STCH_CTRL_PHEN : Fld := ⟨STCH_CTRL, 0, 3⟩

/-- R187. STCH_STATUS (RO): running phases, re-spread, computation -/
def STCH_STATUS : Nat := 0xb004
def STCH_STATUS_BUSY : Fld := ⟨STCH_STATUS, 8, 1⟩
def STCH_STATUS_RESPR : Fld := ⟨STCH_STATUS, 4, 3⟩
def STCH_STATUS_PHRUN : Fld := ⟨STCH_STATUS, 0, 3⟩

/-- R187. STCH_EVT (W1C): sticky events -/
def STCH_EVT : Nat := 0xb008
def STCH_EVT_CFGREF : Fld := ⟨STCH_EVT, 7, 1⟩
def STCH_EVT_DISCARD : Fld := ⟨STCH_EVT, 6, 1⟩
def STCH_EVT_PATINV : Fld := ⟨STCH_EVT, 5, 1⟩
def STCH_EVT_RESPREAD : Fld := ⟨STCH_EVT, 4, 1⟩
def STCH_EVT_EDGEOVF : Fld := ⟨STCH_EVT, 3, 1⟩
def STCH_EVT_MINPW : Fld := ⟨STCH_EVT, 2, 1⟩
def STCH_EVT_CLAMP : Fld := ⟨STCH_EVT, 1, 1⟩
def STCH_EVT_UPD_SPLIT : Fld := ⟨STCH_EVT, 0, 1⟩

/-- R187. STCH_CFGERR (RO): result of the last check (R173) -/
def STCH_CFGERR : Nat := 0xb00c
def STCH_CFGERR_PHASE : Fld := ⟨STCH_CFGERR, 8, 3⟩
def STCH_CFGERR_MODE : Fld := ⟨STCH_CFGERR, 4, 1⟩
def STCH_CFGERR_FREE_PER : Fld := ⟨STCH_CFGERR, 3, 1⟩
def STCH_CFGERR_RATIO_CYC : Fld := ⟨STCH_CFGERR, 2, 1⟩
def STCH_CFGERR_RATIO_HIGH : Fld := ⟨STCH_CFGERR, 1, 1⟩
def STCH_CFGERR_RATIO_LOW : Fld := ⟨STCH_CFGERR, 0, 1⟩

/-- R187. STCH_MINPW (RW): [15:0] minimum pulse in ns, 0–10,000 -/
def STCH_MINPW : Nat := 0xb010

/-- R187. STCH_NACT (RO): [7:0] N of L1, [15:8] L2, [23:16] L3 -/
def STCH_NACT : Nat := 0xb014
def STCH_NACT_L1 : Fld := ⟨STCH_NACT, 0, 8⟩
def STCH_NACT_L2 : Fld := ⟨STCH_NACT, 8, 8⟩
def STCH_NACT_L3 : Fld := ⟨STCH_NACT, 16, 8⟩

/-- R187. STCH_CALC (RO, WO): computation time -/
def STCH_CALC : Nat := 0xb018
def STCH_CALC_CLR : Fld := ⟨STCH_CALC, 31, 1⟩
def STCH_CALC_MAX : Fld := ⟨STCH_CALC, 16, 15⟩
def STCH_CALC_LAST : Fld := ⟨STCH_CALC, 0, 16⟩

/-- R187. STCH_PHCFG (RW): mode and limits of phase n -/
def STCH_PHCFG (i : Nat) : Nat := 0xb020 + i * 0x4
def STCH_PHCFG_DABLIM (i : Nat) : Fld := ⟨STCH_PHCFG i, 16, 16⟩
def STCH_PHCFG_NLCHYST (i : Nat) : Fld := ⟨STCH_PHCFG i, 8, 8⟩
def STCH_PHCFG_DUPD (i : Nat) : Fld := ⟨STCH_PHCFG i, 2, 1⟩
def STCH_PHCFG_MODE (i : Nat) : Fld := ⟨STCH_PHCFG i, 0, 2⟩

/-- R187. STCH_CAR (RW): carrier ratio and free mode -/
def STCH_CAR (i : Nat) : Nat := 0xb030 + i * 0x4
def STCH_CAR_FREE (i : Nat) : Fld := ⟨STCH_CAR i, 31, 1⟩
def STCH_CAR_RATIO (i : Nat) : Fld := ⟨STCH_CAR i, 0, 10⟩

/-- R187. STCH_CAROFS (RW): [31:0] position-0 valley angle -/
def STCH_CAROFS (i : Nat) : Nat := 0xb040 + i * 0x4

/-- R187. STCH_CARPER (RW): [21:0] free-mode period in ticks -/
def STCH_CARPER (i : Nat) : Nat := 0xb050 + i * 0x4

/-- R187. STCH_PATCFG (RW): pattern selection -/
def STCH_PATCFG (i : Nat) : Nat := 0xb060 + i * 0x4
def STCH_PATCFG_BASE (i : Nat) : Fld := ⟨STCH_PATCFG i, 20, 12⟩
def STCH_PATCFG_ROWS (i : Nat) : Fld := ⟨STCH_PATCFG i, 7, 13⟩
def STCH_PATCFG_SLOTSM1 (i : Nat) : Fld := ⟨STCH_PATCFG i, 0, 6⟩

/-- R187. STCH_CHPH0 (RW): phase of chains 0–15 -/
def STCH_CHPH0 : Nat := 0xb070

/-- R187. STCH_CHPH1 (RW): phase of chains 16–23 -/
def STCH_CHPH1 : Nat := 0xb074

/-- R187. STCH_CELLEN (RW): bit i: cell 32k + i may participate -/
def STCH_CELLEN (i : Nat) : Nat := 0xb080 + i * 0x4

/-- R187. STCH_SPLIT (RO, W1C): split pairs (R168) -/
def STCH_SPLIT : Nat := 0xb0a0
def STCH_SPLIT_SAT : Fld := ⟨STCH_SPLIT, 31, 1⟩
def STCH_SPLIT_COUNT : Fld := ⟨STCH_SPLIT, 0, 31⟩

/-- R187. STCH_CLAMP (RO, W1C): clamped references and levels -/
def STCH_CLAMP : Nat := 0xb0a4
def STCH_CLAMP_SAT : Fld := ⟨STCH_CLAMP, 31, 1⟩
def STCH_CLAMP_COUNT : Fld := ⟨STCH_CLAMP, 0, 31⟩

/-- R187. STCH_MINPWDLY (RO, W1C): edges moved by MINPW -/
def STCH_MINPWDLY : Nat := 0xb0a8
def STCH_MINPWDLY_SAT : Fld := ⟨STCH_MINPWDLY, 31, 1⟩
def STCH_MINPWDLY_COUNT : Fld := ⟨STCH_MINPWDLY, 0, 31⟩

/-- R187. STCH_EDGEOVF (RO, W1C): edges moved by the edge limit -/
def STCH_EDGEOVF : Nat := 0xb0ac
def STCH_EDGEOVF_SAT : Fld := ⟨STCH_EDGEOVF, 31, 1⟩
def STCH_EDGEOVF_COUNT : Fld := ⟨STCH_EDGEOVF, 0, 31⟩

/-- R187. STCH_RESPREAD (RO, W1C): re-spread events -/
def STCH_RESPREAD : Nat := 0xb0b0
def STCH_RESPREAD_SAT : Fld := ⟨STCH_RESPREAD, 31, 1⟩
def STCH_RESPREAD_COUNT : Fld := ⟨STCH_RESPREAD, 0, 31⟩

/-- R187. STCH_DISCARD (RO, W1C): pairs kept after ECC errors -/
def STCH_DISCARD : Nat := 0xb0b4
def STCH_DISCARD_SAT : Fld := ⟨STCH_DISCARD, 31, 1⟩
def STCH_DISCARD_COUNT : Fld := ⟨STCH_DISCARD, 0, 31⟩

/-- R205. TAT_STATUS (RO): ranking, publication and sign per phase -/
def TAT_STATUS : Nat := 0xc000
def TAT_STATUS_SIGN2 : Fld := ⟨TAT_STATUS, 20, 2⟩
def TAT_STATUS_SIGN1 : Fld := ⟨TAT_STATUS, 18, 2⟩
def TAT_STATUS_SIGN0 : Fld := ⟨TAT_STATUS, 16, 2⟩
def TAT_STATUS_PUB : Fld := ⟨TAT_STATUS, 8, 3⟩
def TAT_STATUS_RANK : Fld := ⟨TAT_STATUS, 0, 3⟩

/-- R205. TAT_EVT (W1C): sticky events; fault sources -/
def TAT_EVT : Nat := 0xc004
def TAT_EVT_CLAMP : Fld := ⟨TAT_EVT, 3, 1⟩
def TAT_EVT_RETIRE : Fld := ⟨TAT_EVT, 2, 1⟩
def TAT_EVT_ISRC : Fld := ⟨TAT_EVT, 1, 1⟩
def TAT_EVT_STALE : Fld := ⟨TAT_EVT, 0, 1⟩

/-- R205. TAT_CALC (RO, WO): ranking time; layout of STCH_CALC (R189) -/
def TAT_CALC : Nat := 0xc008
def TAT_CALC_CLR : Fld := ⟨TAT_CALC, 31, 1⟩
def TAT_CALC_MAX : Fld := ⟨TAT_CALC, 16, 15⟩
def TAT_CALC_LAST : Fld := ⟨TAT_CALC, 0, 16⟩

/-- R205. TAT_RETCFG (RW): retirement thresholds -/
def TAT_RETCFG : Nat := 0xc00c
def TAT_RETCFG_RETLIFE : Fld := ⟨TAT_RETCFG, 16, 12⟩
def TAT_RETCFG_RETHEAD : Fld := ⟨TAT_RETCFG, 0, 12⟩

/-- R205. TAT_PHCFG (RW): weight boost, staleness, rotation gate -/
def TAT_PHCFG (i : Nat) : Nat := 0xc020 + i * 0x4
def TAT_PHCFG_WTB (i : Nat) : Fld := ⟨TAT_PHCFG i, 24, 8⟩
def TAT_PHCFG_VSTALE (i : Nat) : Fld := ⟨TAT_PHCFG i, 16, 8⟩
def TAT_PHCFG_ROTGATE (i : Nat) : Fld := ⟨TAT_PHCFG i, 0, 1⟩

/-- R205. TAT_WEIGHT (RW): [31:16] WT, [15:0] WA, both unsigned Q4.12 -/
def TAT_WEIGHT (i : Nat) : Nat := 0xc030 + i * 0x4
def TAT_WEIGHT_WT (i : Nat) : Fld := ⟨TAT_WEIGHT i, 16, 16⟩
def TAT_WEIGHT_WA (i : Nat) : Fld := ⟨TAT_WEIGHT i, 0, 16⟩

/-- R205. TAT_HYST (RW): [31:16] DWELL in latches; [15:0] HYST in 2^-16 key units -/
def TAT_HYST (i : Nat) : Nat := 0xc040 + i * 0x4
def TAT_HYST_DWELL (i : Nat) : Fld := ⟨TAT_HYST i, 16, 16⟩
def TAT_HYST_HYST (i : Nat) : Fld := ⟨TAT_HYST i, 0, 16⟩

/-- R205. TAT_VNOM (RW): [15:0] VNOM in 0.1 V units -/
def TAT_VNOM (i : Nat) : Nat := 0xc050 + i * 0x4
def TAT_VNOM_VNOM (i : Nat) : Fld := ⟨TAT_VNOM i, 0, 16⟩

/-- R205. TAT_GAIN (RW): [31:16] OFSLIM, unsigned Q1.15, 0–0x7FFF; [15:0] GAIN, unsigned Q4.12 -/
def TAT_GAIN (i : Nat) : Nat := 0xc060 + i * 0x4
def TAT_GAIN_OFSLIM (i : Nat) : Fld := ⟨TAT_GAIN i, 16, 16⟩
def TAT_GAIN_GAIN (i : Nat) : Fld := ⟨TAT_GAIN i, 0, 16⟩

/-- R205. TAT_ISRC (RW): current source and deadband -/
def TAT_ISRC (i : Nat) : Nat := 0xc070 + i * 0x4
def TAT_ISRC_SAR (i : Nat) : Fld := ⟨TAT_ISRC i, 31, 1⟩
def TAT_ISRC_CONV (i : Nat) : Fld := ⟨TAT_ISRC i, 24, 1⟩
def TAT_ISRC_ENT (i : Nat) : Fld := ⟨TAT_ISRC i, 16, 5⟩
def TAT_ISRC_IDB (i : Nat) : Fld := ⟨TAT_ISRC i, 0, 16⟩

/-- R205. TAT_IPH (RW): [15:0] phase current, signed Q1.15 -/
def TAT_IPH (i : Nat) : Nat := 0xc080 + i * 0x4

/-- R205. TAT_STALE (RO, W1C): cells that became stale (R201) -/
def TAT_STALE : Nat := 0xc090
def TAT_STALE_SAT : Fld := ⟨TAT_STALE, 31, 1⟩
def TAT_STALE_COUNT : Fld := ⟨TAT_STALE, 0, 31⟩

/-- R205. TAT_ISRCBAD (RO, W1C): SAR samples rejected (R194) -/
def TAT_ISRCBAD : Nat := 0xc094
def TAT_ISRCBAD_SAT : Fld := ⟨TAT_ISRCBAD, 31, 1⟩
def TAT_ISRCBAD_COUNT : Fld := ⟨TAT_ISRCBAD, 0, 31⟩

/-- R205. TAT_CLAMP (RO, W1C): clamped offsets (R200) -/
def TAT_CLAMP : Nat := 0xc098
def TAT_CLAMP_SAT : Fld := ⟨TAT_CLAMP, 31, 1⟩
def TAT_CLAMP_COUNT : Fld := ⟨TAT_CLAMP, 0, 31⟩

/-- R205. TAT_RSV (RW): bit i: cell 32k + i is a reserve cell -/
def TAT_RSV (i : Nat) : Nat := 0xc0a0 + i * 0x4

/-- R205. TAT_RET (W1C): bit i: cell 32k + i met a retirement threshold -/
def TAT_RET (i : Nat) : Nat := 0xc0c0 + i * 0x4

/-- R205. TAT_CIN (RO): THM and AGE inputs of cell k -/
def TAT_CIN (i : Nat) : Nat := 0xc100 + i * 0x4
def TAT_CIN_DERATE (i : Nat) : Fld := ⟨TAT_CIN i, 24, 8⟩
def TAT_CIN_LIFE (i : Nat) : Fld := ⟨TAT_CIN i, 12, 12⟩
def TAT_CIN_HEAD (i : Nat) : Fld := ⟨TAT_CIN i, 0, 12⟩

/-- R205. TAT_KEY (RO): published position and held key of cell k -/
def TAT_KEY (i : Nat) : Nat := 0xc400 + i * 0x4
def TAT_KEY_POS (i : Nat) : Fld := ⟨TAT_KEY i, 24, 8⟩
def TAT_KEY_HKEY (i : Nat) : Fld := ⟨TAT_KEY i, 0, 24⟩

/-- R205. TAT_OFS (RO): dwell count and offset of cell k -/
def TAT_OFS (i : Nat) : Nat := 0xc700 + i * 0x4
def TAT_OFS_DWL (i : Nat) : Fld := ⟨TAT_OFS i, 16, 16⟩
def TAT_OFS_OFS (i : Nat) : Fld := ⟨TAT_OFS i, 0, 16⟩

/-- R258. CEL_CTRL (RW): enable, re-admission -/
def CEL_CTRL : Nat := 0x18000
def CEL_CTRL_AUTOREADMIT : Fld := ⟨CEL_CTRL, 1, 1⟩
def CEL_CTRL_EN : Fld := ⟨CEL_CTRL, 0, 1⟩

/-- R258. CEL_STATUS (RO): protocol state -/
def CEL_STATUS : Nat := 0x18004
def CEL_STATUS_EPOCHMAX : Fld := ⟨CEL_STATUS, 4, 1⟩
def CEL_STATUS_MASTER : Fld := ⟨CEL_STATUS, 3, 1⟩
def CEL_STATUS_ADMBUSY : Fld := ⟨CEL_STATUS, 2, 1⟩
def CEL_STATUS_ENUMBUSY : Fld := ⟨CEL_STATUS, 1, 1⟩
def CEL_STATUS_RUN : Fld := ⟨CEL_STATUS, 0, 1⟩

/-- R258. CEL_EVT (W1C): sticky events -/
def CEL_EVT : Nat := 0x18008
def CEL_EVT_ENUMMIS : Fld := ⟨CEL_EVT, 10, 1⟩
def CEL_EVT_TRIPRX : Fld := ⟨CEL_EVT, 9, 1⟩
def CEL_EVT_CLAIMNACK : Fld := ⟨CEL_EVT, 8, 1⟩
def CEL_EVT_MGMTTMO : Fld := ⟨CEL_EVT, 7, 1⟩
def CEL_EVT_LATE : Fld := ⟨CEL_EVT, 6, 1⟩
def CEL_EVT_DLYCHG : Fld := ⟨CEL_EVT, 5, 1⟩
def CEL_EVT_BYPASSED : Fld := ⟨CEL_EVT, 4, 1⟩
def CEL_EVT_LOST : Fld := ⟨CEL_EVT, 3, 1⟩
def CEL_EVT_EXCESS : Fld := ⟨CEL_EVT, 2, 1⟩
def CEL_EVT_HELD : Fld := ⟨CEL_EVT, 1, 1⟩
def CEL_EVT_VIOL : Fld := ⟨CEL_EVT, 0, 1⟩

/-- R258. CEL_HOLDMAX (RW): [6:0] MS: CELL_HOLD_MAX, 1–100 ms -/
def CEL_HOLDMAX : Nat := 0x1800c
def CEL_HOLDMAX_MS : Fld := ⟨CEL_HOLDMAX, 0, 7⟩

/-- R258. CEL_UPWIN (RW): [9:0] WIN: UP window in 10 ns units, 50–500 -/
def CEL_UPWIN : Nat := 0x18010
def CEL_UPWIN_WIN : Fld := ⟨CEL_UPWIN, 0, 10⟩

/-- R258. CEL_DLYCFG (RW): delay measurement -/
def CEL_DLYCFG : Nat := 0x18014
def CEL_DLYCFG_JUMP : Fld := ⟨CEL_DLYCFG, 16, 8⟩
def CEL_DLYCFG_PERIOD : Fld := ⟨CEL_DLYCFG, 0, 16⟩

/-- R258. CEL_MGMTCFG (RW): management requests -/
def CEL_MGMTCFG : Nat := 0x18018
def CEL_MGMTCFG_RETRY : Fld := ⟨CEL_MGMTCFG, 16, 2⟩
def CEL_MGMTCFG_TMO : Fld := ⟨CEL_MGMTCFG, 12, 4⟩
def CEL_MGMTCFG_MAXLEN : Fld := ⟨CEL_MGMTCFG, 0, 11⟩

/-- R258. CEL_ENUMGO (WO): enumeration start -/
def CEL_ENUMGO : Nat := 0x1801c
def CEL_ENUMGO_MODE : Fld := ⟨CEL_ENUMGO, 24, 1⟩
def CEL_ENUMGO_CHAINS : Fld := ⟨CEL_ENUMGO, 0, 24⟩

/-- R258. CEL_EPOCH (RO): [31:0] epoch of this unit -/
def CEL_EPOCH : Nat := 0x18020

/-- R258. CEL_TRIPTX (RO, W1C): fast trips sent -/
def CEL_TRIPTX : Nat := 0x18024
def CEL_TRIPTX_SAT : Fld := ⟨CEL_TRIPTX, 31, 1⟩
def CEL_TRIPTX_COUNT : Fld := ⟨CEL_TRIPTX, 0, 31⟩

/-- R258. CEL_TRIPRX (RO, W1C): fast trips received -/
def CEL_TRIPRX : Nat := 0x18028
def CEL_TRIPRX_SAT : Fld := ⟨CEL_TRIPRX, 31, 1⟩
def CEL_TRIPRX_COUNT : Fld := ⟨CEL_TRIPRX, 0, 31⟩

/-- R258. CEL_ABORT (RO, W1C): frames aborted by K28.7 -/
def CEL_ABORT : Nat := 0x1802c
def CEL_ABORT_SAT : Fld := ⟨CEL_ABORT, 31, 1⟩
def CEL_ABORT_COUNT : Fld := ⟨CEL_ABORT, 0, 31⟩

/-- R258. CEL_CHCFG (RW): chain configuration -/
def CEL_CHCFG (i : Nat) : Nat := 0x18100 + i * 0x4
def CEL_CHCFG_EN (i : Nat) : Fld := ⟨CEL_CHCFG i, 8, 1⟩
def CEL_CHCFG_NNODES (i : Nat) : Fld := ⟨CEL_CHCFG i, 0, 4⟩

/-- R258. CEL_CHSTAT (RO): chain state -/
def CEL_CHSTAT (i : Nat) : Nat := 0x18200 + i * 0x4
def CEL_CHSTAT_ARR (i : Nat) : Fld := ⟨CEL_CHSTAT i, 16, 12⟩
def CEL_CHSTAT_LATE (i : Nat) : Fld := ⟨CEL_CHSTAT i, 7, 1⟩
def CEL_CHSTAT_BREAK (i : Nat) : Fld := ⟨CEL_CHSTAT i, 6, 1⟩
def CEL_CHSTAT_EXCESS (i : Nat) : Fld := ⟨CEL_CHSTAT i, 5, 1⟩
def CEL_CHSTAT_MIS (i : Nat) : Fld := ⟨CEL_CHSTAT i, 4, 1⟩
def CEL_CHSTAT_NFOUND (i : Nat) : Fld := ⟨CEL_CHSTAT i, 0, 4⟩

/-- R258. CEL_CHVIOL (RO, W1C): violations on chain c -/
def CEL_CHVIOL (i : Nat) : Nat := 0x18300 + i * 0x4
def CEL_CHVIOL_SAT (i : Nat) : Fld := ⟨CEL_CHVIOL i, 31, 1⟩
def CEL_CHVIOL_COUNT (i : Nat) : Fld := ⟨CEL_CHVIOL i, 0, 31⟩

/-- R258. CEL_CHGAP (RO, W1C): UP sequence gaps on chain c -/
def CEL_CHGAP (i : Nat) : Nat := 0x18380 + i * 0x4
def CEL_CHGAP_SAT (i : Nat) : Fld := ⟨CEL_CHGAP i, 31, 1⟩
def CEL_CHGAP_COUNT (i : Nat) : Fld := ⟨CEL_CHGAP i, 0, 31⟩

/-- R281. LNK_CTRL (RW, W1S): enable, rate, polarity, retraining -/
def LNK_CTRL (i : Nat) : Nat := 0x10000 + i * 0x400
def LNK_CTRL_RATE (i : Nat) : Fld := ⟨LNK_CTRL i, 8, 2⟩
def LNK_CTRL_STARTLAST (i : Nat) : Fld := ⟨LNK_CTRL i, 6, 1⟩
def LNK_CTRL_TRACK (i : Nat) : Fld := ⟨LNK_CTRL i, 5, 1⟩
def LNK_CTRL_RXPOL (i : Nat) : Fld := ⟨LNK_CTRL i, 4, 1⟩
def LNK_CTRL_TXPOL (i : Nat) : Fld := ⟨LNK_CTRL i, 3, 1⟩
def LNK_CTRL_RETRAIN (i : Nat) : Fld := ⟨LNK_CTRL i, 2, 1⟩
def LNK_CTRL_AUTORT (i : Nat) : Fld := ⟨LNK_CTRL i, 1, 1⟩
def LNK_CTRL_EN (i : Nat) : Fld := ⟨LNK_CTRL i, 0, 1⟩

/-- R281. LNK_STATUS (RO): state, detection, current taps -/
def LNK_STATUS (i : Nat) : Nat := 0x10004 + i * 0x400
def LNK_STATUS_CTLE (i : Nat) : Fld := ⟨LNK_STATUS i, 24, 4⟩
def LNK_STATUS_POST (i : Nat) : Fld := ⟨LNK_STATUS i, 20, 4⟩
def LNK_STATUS_PRE (i : Nat) : Fld := ⟨LNK_STATUS i, 16, 4⟩
def LNK_STATUS_POLINV (i : Nat) : Fld := ⟨LNK_STATUS i, 9, 1⟩
def LNK_STATUS_PLLOK (i : Nat) : Fld := ⟨LNK_STATUS i, 8, 1⟩
def LNK_STATUS_FARREADY (i : Nat) : Fld := ⟨LNK_STATUS i, 7, 1⟩
def LNK_STATUS_RXREADY (i : Nat) : Fld := ⟨LNK_STATUS i, 6, 1⟩
def LNK_STATUS_ALIGNED (i : Nat) : Fld := ⟨LNK_STATUS i, 5, 1⟩
def LNK_STATUS_CDRLOCK (i : Nat) : Fld := ⟨LNK_STATUS i, 4, 1⟩
def LNK_STATUS_SIGDET (i : Nat) : Fld := ⟨LNK_STATUS i, 3, 1⟩
def LNK_STATUS_STATE (i : Nat) : Fld := ⟨LNK_STATUS i, 0, 3⟩

/-- R281. LNK_EVT (W1C): sticky events -/
def LNK_EVT (i : Nat) : Nat := 0x10008 + i * 0x400
def LNK_EVT_PRBSLOSS (i : Nat) : Fld := ⟨LNK_EVT i, 6, 1⟩
def LNK_EVT_TRAININ (i : Nat) : Fld := ⟨LNK_EVT i, 5, 1⟩
def LNK_EVT_CFGREF (i : Nat) : Fld := ⟨LNK_EVT i, 4, 1⟩
def LNK_EVT_PLLLOSS (i : Nat) : Fld := ⟨LNK_EVT i, 3, 1⟩
def LNK_EVT_TRFAIL (i : Nat) : Fld := ⟨LNK_EVT i, 2, 1⟩
def LNK_EVT_LINKDOWN (i : Nat) : Fld := ⟨LNK_EVT i, 1, 1⟩

/-- R281. LNK_TXFFE (RW): preset taps -/
def LNK_TXFFE (i : Nat) : Nat := 0x1000c + i * 0x400
def LNK_TXFFE_POST (i : Nat) : Fld := ⟨LNK_TXFFE i, 8, 4⟩
def LNK_TXFFE_PRE (i : Nat) : Fld := ⟨LNK_TXFFE i, 0, 3⟩

/-- R281. LNK_TRCFG (RW): training limits -/
def LNK_TRCFG (i : Nat) : Nat := 0x10010 + i * 0x400
def LNK_TRCFG_MINEYE (i : Nat) : Fld := ⟨LNK_TRCFG i, 24, 8⟩
def LNK_TRCFG_RETRYDLY (i : Nat) : Fld := ⟨LNK_TRCFG i, 16, 8⟩
def LNK_TRCFG_TRTMO (i : Nat) : Fld := ⟨LNK_TRCFG i, 0, 16⟩

/-- R281. LNK_TRLAST (RO): result of the last training -/
def LNK_TRLAST (i : Nat) : Nat := 0x10014 + i * 0x400
def LNK_TRLAST_TIME (i : Nat) : Fld := ⟨LNK_TRLAST i, 20, 12⟩
def LNK_TRLAST_CTLE (i : Nat) : Fld := ⟨LNK_TRLAST i, 16, 4⟩
def LNK_TRLAST_POST (i : Nat) : Fld := ⟨LNK_TRLAST i, 8, 4⟩
def LNK_TRLAST_PRE (i : Nat) : Fld := ⟨LNK_TRLAST i, 0, 3⟩

/-- R281. LNK_TRFAIL (RO, W1C): failed trainings -/
def LNK_TRFAIL (i : Nat) : Nat := 0x10018 + i * 0x400
def LNK_TRFAIL_SAT (i : Nat) : Fld := ⟨LNK_TRFAIL i, 31, 1⟩
def LNK_TRFAIL_COUNT (i : Nat) : Fld := ⟨LNK_TRFAIL i, 0, 31⟩

/-- R281. LNK_LINKDOWN (RO, W1C): exits from LINK -/
def LNK_LINKDOWN (i : Nat) : Nat := 0x1001c + i * 0x400
def LNK_LINKDOWN_SAT (i : Nat) : Fld := ⟨LNK_LINKDOWN i, 31, 1⟩
def LNK_LINKDOWN_COUNT (i : Nat) : Fld := ⟨LNK_LINKDOWN i, 0, 31⟩

/-- R281. LNK_CODEERR (RO, W1C): code and disparity errors in LINK -/
def LNK_CODEERR (i : Nat) : Nat := 0x10020 + i * 0x400
def LNK_CODEERR_SAT (i : Nat) : Fld := ⟨LNK_CODEERR i, 31, 1⟩
def LNK_CODEERR_COUNT (i : Nat) : Fld := ⟨LNK_CODEERR i, 0, 31⟩

/-- R281. LNK_TXDROP (RO, W1C): transmit frames dropped (R275) -/
def LNK_TXDROP (i : Nat) : Nat := 0x10024 + i * 0x400
def LNK_TXDROP_SAT (i : Nat) : Fld := ⟨LNK_TXDROP i, 31, 1⟩
def LNK_TXDROP_COUNT (i : Nat) : Fld := ⟨LNK_TXDROP i, 0, 31⟩

/-- R281. LNK_RXDROP (RO, W1C): receive frames discarded (R275) -/
def LNK_RXDROP (i : Nat) : Nat := 0x10028 + i * 0x400
def LNK_RXDROP_SAT (i : Nat) : Fld := ⟨LNK_RXDROP i, 31, 1⟩
def LNK_RXDROP_COUNT (i : Nat) : Fld := ⟨LNK_RXDROP i, 0, 31⟩

/-- R281. LNK_ESKIP (RO, W1C): elastic buffer re-centrings -/
def LNK_ESKIP (i : Nat) : Nat := 0x1002c + i * 0x400
def LNK_ESKIP_SAT (i : Nat) : Fld := ⟨LNK_ESKIP i, 31, 1⟩
def LNK_ESKIP_COUNT (i : Nat) : Fld := ⟨LNK_ESKIP i, 0, 31⟩

/-- R281. LNK_PRBS (RW, W1S): test pattern control -/
def LNK_PRBS (i : Nat) : Nat := 0x10030 + i * 0x400
def LNK_PRBS_ERRINJ (i : Nat) : Fld := ⟨LNK_PRBS i, 8, 1⟩
def LNK_PRBS_LOCK (i : Nat) : Fld := ⟨LNK_PRBS i, 7, 1⟩
def LNK_PRBS_RXPAT (i : Nat) : Fld := ⟨LNK_PRBS i, 5, 2⟩
def LNK_PRBS_RXEN (i : Nat) : Fld := ⟨LNK_PRBS i, 4, 1⟩
def LNK_PRBS_TXPAT (i : Nat) : Fld := ⟨LNK_PRBS i, 2, 2⟩
def LNK_PRBS_TXEN (i : Nat) : Fld := ⟨LNK_PRBS i, 1, 1⟩
def LNK_PRBS_EN (i : Nat) : Fld := ⟨LNK_PRBS i, 0, 1⟩

/-- R281. LNK_PRBSERR_LO (RO): bit errors, bits [31:0] -/
def LNK_PRBSERR_LO (i : Nat) : Nat := 0x10034 + i * 0x400

/-- R281. LNK_PRBSERR_HI (RO, W1C): [31] SAT; [15:0] bits [47:32] -/
def LNK_PRBSERR_HI (i : Nat) : Nat := 0x10038 + i * 0x400
def LNK_PRBSERR_HI_SAT (i : Nat) : Fld := ⟨LNK_PRBSERR_HI i, 31, 1⟩
def LNK_PRBSERR_HI_CNT (i : Nat) : Fld := ⟨LNK_PRBSERR_HI i, 0, 16⟩

/-- R281. LNK_PRBSBIT_LO (RO): bits checked, bits [31:0] -/
def LNK_PRBSBIT_LO (i : Nat) : Nat := 0x1003c + i * 0x400

/-- R281. LNK_PRBSBIT_HI (RO, W1C): [31] SAT; [15:0] bits [47:32] -/
def LNK_PRBSBIT_HI (i : Nat) : Nat := 0x10040 + i * 0x400
def LNK_PRBSBIT_HI_SAT (i : Nat) : Fld := ⟨LNK_PRBSBIT_HI i, 31, 1⟩
def LNK_PRBSBIT_HI_CNT (i : Nat) : Fld := ⟨LNK_PRBSBIT_HI i, 0, 16⟩

/-- R281. LNK_EYECTL (RW, W1S): eye scan control -/
def LNK_EYECTL (i : Nat) : Nat := 0x10044 + i * 0x400
def LNK_EYECTL_DWELL (i : Nat) : Fld := ⟨LNK_EYECTL i, 8, 5⟩
def LNK_EYECTL_ABORT (i : Nat) : Fld := ⟨LNK_EYECTL i, 2, 1⟩
def LNK_EYECTL_BUSY (i : Nat) : Fld := ⟨LNK_EYECTL i, 1, 1⟩
def LNK_EYECTL_GO (i : Nat) : Fld := ⟨LNK_EYECTL i, 0, 1⟩

/-- R281. LNK_EYE (RO): last eye scan result -/
def LNK_EYE (i : Nat) : Nat := 0x10048 + i * 0x400
def LNK_EYE_HEIGHT (i : Nat) : Fld := ⟨LNK_EYE i, 8, 8⟩
def LNK_EYE_WIDTH (i : Nat) : Fld := ⟨LNK_EYE i, 0, 8⟩

/-- R308. ADC_CTRL (RW): converter enables, housekeeping converter -/
def ADC_CTRL : Nat := 0x20000
def ADC_CTRL_HKCONV : Fld := ⟨ADC_CTRL, 9, 1⟩
def ADC_CTRL_SAREN : Fld := ⟨ADC_CTRL, 0, 2⟩

/-- R308. ADC_EVT (W1C): sticky events; fault sources -/
def ADC_EVT : Nat := 0x20004
def ADC_EVT_CFGREF : Fld := ⟨ADC_EVT, 9, 1⟩
def ADC_EVT_FSTOP : Fld := ⟨ADC_EVT, 8, 1⟩
def ADC_EVT_FCLIP : Fld := ⟨ADC_EVT, 7, 1⟩
def ADC_EVT_HKLATE : Fld := ⟨ADC_EVT, 6, 1⟩
def ADC_EVT_SCLATE : Fld := ⟨ADC_EVT, 5, 1⟩
def ADC_EVT_SCFAIL : Fld := ⟨ADC_EVT, 4, 1⟩
def ADC_EVT_URGDROP : Fld := ⟨ADC_EVT, 3, 1⟩
def ADC_EVT_SEQDROP : Fld := ⟨ADC_EVT, 2, 1⟩
def ADC_EVT_REFLOSS : Fld := ⟨ADC_EVT, 1, 1⟩
def ADC_EVT_OVR : Fld := ⟨ADC_EVT, 0, 1⟩

/-- R308. ADC_REFCFG (RW): reference selection -/
def ADC_REFCFG : Nat := 0x20008
def ADC_REFCFG_VNOM : Fld := ⟨ADC_REFCFG, 16, 12⟩
def ADC_REFCFG_SEL : Fld := ⟨ADC_REFCFG, 0, 2⟩

/-- R308. ADC_REFSTAT (RO): reference state -/
def ADC_REFSTAT : Nat := 0x2000c
def ADC_REFSTAT_SELACT : Fld := ⟨ADC_REFSTAT, 2, 2⟩
def ADC_REFSTAT_INBAND : Fld := ⟨ADC_REFSTAT, 1, 1⟩
def ADC_REFSTAT_SETTLED : Fld := ⟨ADC_REFSTAT, 0, 1⟩

/-- R308. ADC_OVRSTK (W1C): [23:0] bit i: AIN i was over range -/
def ADC_OVRSTK : Nat := 0x20010

/-- R308. ADC_LOCK (W1S): [0] WC: comparator lock (R302) -/
def ADC_LOCK : Nat := 0x20014
def ADC_LOCK_WC : Fld := ⟨ADC_LOCK, 0, 1⟩

/-- R308. ADC_INJ (WO): injection (R307) -/
def ADC_INJ : Nat := 0x20018
def ADC_INJ_WC : Fld := ⟨ADC_INJ, 8, 8⟩
def ADC_INJ_SCFAIL : Fld := ⟨ADC_INJ, 3, 1⟩
def ADC_INJ_REFNS : Fld := ⟨ADC_INJ, 2, 1⟩
def ADC_INJ_OVR : Fld := ⟨ADC_INJ, 0, 2⟩

/-- R308. ADC_SEQSW (WO): [1:0] GO: bit n triggers converter n -/
def ADC_SEQSW : Nat := 0x2001c
def ADC_SEQSW_GO : Fld := ⟨ADC_SEQSW, 0, 2⟩

/-- R308. ADC_URG (WO): urgent request -/
def ADC_URG : Nat := 0x20020
def ADC_URG_CONV : Fld := ⟨ADC_URG, 8, 1⟩
def ADC_URG_INPUT : Fld := ⟨ADC_URG, 0, 5⟩

/-- R308. ADC_URG_DROP (RO, W1C): urgent requests dropped -/
def ADC_URG_DROP : Nat := 0x20024
def ADC_URG_DROP_SAT : Fld := ⟨ADC_URG_DROP, 31, 1⟩
def ADC_URG_DROP_COUNT : Fld := ⟨ADC_URG_DROP, 0, 31⟩

/-- R308. ADC_URGRES (RO): urgent result; result layout -/
def ADC_URGRES (i : Nat) : Nat := 0x20028 + i * 0x4

/-- R308. ADC_SEQCFG (RW): sequence length and sources -/
def ADC_SEQCFG (i : Nat) : Nat := 0x20030 + i * 0x4
def ADC_SEQCFG_LENM1 (i : Nat) : Fld := ⟨ADC_SEQCFG i, 16, 5⟩
def ADC_SEQCFG_SW (i : Nat) : Fld := ⟨ADC_SEQCFG i, 10, 1⟩
def ADC_SEQCFG_PHU (i : Nat) : Fld := ⟨ADC_SEQCFG i, 9, 1⟩
def ADC_SEQCFG_PRK (i : Nat) : Fld := ⟨ADC_SEQCFG i, 8, 1⟩

/-- R308. ADC_SEQSTAT (RO): sequencer state -/
def ADC_SEQSTAT (i : Nat) : Nat := 0x20038 + i * 0x4
def ADC_SEQSTAT_DELAYED (i : Nat) : Fld := ⟨ADC_SEQSTAT i, 16, 1⟩
def ADC_SEQSTAT_CUR (i : Nat) : Fld := ⟨ADC_SEQSTAT i, 8, 5⟩
def ADC_SEQSTAT_ABANDON (i : Nat) : Fld := ⟨ADC_SEQSTAT i, 2, 1⟩
def ADC_SEQSTAT_STATE (i : Nat) : Fld := ⟨ADC_SEQSTAT i, 0, 2⟩

/-- R308. ADC_SEQTS (RO): [31:0] tick low word of the last start -/
def ADC_SEQTS (i : Nat) : Nat := 0x20040 + i * 0x4

/-- R308. ADC_SEQ_DROP (RO, W1C): triggers dropped -/
def ADC_SEQ_DROP (i : Nat) : Nat := 0x20048 + i * 0x4
def ADC_SEQ_DROP_SAT (i : Nat) : Fld := ⟨ADC_SEQ_DROP i, 31, 1⟩
def ADC_SEQ_DROP_COUNT (i : Nat) : Fld := ⟨ADC_SEQ_DROP i, 0, 31⟩

/-- R308. ADC_SEQ_CNT (RO): [31:0] sequences started; wraps -/
def ADC_SEQ_CNT (i : Nat) : Nat := 0x20050 + i * 0x4

/-- R308. ADC_SCCFG (RW): self-check -/
def ADC_SCCFG : Nat := 0x20060
def ADC_SCCFG_TOL : Fld := ⟨ADC_SCCFG, 24, 8⟩
def ADC_SCCFG_PERIOD : Fld := ⟨ADC_SCCFG, 0, 16⟩

/-- R308. ADC_SCSTAT (RO): self-check state -/
def ADC_SCSTAT : Nat := 0x20064
def ADC_SCSTAT_FAIL : Fld := ⟨ADC_SCSTAT, 31, 1⟩
def ADC_SCSTAT_BUSY : Fld := ⟨ADC_SCSTAT, 30, 1⟩
def ADC_SCSTAT_FCONV : Fld := ⟨ADC_SCSTAT, 29, 1⟩
def ADC_SCSTAT_FPOINT : Fld := ⟨ADC_SCSTAT, 24, 3⟩
def ADC_SCSTAT_ROUNDS : Fld := ⟨ADC_SCSTAT, 0, 16⟩

/-- R308. ADC_HKCFG (RW): housekeeping scan -/
def ADC_HKCFG : Nat := 0x20068
def ADC_HKCFG_PERIOD : Fld := ⟨ADC_HKCFG, 24, 8⟩
def ADC_HKCFG_MASK : Fld := ⟨ADC_HKCFG, 0, 24⟩

/-- R308. ADC_BGABORT (RO, W1C): background conversions aborted -/
def ADC_BGABORT : Nat := 0x2006c
def ADC_BGABORT_SAT : Fld := ⟨ADC_BGABORT, 31, 1⟩
def ADC_BGABORT_COUNT : Fld := ⟨ADC_BGABORT, 0, 31⟩

/-- R308. ADC_HKLATE (RO, W1C): late housekeeping scans -/
def ADC_HKLATE : Nat := 0x20070
def ADC_HKLATE_SAT : Fld := ⟨ADC_HKLATE, 31, 1⟩
def ADC_HKLATE_COUNT : Fld := ⟨ADC_HKLATE, 0, 31⟩

/-- R308. ADC_INCFG (RW): [1:0] AAF (R288); [31:2] reserved -/
def ADC_INCFG (i : Nat) : Nat := 0x20080 + i * 0x4
def ADC_INCFG_AAF (i : Nat) : Fld := ⟨ADC_INCFG i, 0, 2⟩

/-- R308. ADC_SEQ0_ENT (RW): [4:0] INPUT; [31:5] reserved -/
def ADC_SEQ0_ENT (i : Nat) : Nat := 0x20100 + i * 0x4
def ADC_SEQ0_ENT_INPUT (i : Nat) : Fld := ⟨ADC_SEQ0_ENT i, 0, 5⟩

/-- R308. ADC_SEQ1_ENT (RW): as ADC_SEQ0_ENTk -/
def ADC_SEQ1_ENT (i : Nat) : Nat := 0x20180 + i * 0x4
def ADC_SEQ1_ENT_INPUT (i : Nat) : Fld := ⟨ADC_SEQ1_ENT i, 0, 5⟩

/-- R308. ADC_SEQ0_RES (RO): result layout -/
def ADC_SEQ0_RES (i : Nat) : Nat := 0x20200 + i * 0x4

/-- R308. ADC_SEQ1_RES (RO): result layout -/
def ADC_SEQ1_RES (i : Nat) : Nat := 0x20280 + i * 0x4

/-- R308. ADC_HKRES (RO): result layout -/
def ADC_HKRES (i : Nat) : Nat := 0x20300 + i * 0x4

/-- R308. ADC_WCCFG (RWL): comparator configuration -/
def ADC_WCCFG (i : Nat) : Nat := 0x20400 + i * 0x4
def ADC_WCCFG_EN (i : Nat) : Fld := ⟨ADC_WCCFG i, 31, 1⟩
def ADC_WCCFG_INPUT (i : Nat) : Fld := ⟨ADC_WCCFG i, 24, 5⟩
def ADC_WCCFG_FILT (i : Nat) : Fld := ⟨ADC_WCCFG i, 16, 8⟩
def ADC_WCCFG_HYST (i : Nat) : Fld := ⟨ADC_WCCFG i, 12, 4⟩
def ADC_WCCFG_HIEN (i : Nat) : Fld := ⟨ADC_WCCFG i, 1, 1⟩
def ADC_WCCFG_LOEN (i : Nat) : Fld := ⟨ADC_WCCFG i, 0, 1⟩

/-- R308. ADC_WCTHR (RWL): comparator thresholds -/
def ADC_WCTHR (i : Nat) : Nat := 0x20420 + i * 0x4
def ADC_WCTHR_HI (i : Nat) : Fld := ⟨ADC_WCTHR i, 16, 10⟩
def ADC_WCTHR_LO (i : Nat) : Fld := ⟨ADC_WCTHR i, 0, 10⟩

/-- R308. ADC_WCSTAT (RO): comparator outputs -/
def ADC_WCSTAT : Nat := 0x20440
def ADC_WCSTAT_ABOVE : Fld := ⟨ADC_WCSTAT, 8, 8⟩
def ADC_WCSTAT_BELOW : Fld := ⟨ADC_WCSTAT, 0, 8⟩

/-- R308. ADC_FCTRL (RW): fast stream control -/
def ADC_FCTRL : Nat := 0x20500
def ADC_FCTRL_CHEN : Fld := ⟨ADC_FCTRL, 4, 4⟩
def ADC_FCTRL_RUN : Fld := ⟨ADC_FCTRL, 0, 1⟩

/-- R308. ADC_FSTAT (RO): fast stream state -/
def ADC_FSTAT : Nat := 0x20504
def ADC_FSTAT_CLIPNOW : Fld := ⟨ADC_FSTAT, 4, 4⟩
def ADC_FSTAT_OWNSTOP : Fld := ⟨ADC_FSTAT, 1, 1⟩
def ADC_FSTAT_RUNNING : Fld := ⟨ADC_FSTAT, 0, 1⟩

/-- R308. ADC_FSTART_LO (RO): tick of sample 0, bits [31:0] -/
def ADC_FSTART_LO : Nat := 0x20508

/-- R308. ADC_FSTART_HI (RO): bits [63:32] -/
def ADC_FSTART_HI : Nat := 0x2050c

/-- R308. ADC_FCNT_LO (RO): samples written, bits [31:0] -/
def ADC_FCNT_LO : Nat := 0x20510

/-- R308. ADC_FCNT_HI (RO): bits [63:32] -/
def ADC_FCNT_HI : Nat := 0x20514

/-- R308. ADC_FCLIP (RO, W1C): clip episodes -/
def ADC_FCLIP (i : Nat) : Nat := 0x20520 + i * 0x4
def ADC_FCLIP_SAT (i : Nat) : Fld := ⟨ADC_FCLIP i, 31, 1⟩
def ADC_FCLIP_COUNT (i : Nat) : Fld := ⟨ADC_FCLIP i, 0, 31⟩

/-- R338. PHU_CTRL (RW): enable, class, rate, grid, converter, format -/
def PHU_CTRL : Nat := 0x22000
def PHU_CTRL_F0SEL : Fld := ⟨PHU_CTRL, 15, 1⟩
def PHU_CTRL_CONV : Fld := ⟨PHU_CTRL, 14, 1⟩
def PHU_CTRL_SPC : Fld := ⟨PHU_CTRL, 12, 2⟩
def PHU_CTRL_RATE : Fld := ⟨PHU_CTRL, 8, 4⟩
def PHU_CTRL_ALIGNWAIT : Fld := ⟨PHU_CTRL, 6, 1⟩
def PHU_CTRL_EMITBAD : Fld := ⟨PHU_CTRL, 5, 1⟩
def PHU_CTRL_FMT : Fld := ⟨PHU_CTRL, 4, 1⟩
def PHU_CTRL_CLASSM : Fld := ⟨PHU_CTRL, 1, 1⟩
def PHU_CTRL_EN : Fld := ⟨PHU_CTRL, 0, 1⟩

/-- R338. PHU_STATUS (RO): state -/
def PHU_STATUS : Nat := 0x22004
def PHU_STATUS_SYNCERR : Fld := ⟨PHU_STATUS, 12, 1⟩
def PHU_STATUS_MTQ : Fld := ⟨PHU_STATUS, 8, 4⟩
def PHU_STATUS_GUARDPART : Fld := ⟨PHU_STATUS, 7, 1⟩
def PHU_STATUS_TQ : Fld := ⟨PHU_STATUS, 4, 3⟩
def PHU_STATUS_FILL : Fld := ⟨PHU_STATUS, 3, 1⟩
def PHU_STATUS_ALIGNPEND : Fld := ⟨PHU_STATUS, 2, 1⟩
def PHU_STATUS_EMIT : Fld := ⟨PHU_STATUS, 1, 1⟩
def PHU_STATUS_RUN : Fld := ⟨PHU_STATUS, 0, 1⟩

/-- R338. PHU_EVT (W1C): sticky events -/
def PHU_EVT : Nat := 0x22008
def PHU_EVT_CFGREF : Fld := ⟨PHU_EVT, 6, 1⟩
def PHU_EVT_STEP : Fld := ⟨PHU_EVT, 5, 1⟩
def PHU_EVT_FRDROP : Fld := ⟨PHU_EVT, 4, 1⟩
def PHU_EVT_FRSKIP : Fld := ⟨PHU_EVT, 3, 1⟩
def PHU_EVT_CHINVAL : Fld := ⟨PHU_EVT, 2, 1⟩
def PHU_EVT_SMPMISS : Fld := ⟨PHU_EVT, 1, 1⟩
def PHU_EVT_GUARDFAIL : Fld := ⟨PHU_EVT, 0, 1⟩

/-- R338. PHU_CFGERR (RO): result of the enable check (R315) -/
def PHU_CFGERR : Nat := 0x2200c
def PHU_CFGERR_GROUP : Fld := ⟨PHU_CFGERR, 4, 1⟩
def PHU_CFGERR_CHMAP : Fld := ⟨PHU_CFGERR, 3, 1⟩
def PHU_CFGERR_AAF : Fld := ⟨PHU_CFGERR, 2, 1⟩
def PHU_CFGERR_SEQ : Fld := ⟨PHU_CFGERR, 1, 1⟩
def PHU_CFGERR_RATE : Fld := ⟨PHU_CFGERR, 0, 1⟩

/-- R338. PHU_GUARD (RW): guard (R319) -/
def PHU_GUARD : Nat := 0x22010
def PHU_GUARD_PHMASK : Fld := ⟨PHU_GUARD, 24, 3⟩
def PHU_GUARD_GMAX : Fld := ⟨PHU_GUARD, 16, 8⟩
def PHU_GUARD_GUARD : Fld := ⟨PHU_GUARD, 0, 8⟩

/-- R338. PHU_TQ (RW): time quality and leap flags -/
def PHU_TQ : Nat := 0x22014
def PHU_TQ_CFGCHG : Fld := ⟨PHU_TQ, 11, 1⟩
def PHU_TQ_LEAPDIR : Fld := ⟨PHU_TQ, 10, 1⟩
def PHU_TQ_LEAPOCC : Fld := ⟨PHU_TQ, 9, 1⟩
def PHU_TQ_LEAPPEND : Fld := ⟨PHU_TQ, 8, 1⟩
def PHU_TQ_MTQLOCK : Fld := ⟨PHU_TQ, 4, 4⟩
def PHU_TQ_TQLOCK : Fld := ⟨PHU_TQ, 0, 3⟩

/-- R338. PHU_C37CFG (RW): C37.118.2 framing -/
def PHU_C37CFG : Nat := 0x22018
def PHU_C37CFG_VER : Fld := ⟨PHU_C37CFG, 28, 4⟩
def PHU_C37CFG_FRQFLT : Fld := ⟨PHU_C37CFG, 18, 1⟩
def PHU_C37CFG_PHFLT : Fld := ⟨PHU_C37CFG, 17, 1⟩
def PHU_C37CFG_PHPOL : Fld := ⟨PHU_C37CFG, 16, 1⟩
def PHU_C37CFG_IDCODE : Fld := ⟨PHU_C37CFG, 0, 16⟩

/-- R338. PHU_FRCNT (RO): [31:0] frames emitted; wraps -/
def PHU_FRCNT : Nat := 0x2201c

/-- R338. PHU_GUARDFAIL (RO, W1C): sequences without a clear shift -/
def PHU_GUARDFAIL : Nat := 0x22020
def PHU_GUARDFAIL_SAT : Fld := ⟨PHU_GUARDFAIL, 31, 1⟩
def PHU_GUARDFAIL_COUNT : Fld := ⟨PHU_GUARDFAIL, 0, 31⟩

/-- R338. PHU_SMPMISS (RO, W1C): invalid samples -/
def PHU_SMPMISS : Nat := 0x22024
def PHU_SMPMISS_SAT : Fld := ⟨PHU_SMPMISS, 31, 1⟩
def PHU_SMPMISS_COUNT : Fld := ⟨PHU_SMPMISS, 0, 31⟩

/-- R338. PHU_FRSKIP (RO, W1C): frames skipped (R318) -/
def PHU_FRSKIP : Nat := 0x22028
def PHU_FRSKIP_SAT : Fld := ⟨PHU_FRSKIP, 31, 1⟩
def PHU_FRSKIP_COUNT : Fld := ⟨PHU_FRSKIP, 0, 31⟩

/-- R338. PHU_FRDROP (RO, W1C): frames dropped at a full ring -/
def PHU_FRDROP : Nat := 0x2202c
def PHU_FRDROP_SAT : Fld := ⟨PHU_FRDROP, 31, 1⟩
def PHU_FRDROP_COUNT : Fld := ⟨PHU_FRDROP, 0, 31⟩

/-- R338. PHU_SHIFTMAX (RO, WO): [31] CLR (WO); [7:0] MAX: largest \ | σ\ | in ticks -/
def PHU_SHIFTMAX : Nat := 0x22030
def PHU_SHIFTMAX_CLR : Fld := ⟨PHU_SHIFTMAX, 31, 1⟩
def PHU_SHIFTMAX_MAX : Fld := ⟨PHU_SHIFTMAX, 0, 8⟩

/-- R338. PHU_GRP (RW): sequence groups -/
def PHU_GRP (i : Nat) : Nat := 0x22040 + i * 0x4
def PHU_GRP_EN (i : Nat) : Fld := ⟨PHU_GRP i, 31, 1⟩
def PHU_GRP_FREQ (i : Nat) : Fld := ⟨PHU_GRP i, 30, 1⟩
def PHU_GRP_CHL3 (i : Nat) : Fld := ⟨PHU_GRP i, 8, 4⟩
def PHU_GRP_CHL2 (i : Nat) : Fld := ⟨PHU_GRP i, 4, 4⟩
def PHU_GRP_CHL1 (i : Nat) : Fld := ⟨PHU_GRP i, 0, 4⟩

/-- R338. PHU_CHCFG (RW): channel configuration -/
def PHU_CHCFG (i : Nat) : Nat := 0x22080 + i * 0x4
def PHU_CHCFG_EN (i : Nat) : Fld := ⟨PHU_CHCFG i, 31, 1⟩
def PHU_CHCFG_TYPE (i : Nat) : Fld := ⟨PHU_CHCFG i, 30, 1⟩
def PHU_CHCFG_PH (i : Nat) : Fld := ⟨PHU_CHCFG i, 28, 2⟩
def PHU_CHCFG_ENT (i : Nat) : Fld := ⟨PHU_CHCFG i, 24, 4⟩
def PHU_CHCFG_CALDLY (i : Nat) : Fld := ⟨PHU_CHCFG i, 0, 16⟩

/-- R338. PHU_CHSCL (RW): float32 primary units per code -/
def PHU_CHSCL (i : Nat) : Nat := 0x220c0 + i * 0x4

/-- R338. PHU_CHUNIT (RW): [23:0] PHUNIT, 10^-5 units per integer LSB -/
def PHU_CHUNIT (i : Nat) : Nat := 0x22100 + i * 0x4
def PHU_CHUNIT_PHUNIT (i : Nat) : Fld := ⟨PHU_CHUNIT i, 0, 24⟩

/-- R342. TWU_CTRL (RW): enable, arming, modes, lag -/
def TWU_CTRL : Nat := 0x23000
def TWU_CTRL_LAGM1 : Fld := ⟨TWU_CTRL, 8, 3⟩
def TWU_CTRL_MODE : Fld := ⟨TWU_CTRL, 4, 2⟩
def TWU_CTRL_CAPEN : Fld := ⟨TWU_CTRL, 3, 1⟩
def TWU_CTRL_AUXTRIG : Fld := ⟨TWU_CTRL, 2, 1⟩
def TWU_CTRL_CONT : Fld := ⟨TWU_CTRL, 1, 1⟩
def TWU_CTRL_EN : Fld := ⟨TWU_CTRL, 0, 1⟩

/-- R342. TWU_STATUS (RO): state -/
def TWU_STATUS : Nat := 0x23004
def TWU_STATUS_NOSTREAM : Fld := ⟨TWU_STATUS, 5, 1⟩
def TWU_STATUS_NOBANK : Fld := ⟨TWU_STATUS, 4, 1⟩
def TWU_STATUS_COPY : Fld := ⟨TWU_STATUS, 3, 1⟩
def TWU_STATUS_HOLDOFF : Fld := ⟨TWU_STATUS, 2, 1⟩
def TWU_STATUS_POST : Fld := ⟨TWU_STATUS, 1, 1⟩
def TWU_STATUS_ARMED : Fld := ⟨TWU_STATUS, 0, 1⟩

/-- R342. TWU_EVT (W1C): sticky events -/
def TWU_EVT : Nat := 0x23008
def TWU_EVT_CFGREF : Fld := ⟨TWU_EVT, 8, 1⟩
def TWU_EVT_NOSTREAM : Fld := ⟨TWU_EVT, 7, 1⟩
def TWU_EVT_RECDROP : Fld := ⟨TWU_EVT, 6, 1⟩
def TWU_EVT_LOCERR : Fld := ⟨TWU_EVT, 5, 1⟩
def TWU_EVT_LOCDONE : Fld := ⟨TWU_EVT, 4, 1⟩
def TWU_EVT_OVERRUN : Fld := ⟨TWU_EVT, 3, 1⟩
def TWU_EVT_CAPSKIP : Fld := ⟨TWU_EVT, 2, 1⟩
def TWU_EVT_CLIP : Fld := ⟨TWU_EVT, 1, 1⟩
def TWU_EVT_TRIG : Fld := ⟨TWU_EVT, 0, 1⟩

/-- R342. TWU_THR (RW): [31:16] REFTHR, [15:0] THR, in codes per lag -/
def TWU_THR : Nat := 0x2300c
def TWU_THR_REFTHR : Fld := ⟨TWU_THR, 16, 16⟩
def TWU_THR_THR : Fld := ⟨TWU_THR, 0, 16⟩

/-- R342. TWU_WIN (RW): [31:16] POST µs, 10–1,500; [15:0] PRE µs, 1–500 -/
def TWU_WIN : Nat := 0x23010
def TWU_WIN_POST : Fld := ⟨TWU_WIN, 16, 16⟩
def TWU_WIN_PRE : Fld := ⟨TWU_WIN, 0, 16⟩

/-- R342. TWU_HOLDOFF (RW): [15:0] hold-off in µs -/
def TWU_HOLDOFF : Nat := 0x23014

/-- R342. TWU_VEL (RW): [31:0] wave velocity, m/ms, 100,000–299,792 -/
def TWU_VEL : Nat := 0x23018

/-- R342. TWU_LINELEN (RW): [31:0] line length in m -/
def TWU_LINELEN : Nat := 0x2301c

/-- R342. TWU_CHDLY (RW): [15:0] signed channel delay, 1/16 ns -/
def TWU_CHDLY (i : Nat) : Nat := 0x23020 + i * 0x4

/-- R342. TWU_ARMLEFT (RO): [31:0] armed time left in µs; 0xFFFF_FFFF with CONT -/
def TWU_ARMLEFT : Nat := 0x23030

/-- R342. TWU_RECID (RO): [31:0] last record ID -/
def TWU_RECID : Nat := 0x23034

/-- R342. TWU_TRIGCNT (RO, W1C): events -/
def TWU_TRIGCNT : Nat := 0x23038
def TWU_TRIGCNT_SAT : Fld := ⟨TWU_TRIGCNT, 31, 1⟩
def TWU_TRIGCNT_COUNT : Fld := ⟨TWU_TRIGCNT, 0, 31⟩

/-- R342. TWU_CAPSKIP (RO, W1C): waveforms skipped -/
def TWU_CAPSKIP : Nat := 0x2303c
def TWU_CAPSKIP_SAT : Fld := ⟨TWU_CAPSKIP, 31, 1⟩
def TWU_CAPSKIP_COUNT : Fld := ⟨TWU_CAPSKIP, 0, 31⟩

/-- R342. TWU_OVERRUN (RO, W1C): captures overrun -/
def TWU_OVERRUN : Nat := 0x23040
def TWU_OVERRUN_SAT : Fld := ⟨TWU_OVERRUN, 31, 1⟩
def TWU_OVERRUN_COUNT : Fld := ⟨TWU_OVERRUN, 0, 31⟩

/-- R342. TWU_RECDROP (RO, W1C): records dropped -/
def TWU_RECDROP : Nat := 0x23044
def TWU_RECDROP_SAT : Fld := ⟨TWU_RECDROP, 31, 1⟩
def TWU_RECDROP_COUNT : Fld := ⟨TWU_RECDROP, 0, 31⟩

/-- R342. TWU_LOCID (RW): [31:0] local record ID -/
def TWU_LOCID : Nat := 0x23050

/-- R342. TWU_RMT_SECL (RW): remote seconds, bits [31:0] -/
def TWU_RMT_SECL : Nat := 0x23054

/-- R342. TWU_RMT_NS (RW): [29:0] remote nanoseconds -/
def TWU_RMT_NS : Nat := 0x23058

/-- R342. TWU_RMT_FRAC (RW): [31:16] ERR: remote time error, ns; [7:0] remote 1/256 ns -/
def TWU_RMT_FRAC : Nat := 0x2305c
def TWU_RMT_FRAC_ERR : Fld := ⟨TWU_RMT_FRAC, 16, 16⟩
def TWU_RMT_FRAC_FR : Fld := ⟨TWU_RMT_FRAC, 0, 8⟩

/-- R342. TWU_LOCCMD (WO): [0] GO (R337) -/
def TWU_LOCCMD : Nat := 0x23060
def TWU_LOCCMD_GO : Fld := ⟨TWU_LOCCMD, 0, 1⟩

/-- R342. TWU_LOCRES (RO): [31:0] distance, 0.1 m -/
def TWU_LOCRES : Nat := 0x23064

/-- R342. TWU_LOCSTAT (RO): location state -/
def TWU_LOCSTAT : Nat := 0x23068
def TWU_LOCSTAT_EST : Fld := ⟨TWU_LOCSTAT, 16, 16⟩
def TWU_LOCSTAT_ERR : Fld := ⟨TWU_LOCSTAT, 4, 4⟩
def TWU_LOCSTAT_VALID : Fld := ⟨TWU_LOCSTAT, 1, 1⟩
def TWU_LOCSTAT_BUSY : Fld := ⟨TWU_LOCSTAT, 0, 1⟩

/-- R364. PWM_CTRL (RW, W1S): enable, commit -/
def PWM_CTRL (i : Nat) : Nat := 0x24000 + i * 0x100
def PWM_CTRL_COMMIT (i : Nat) : Fld := ⟨PWM_CTRL i, 1, 1⟩
def PWM_CTRL_EN (i : Nat) : Fld := ⟨PWM_CTRL i, 0, 1⟩

/-- R364. PWM_CFG (RWL): safe state, supply mode, handshake, alignment, dead time -/
def PWM_CFG (i : Nat) : Nat := 0x24004 + i * 0x100
def PWM_CFG_DT (i : Nat) : Fld := ⟨PWM_CFG i, 16, 11⟩
def PWM_CFG_ALIGN (i : Nat) : Fld := ⟨PWM_CFG i, 3, 1⟩
def PWM_CFG_HSK (i : Nat) : Fld := ⟨PWM_CFG i, 2, 1⟩
def PWM_CFG_BOOT (i : Nat) : Fld := ⟨PWM_CFG i, 1, 1⟩
def PWM_CFG_SAFE (i : Nat) : Fld := ⟨PWM_CFG i, 0, 1⟩

/-- R364. PWM_PER (RW): pending period -/
def PWM_PER (i : Nat) : Nat := 0x24008 + i * 0x100
def PWM_PER_GEN (i : Nat) : Fld := ⟨PWM_PER i, 28, 4⟩
def PWM_PER_VAL (i : Nat) : Fld := ⟨PWM_PER i, 4, 24⟩
def PWM_PER_FRAC (i : Nat) : Fld := ⟨PWM_PER i, 0, 4⟩

/-- R364. PWM_DUTY (RW): pending duty -/
def PWM_DUTY (i : Nat) : Nat := 0x2400c + i * 0x100
def PWM_DUTY_GEN (i : Nat) : Fld := ⟨PWM_DUTY i, 28, 4⟩
def PWM_DUTY_VAL (i : Nat) : Fld := ⟨PWM_DUTY i, 4, 24⟩
def PWM_DUTY_FRAC (i : Nat) : Fld := ⟨PWM_DUTY i, 0, 4⟩

/-- R364. PWM_PHASE (RW): [23:0] start offset in 250 ps units -/
def PWM_PHASE (i : Nat) : Nat := 0x24010 + i * 0x100

/-- R364. PWM_STATUS (RO): leg state -/
def PWM_STATUS (i : Nat) : Nat := 0x24014 + i * 0x100
def PWM_STATUS_GEN (i : Nat) : Fld := ⟨PWM_STATUS i, 12, 4⟩
def PWM_STATUS_DPH (i : Nat) : Fld := ⟨PWM_STATUS i, 8, 4⟩
def PWM_STATUS_PICOT (i : Nat) : Fld := ⟨PWM_STATUS i, 7, 1⟩
def PWM_STATUS_DTRUN (i : Nat) : Fld := ⟨PWM_STATUS i, 6, 1⟩
def PWM_STATUS_GL (i : Nat) : Fld := ⟨PWM_STATUS i, 5, 1⟩
def PWM_STATUS_GH (i : Nat) : Fld := ⟨PWM_STATUS i, 4, 1⟩
def PWM_STATUS_PEND (i : Nat) : Fld := ⟨PWM_STATUS i, 3, 1⟩
def PWM_STATUS_STATE (i : Nat) : Fld := ⟨PWM_STATUS i, 0, 3⟩

/-- R364. PWM_EVT (W1C): sticky events -/
def PWM_EVT (i : Nat) : Nat := 0x24018 + i * 0x100
def PWM_EVT_ENREF (i : Nat) : Fld := ⟨PWM_EVT i, 3, 1⟩
def PWM_EVT_CFGREF (i : Nat) : Fld := ⟨PWM_EVT i, 2, 1⟩
def PWM_EVT_PICOT (i : Nat) : Fld := ⟨PWM_EVT i, 1, 1⟩
def PWM_EVT_UPD_SPLIT (i : Nat) : Fld := ⟨PWM_EVT i, 0, 1⟩

/-- R364. PWM_SPLIT (RO, W1C): split updates (R348) -/
def PWM_SPLIT (i : Nat) : Nat := 0x2401c + i * 0x100
def PWM_SPLIT_SAT (i : Nat) : Fld := ⟨PWM_SPLIT i, 31, 1⟩
def PWM_SPLIT_COUNT (i : Nat) : Fld := ⟨PWM_SPLIT i, 0, 31⟩

/-- R364. PWM_PICOT (RO, W1C): Picot insertions -/
def PWM_PICOT (i : Nat) : Nat := 0x24020 + i * 0x100
def PWM_PICOT_SAT (i : Nat) : Fld := ⟨PWM_PICOT i, 31, 1⟩
def PWM_PICOT_COUNT (i : Nat) : Fld := ⟨PWM_PICOT i, 0, 31⟩

/-- R364. PWM_CURPER (RO): period in force; layout of PWM_PERn -/
def PWM_CURPER (i : Nat) : Nat := 0x24024 + i * 0x100
def PWM_CURPER_GEN (i : Nat) : Fld := ⟨PWM_CURPER i, 28, 4⟩
def PWM_CURPER_VAL (i : Nat) : Fld := ⟨PWM_CURPER i, 4, 24⟩
def PWM_CURPER_FRAC (i : Nat) : Fld := ⟨PWM_CURPER i, 0, 4⟩

/-- R364. PWM_CURDUTY (RO): duty in force; layout of PWM_PERn -/
def PWM_CURDUTY (i : Nat) : Nat := 0x24028 + i * 0x100
def PWM_CURDUTY_GEN (i : Nat) : Fld := ⟨PWM_CURDUTY i, 28, 4⟩
def PWM_CURDUTY_VAL (i : Nat) : Fld := ⟨PWM_CURDUTY i, 4, 24⟩
def PWM_CURDUTY_FRAC (i : Nat) : Fld := ⟨PWM_CURDUTY i, 0, 4⟩

/-- R364. PWM_PCNT (RO): [31:0] periods since start; wraps -/
def PWM_PCNT (i : Nat) : Nat := 0x2402c + i * 0x100

/-- R364. PWM_GSTART (WO): [11:0] bit n: start leg n (R347) -/
def PWM_GSTART : Nat := 0x24c00

/-- R364. PWM_PICOT_W (RW): [10:0] refresh pulse in 2 ns units, 50–1,000 -/
def PWM_PICOT_W : Nat := 0x24c04

/-- R364. PWM_PICOT_MAXON (RW): [15:0] continuous high-side time in µs, 10–65,535 -/
def PWM_PICOT_MAXON : Nat := 0x24c08

/-- R364. PWM_OUTSTAT (RO): gate output levels -/
def PWM_OUTSTAT : Nat := 0x24c0c
def PWM_OUTSTAT_GL : Fld := ⟨PWM_OUTSTAT, 12, 12⟩
def PWM_OUTSTAT_GH : Fld := ⟨PWM_OUTSTAT, 0, 12⟩

/-- R364. PWM_FBSTAT (RO): acknowledge inputs -/
def PWM_FBSTAT : Nat := 0x24c10
def PWM_FBSTAT_GFBL : Fld := ⟨PWM_FBSTAT, 12, 12⟩
def PWM_FBSTAT_GFBH : Fld := ⟨PWM_FBSTAT, 0, 12⟩

/-- R369. SELV_STATUS (RO): latches and pin -/
def SELV_STATUS : Nat := 0x25000
def SELV_STATUS_BRKPIN : Fld := ⟨SELV_STATUS, 14, 1⟩
def SELV_STATUS_BRK : Fld := ⟨SELV_STATUS, 13, 1⟩
def SELV_STATUS_STACK : Fld := ⟨SELV_STATUS, 12, 1⟩
def SELV_STATUS_LEGS : Fld := ⟨SELV_STATUS, 0, 12⟩

/-- R369. SELV_EVT (W1C): sticky events -/
def SELV_EVT : Nat := 0x25004
def SELV_EVT_CFGREF : Fld := ⟨SELV_EVT, 6, 1⟩
def SELV_EVT_CLRREF : Fld := ⟨SELV_EVT, 5, 1⟩
def SELV_EVT_SUPPLY : Fld := ⟨SELV_EVT, 4, 1⟩
def SELV_EVT_ACKFAIL : Fld := ⟨SELV_EVT, 3, 1⟩
def SELV_EVT_BRKTRIP : Fld := ⟨SELV_EVT, 2, 1⟩
def SELV_EVT_STACKTRIP : Fld := ⟨SELV_EVT, 1, 1⟩
def SELV_EVT_LEGTRIP : Fld := ⟨SELV_EVT, 0, 1⟩

/-- R369. SELV_CLR (WO): release request (R362) -/
def SELV_CLR : Nat := 0x25008
def SELV_CLR_KEY : Fld := ⟨SELV_CLR, 16, 16⟩
def SELV_CLR_BRK : Fld := ⟨SELV_CLR, 13, 1⟩
def SELV_CLR_STACK : Fld := ⟨SELV_CLR, 12, 1⟩
def SELV_CLR_LEGS : Fld := ⟨SELV_CLR, 0, 12⟩

/-- R369. SELV_FORCE (WO): forced trip; layout of SELV_CLR -/
def SELV_FORCE : Nat := 0x2500c
def SELV_FORCE_KEY : Fld := ⟨SELV_FORCE, 16, 16⟩
def SELV_FORCE_BRK : Fld := ⟨SELV_FORCE, 13, 1⟩
def SELV_FORCE_STACK : Fld := ⟨SELV_FORCE, 12, 1⟩
def SELV_FORCE_LEGS : Fld := ⟨SELV_FORCE, 0, 12⟩

/-- R369. SELV_FIRST (RO, W1C): first source -/
def SELV_FIRST : Nat := 0x25010
def SELV_FIRST_VALID : Fld := ⟨SELV_FIRST, 31, 1⟩
def SELV_FIRST_SIMUL : Fld := ⟨SELV_FIRST, 30, 1⟩
def SELV_FIRST_SRC : Fld := ⟨SELV_FIRST, 16, 6⟩
def SELV_FIRST_LEG : Fld := ⟨SELV_FIRST, 0, 4⟩

/-- R369. SELV_FIRSTTS_LO (RO): tick of the first decision, bits [31:0] -/
def SELV_FIRSTTS_LO : Nat := 0x25014

/-- R369. SELV_FIRSTTS_HI (RO): bits [63:32] -/
def SELV_FIRSTTS_HI : Nat := 0x25018

/-- R369. SELV_CAUSE0 (W1C): bit i: source i latched, i = 0–31 -/
def SELV_CAUSE0 : Nat := 0x2501c

/-- R369. SELV_CAUSE1 (W1C): bit i: source 32 + i latched -/
def SELV_CAUSE1 : Nat := 0x25020

/-- R369. SELV_LIVE0 (RO): bit i: source i condition present -/
def SELV_LIVE0 : Nat := 0x25024

/-- R369. SELV_LIVE1 (RO): bit i: source 32 + i condition present -/
def SELV_LIVE1 : Nat := 0x25028

/-- R369. SELV_CLR_REFUSED (RO, W1C): refused release writes -/
def SELV_CLR_REFUSED : Nat := 0x2502c
def SELV_CLR_REFUSED_SAT : Fld := ⟨SELV_CLR_REFUSED, 31, 1⟩
def SELV_CLR_REFUSED_COUNT : Fld := ⟨SELV_CLR_REFUSED, 0, 31⟩

/-- R369. SELV_ACK_TMO (RWL): [10:0] acknowledge timeout in ticks, 10–2,000 -/
def SELV_ACK_TMO : Nat := 0x25030

/-- R369. SELV_BRKMIN (RWL): [15:0] minimum BRK_TRIP_N assertion in ms, 10–10,000 -/
def SELV_BRKMIN : Nat := 0x25034

/-- R369. SELV_LOCK (W1S): [0] CFG: lock (R372) -/
def SELV_LOCK : Nat := 0x25038
def SELV_LOCK_CFG : Fld := ⟨SELV_LOCK, 0, 1⟩

/-- R369. SELV_TRIPCFG (RWL): [8k+7:8k] FILTk: TRIPk_N filter in 20 ns units -/
def SELV_TRIPCFG : Nat := 0x2503c
def SELV_TRIPCFG_FILT0 : Fld := ⟨SELV_TRIPCFG, 0, 8⟩
def SELV_TRIPCFG_FILT1 : Fld := ⟨SELV_TRIPCFG, 8, 8⟩
def SELV_TRIPCFG_FILT2 : Fld := ⟨SELV_TRIPCFG, 16, 8⟩
def SELV_TRIPCFG_FILT3 : Fld := ⟨SELV_TRIPCFG, 24, 8⟩

/-- R369. SELV_XCFG (RWL): actions of TRIP0–TRIP3 (k = 0–3) and comparators 0–7 (k = 4–11) -/
def SELV_XCFG (i : Nat) : Nat := 0x25040 + i * 0x4
def SELV_XCFG_EN (i : Nat) : Fld := ⟨SELV_XCFG i, 31, 1⟩
def SELV_XCFG_STACK (i : Nat) : Fld := ⟨SELV_XCFG i, 30, 1⟩
def SELV_XCFG_BRK (i : Nat) : Fld := ⟨SELV_XCFG i, 29, 1⟩
def SELV_XCFG_LEGS (i : Nat) : Fld := ⟨SELV_XCFG i, 0, 12⟩

/-- R369. SELV_LCFG (RWL): leg sources of leg n -/
def SELV_LCFG (i : Nat) : Nat := 0x25080 + i * 0x4
def SELV_LCFG_DSATEN (i : Nat) : Fld := ⟨SELV_LCFG i, 31, 1⟩
def SELV_LCFG_FOCEN (i : Nat) : Fld := ⟨SELV_LCFG i, 30, 1⟩
def SELV_LCFG_BSUVEN (i : Nat) : Fld := ⟨SELV_LCFG i, 29, 1⟩
def SELV_LCFG_STACK (i : Nat) : Fld := ⟨SELV_LCFG i, 28, 1⟩
def SELV_LCFG_BRK (i : Nat) : Fld := ⟨SELV_LCFG i, 27, 1⟩
def SELV_LCFG_BLANK (i : Nat) : Fld := ⟨SELV_LCFG i, 16, 8⟩
def SELV_LCFG_DSATFILT (i : Nat) : Fld := ⟨SELV_LCFG i, 12, 4⟩
def SELV_LCFG_GRP (i : Nat) : Fld := ⟨SELV_LCFG i, 0, 12⟩

/-- R369. SELV_LTS (RO): [31:0] tick low word of leg n's last latch -/
def SELV_LTS (i : Nat) : Nat := 0x250c0 + i * 0x4

/-- R393. FLT_CTRL (RWL): auto-hold classes, event stream -/
def FLT_CTRL : Nat := 0x26000
def FLT_CTRL_STREAM : Fld := ⟨FLT_CTRL, 3, 1⟩
def FLT_CTRL_AUTOHOLD : Fld := ⟨FLT_CTRL, 0, 3⟩

/-- R393. FLT_STATUS (RO): collector state -/
def FLT_STATUS : Nat := 0x26004
def FLT_STATUS_FATAL : Fld := ⟨FLT_STATUS, 31, 1⟩
def FLT_STATUS_TRIPCLR : Fld := ⟨FLT_STATUS, 30, 1⟩
def FLT_STATUS_LOGBUSY : Fld := ⟨FLT_STATUS, 29, 1⟩
def FLT_STATUS_ERRPIN : Fld := ⟨FLT_STATUS, 28, 1⟩
def FLT_STATUS_FIFOLVL : Fld := ⟨FLT_STATUS, 16, 10⟩

/-- R393. FLT_FIRST (RO, W1C): first event -/
def FLT_FIRST : Nat := 0x26008
def FLT_FIRST_VALID : Fld := ⟨FLT_FIRST, 31, 1⟩
def FLT_FIRST_COF : Fld := ⟨FLT_FIRST, 30, 1⟩
def FLT_FIRST_CLASS : Fld := ⟨FLT_FIRST, 24, 2⟩
def FLT_FIRST_INST : Fld := ⟨FLT_FIRST, 16, 8⟩
def FLT_FIRST_SRC : Fld := ⟨FLT_FIRST, 0, 8⟩

/-- R393. FLT_FIRSTTS_LO (RO): tick of the first event, bits [31:0] -/
def FLT_FIRSTTS_LO : Nat := 0x2600c

/-- R393. FLT_FIRSTTS_HI (RO): bits [63:32] -/
def FLT_FIRSTTS_HI : Nat := 0x26010

/-- R393. FLT_ERRPIN_MINW (RWL): [9:0] MINW: minimum ERR_N pulse in µs, 1–1,000 -/
def FLT_ERRPIN_MINW : Nat := 0x26014
def FLT_ERRPIN_MINW_MINW : Fld := ⟨FLT_ERRPIN_MINW, 0, 10⟩

/-- R393. FLT_ERRPIN_HOLD (RW): [0] HOLD (R384) -/
def FLT_ERRPIN_HOLD : Nat := 0x26018
def FLT_ERRPIN_HOLD_HOLD : Fld := ⟨FLT_ERRPIN_HOLD, 0, 1⟩

/-- R393. FLT_IRQVEC (RW): [21:16] VECF, [13:8] VECU, [5:0] VECC: MSI-X vectors -/
def FLT_IRQVEC : Nat := 0x2601c
def FLT_IRQVEC_VECF : Fld := ⟨FLT_IRQVEC, 16, 6⟩
def FLT_IRQVEC_VECU : Fld := ⟨FLT_IRQVEC, 8, 6⟩
def FLT_IRQVEC_VECC : Fld := ⟨FLT_IRQVEC, 0, 6⟩

/-- R393. FLT_SAFEHOLD (RO): held Selvage requests -/
def FLT_SAFEHOLD : Nat := 0x26020
def FLT_SAFEHOLD_ALL : Fld := ⟨FLT_SAFEHOLD, 13, 1⟩
def FLT_SAFEHOLD_STACK : Fld := ⟨FLT_SAFEHOLD, 12, 1⟩
def FLT_SAFEHOLD_LEGS : Fld := ⟨FLT_SAFEHOLD, 0, 12⟩

/-- R393. FLT_RELEASE (WO): release (R385) -/
def FLT_RELEASE : Nat := 0x26024
def FLT_RELEASE_KEY : Fld := ⟨FLT_RELEASE, 16, 16⟩
def FLT_RELEASE_TRIPCLR : Fld := ⟨FLT_RELEASE, 2, 1⟩
def FLT_RELEASE_SAFE : Fld := ⟨FLT_RELEASE, 1, 1⟩

/-- R393. FLT_INJ (WO): event injection (R387) -/
def FLT_INJ : Nat := 0x26028
def FLT_INJ_DUR : Fld := ⟨FLT_INJ, 24, 8⟩
def FLT_INJ_INST : Fld := ⟨FLT_INJ, 16, 8⟩
def FLT_INJ_SRC : Fld := ⟨FLT_INJ, 0, 8⟩

/-- R393. FLT_ECCINJ (RW): check-bit injection (R388) -/
def FLT_ECCINJ : Nat := 0x2602c
def FLT_ECCINJ_ARM : Fld := ⟨FLT_ECCINJ, 31, 1⟩
def FLT_ECCINJ_TARGET : Fld := ⟨FLT_ECCINJ, 16, 8⟩
def FLT_ECCINJ_UNIT : Fld := ⟨FLT_ECCINJ, 8, 8⟩
def FLT_ECCINJ_MASK : Fld := ⟨FLT_ECCINJ, 0, 8⟩

/-- R393. FLT_LOCK (W1S): [1] INJOFF, [0] CFG -/
def FLT_LOCK : Nat := 0x26030
def FLT_LOCK_INJOFF : Fld := ⟨FLT_LOCK, 1, 1⟩
def FLT_LOCK_CFG : Fld := ⟨FLT_LOCK, 0, 1⟩

/-- R393. FLT_LOGSTAT (RO): log fill state -/
def FLT_LOGSTAT : Nat := 0x26034
def FLT_LOGSTAT_PINCNT : Fld := ⟨FLT_LOGSTAT, 16, 9⟩
def FLT_LOGSTAT_WRIDX : Fld := ⟨FLT_LOGSTAT, 0, 16⟩

/-- R393. FLT_LOGCLR (WO): [31:16] KEY 0xF1E0; [0] GO (R389) -/
def FLT_LOGCLR : Nat := 0x26038
def FLT_LOGCLR_KEY : Fld := ⟨FLT_LOGCLR, 16, 16⟩
def FLT_LOGCLR_GO : Fld := ⟨FLT_LOGCLR, 0, 1⟩

/-- R393. FLT_NEXTID (RO): [31:0] RECID of the next record; wraps -/
def FLT_NEXTID : Nat := 0x2603c

/-- R393. FLT_LOG_WRAP (RO, W1C): wrap-area overwrites -/
def FLT_LOG_WRAP : Nat := 0x26040
def FLT_LOG_WRAP_SAT : Fld := ⟨FLT_LOG_WRAP, 31, 1⟩
def FLT_LOG_WRAP_COUNT : Fld := ⟨FLT_LOG_WRAP, 0, 31⟩

/-- R393. FLT_LOST (RO, W1C): records lost at a full FIFO -/
def FLT_LOST : Nat := 0x26044
def FLT_LOST_SAT : Fld := ⟨FLT_LOST, 31, 1⟩
def FLT_LOST_COUNT : Fld := ⟨FLT_LOST, 0, 31⟩

/-- R393. FLT_STRDROP (RO, W1C): ring 18 copies dropped -/
def FLT_STRDROP : Nat := 0x26048
def FLT_STRDROP_SAT : Fld := ⟨FLT_STRDROP, 31, 1⟩
def FLT_STRDROP_COUNT : Fld := ⟨FLT_STRDROP, 0, 31⟩

/-- R393. FLT_RELREF (RO, W1C): refused releases, injections and log clears (R385, R387–R389) -/
def FLT_RELREF : Nat := 0x2604c
def FLT_RELREF_SAT : Fld := ⟨FLT_RELREF, 31, 1⟩
def FLT_RELREF_COUNT : Fld := ⟨FLT_RELREF, 0, 31⟩

/-- R393. FLT_CAUSE (W1C): bit i: source 32k + i raised an event -/
def FLT_CAUSE (i : Nat) : Nat := 0x26100 + i * 0x4

/-- R393. FLT_LIVE (RO): bit i: source 32k + i live (R383) -/
def FLT_LIVE (i : Nat) : Nat := 0x26120 + i * 0x4

/-- R393. FLT_COFIRST (W1C): bit i: source 32k + i co-first (R382) -/
def FLT_COFIRST (i : Nat) : Nat := 0x26140 + i * 0x4

/-- R393. FLT_ESC (W1C): bit i: source 32k + i escalated (R375) -/
def FLT_ESC (i : Nat) : Nat := 0x26160 + i * 0x4

/-- R393. FLT_CBYP (W1C): bit i: cell 32k + i bypassed by reaction (R381, R385) -/
def FLT_CBYP (i : Nat) : Nat := 0x26180 + i * 0x4

/-- R393. FLT_SCNT (RO, W1C): events of source n -/
def FLT_SCNT (i : Nat) : Nat := 0x26800 + i * 0x4
def FLT_SCNT_SAT (i : Nat) : Fld := ⟨FLT_SCNT i, 31, 1⟩
def FLT_SCNT_COUNT (i : Nat) : Fld := ⟨FLT_SCNT i, 0, 31⟩

/-- R393. FLT_SCFG (RWL): classification of source n -/
def FLT_SCFG (i : Nat) : Nat := 0x27000 + i * 0x10
def FLT_SCFG_CLASS (i : Nat) : Fld := ⟨FLT_SCFG i, 29, 2⟩
def FLT_SCFG_MODE (i : Nat) : Fld := ⟨FLT_SCFG i, 28, 1⟩
def FLT_SCFG_LOGMODE (i : Nat) : Fld := ⟨FLT_SCFG i, 27, 1⟩
def FLT_SCFG_N (i : Nat) : Fld := ⟨FLT_SCFG i, 16, 8⟩
def FLT_SCFG_W (i : Nat) : Fld := ⟨FLT_SCFG i, 0, 16⟩

/-- R393. FLT_SREACT (RWL): reaction sets of source n -/
def FLT_SREACT (i : Nat) : Nat := 0x27004 + i * 0x10
def FLT_SREACT_EREACT (i : Nat) : Fld := ⟨FLT_SREACT i, 8, 8⟩
def FLT_SREACT_REACT (i : Nat) : Fld := ⟨FLT_SREACT i, 0, 8⟩

/-- R393. FLT_STGT (RWL): reaction targets of source n -/
def FLT_STGT (i : Nat) : Nat := 0x27008 + i * 0x10
def FLT_STGT_CELL (i : Nat) : Fld := ⟨FLT_STGT i, 24, 8⟩
def FLT_STGT_LEGS (i : Nat) : Fld := ⟨FLT_STGT i, 0, 12⟩

/-- R431. RDN_CTRL (RW, W1S): enable and commands -/
def RDN_CTRL : Nat := 0x2d000
def RDN_CTRL_HOABORT : Fld := ⟨RDN_CTRL, 4, 1⟩
def RDN_CTRL_HOREQ : Fld := ⟨RDN_CTRL, 3, 1⟩
def RDN_CTRL_CLAIMGO : Fld := ⟨RDN_CTRL, 2, 1⟩
def RDN_CTRL_TEST : Fld := ⟨RDN_CTRL, 1, 1⟩
def RDN_CTRL_EN : Fld := ⟨RDN_CTRL, 0, 1⟩

/-- R431. RDN_CFG (RWL): identity, wiring, heartbeat -/
def RDN_CFG : Nat := 0x2d004
def RDN_CFG_HBMISS : Fld := ⟨RDN_CFG, 24, 4⟩
def RDN_CFG_FENCEPER : Fld := ⟨RDN_CFG, 16, 8⟩
def RDN_CFG_H0FOLLOW : Fld := ⟨RDN_CFG, 5, 1⟩
def RDN_CFG_REVERT : Fld := ⟨RDN_CFG, 4, 1⟩
def RDN_CFG_WIRING : Fld := ⟨RDN_CFG, 3, 1⟩
def RDN_CFG_PREFB : Fld := ⟨RDN_CFG, 2, 1⟩
def RDN_CFG_UNITB : Fld := ⟨RDN_CFG, 1, 1⟩

/-- R431. RDN_STATUS (RO): state -/
def RDN_STATUS : Nat := 0x2d008
def RDN_STATUS_STATE : Fld := ⟨RDN_STATUS, 29, 3⟩
def RDN_STATUS_HOARMED : Fld := ⟨RDN_STATUS, 27, 1⟩
def RDN_STATUS_COLD : Fld := ⟨RDN_STATUS, 26, 1⟩
def RDN_STATUS_SNAPMIX : Fld := ⟨RDN_STATUS, 25, 1⟩
def RDN_STATUS_STATEOK : Fld := ⟨RDN_STATUS, 24, 1⟩
def RDN_STATUS_TESTOK : Fld := ⟨RDN_STATUS, 23, 1⟩
def RDN_STATUS_CTLOCK : Fld := ⟨RDN_STATUS, 22, 1⟩
def RDN_STATUS_CFGMIS : Fld := ⟨RDN_STATUS, 21, 1⟩
def RDN_STATUS_FENCED : Fld := ⟨RDN_STATUS, 20, 1⟩
def RDN_STATUS_SHPATH : Fld := ⟨RDN_STATUS, 19, 1⟩
def RDN_STATUS_CHPATH : Fld := ⟨RDN_STATUS, 18, 1⟩
def RDN_STATUS_HOLDSHORT : Fld := ⟨RDN_STATUS, 16, 1⟩

/-- R431. RDN_EVT (W1C): sticky events; fault sources -/
def RDN_EVT : Nat := 0x2d00c
def RDN_EVT_HOFAIL : Fld := ⟨RDN_EVT, 7, 1⟩
def RDN_EVT_TESTFAIL : Fld := ⟨RDN_EVT, 6, 1⟩
def RDN_EVT_CFGMIS : Fld := ⟨RDN_EVT, 5, 1⟩
def RDN_EVT_CLAIMLOST : Fld := ⟨RDN_EVT, 4, 1⟩
def RDN_EVT_TAKEOVER : Fld := ⟨RDN_EVT, 3, 1⟩
def RDN_EVT_FENCED : Fld := ⟨RDN_EVT, 2, 1⟩
def RDN_EVT_PARTNERLOSS : Fld := ⟨RDN_EVT, 1, 1⟩
def RDN_EVT_PATHLOSS : Fld := ⟨RDN_EVT, 0, 1⟩

/-- R431. RDN_LOCK (W1S): [0] CFG -/
def RDN_LOCK : Nat := 0x2d010
def RDN_LOCK_CFG : Fld := ⟨RDN_LOCK, 0, 1⟩

/-- R431. RDN_STALE_MS (RW): [15:0] checkpoint age limit, 1–65,535 ms -/
def RDN_STALE_MS : Nat := 0x2d014

/-- R431. RDN_REVERT_S (RW): [15:0] healthy standby time before return, 10–65,535 s -/
def RDN_REVERT_S : Nat := 0x2d018

/-- R431. RDN_SNAPCFG (RW): [15:0] PERIOD: snapshot period, 1–1,000 ms -/
def RDN_SNAPCFG : Nat := 0x2d01c
def RDN_SNAPCFG_PERIOD : Fld := ⟨RDN_SNAPCFG, 0, 16⟩

/-- R431. RDN_PSTAT (RO): partner state -/
def RDN_PSTAT : Nat := 0x2d020
def RDN_PSTAT_HSTAT : Fld := ⟨RDN_PSTAT, 24, 8⟩
def RDN_PSTAT_HCMD : Fld := ⟨RDN_PSTAT, 16, 8⟩
def RDN_PSTAT_ROLE : Fld := ⟨RDN_PSTAT, 14, 2⟩
def RDN_PSTAT_AGE : Fld := ⟨RDN_PSTAT, 0, 8⟩

/-- R431. RDN_PEPOCH (RO): [31:0] partner epoch last received -/
def RDN_PEPOCH : Nat := 0x2d024

/-- R431. RDN_HEAL (RO): [23:0] bit c: chain c healed -/
def RDN_HEAL : Nat := 0x2d028

/-- R431. RDN_H0DIFF (RO): [31:0] signed angle (R407) -/
def RDN_H0DIFF : Nat := 0x2d02c

/-- R431. RDN_CTOFS_LO (RO): offset, ticks, bits [31:0] -/
def RDN_CTOFS_LO : Nat := 0x2d030

/-- R431. RDN_CTOFS_HI (RO): bits [63:32] -/
def RDN_CTOFS_HI : Nat := 0x2d034

/-- R431. RDN_CTOFS_FR (RO): [15:0] fraction, 2^-16 tick -/
def RDN_CTOFS_FR : Nat := 0x2d038

/-- R431. RDN_SHDLY (RO): [31:0] Shuttle one-way delay, 2^-16 ns -/
def RDN_SHDLY : Nat := 0x2d03c

/-- R431. RDN_DSEQ (RO): [31:0] CYC of the last complete delta -/
def RDN_DSEQ : Nat := 0x2d040

/-- R431. RDN_SNAPGEN (RO): [31:0] last complete snapshot; wraps -/
def RDN_SNAPGEN : Nat := 0x2d044

/-- R431. RDN_LASTGAP (RO): [7:0] held windows at the last takeover -/
def RDN_LASTGAP : Nat := 0x2d048

/-- R431. RDN_HBLOSS (RO, W1C): heartbeat path losses -/
def RDN_HBLOSS : Nat := 0x2d04c
def RDN_HBLOSS_SAT : Fld := ⟨RDN_HBLOSS, 31, 1⟩
def RDN_HBLOSS_COUNT : Fld := ⟨RDN_HBLOSS, 0, 31⟩

/-- R431. RDN_TAKEOVERS (RO, W1C): claims won -/
def RDN_TAKEOVERS : Nat := 0x2d050
def RDN_TAKEOVERS_SAT : Fld := ⟨RDN_TAKEOVERS, 31, 1⟩
def RDN_TAKEOVERS_COUNT : Fld := ⟨RDN_TAKEOVERS, 0, 31⟩

/-- R431. RDN_DROP (RO, W1C): deltas abandoned or discarded -/
def RDN_DROP : Nat := 0x2d054
def RDN_DROP_SAT : Fld := ⟨RDN_DROP, 31, 1⟩
def RDN_DROP_COUNT : Fld := ⟨RDN_DROP, 0, 31⟩

/-- R431. RDN_SHERR (RO, W1C): Shuttle frames discarded -/
def RDN_SHERR : Nat := 0x2d058
def RDN_SHERR_SAT : Fld := ⟨RDN_SHERR, 31, 1⟩
def RDN_SHERR_COUNT : Fld := ⟨RDN_SHERR, 0, 31⟩

/-- R431. RDN_TESTFAIL (RO, W1C): failed LBIST tiles -/
def RDN_TESTFAIL : Nat := 0x2d05c
def RDN_TESTFAIL_SAT : Fld := ⟨RDN_TESTFAIL, 31, 1⟩
def RDN_TESTFAIL_COUNT : Fld := ⟨RDN_TESTFAIL, 0, 31⟩

/-- R431. RDN_RBASE (RW): [31:2] engine address of region r; [1:0] reserved -/
def RDN_RBASE (i : Nat) : Nat := 0x2d080 + i * 0x8
def RDN_RBASE_ADDR (i : Nat) : Fld := ⟨RDN_RBASE i, 2, 30⟩

/-- R431. RDN_RLEN (RW): [31] EN; [30] SNAP: 1 snapshot region, 0 cycle region; [20:2] length in words; [1:0] reserved -/
def RDN_RLEN (i : Nat) : Nat := 0x2d084 + i * 0x8
def RDN_RLEN_EN (i : Nat) : Fld := ⟨RDN_RLEN i, 31, 1⟩
def RDN_RLEN_SNAP (i : Nat) : Fld := ⟨RDN_RLEN i, 30, 1⟩
def RDN_RLEN_LEN (i : Nat) : Fld := ⟨RDN_RLEN i, 2, 19⟩

/-- R455. THM_CTRL (RW): [7:4] NSTEP, 0–8 (R439); [1] CELLEN; [0] EN: throttle evaluation; others reserved -/
def THM_CTRL : Nat := 0x28000
def THM_CTRL_NSTEP : Fld := ⟨THM_CTRL, 4, 4⟩
def THM_CTRL_CELLEN : Fld := ⟨THM_CTRL, 1, 1⟩
def THM_CTRL_EN : Fld := ⟨THM_CTRL, 0, 1⟩

/-- R455. THM_STATUS (RO): [7] LVL; [6] IMM; [5] STOP; [4] FROZEN; [3:0] STEP; others reserved -/
def THM_STATUS : Nat := 0x28004
def THM_STATUS_LVL : Fld := ⟨THM_STATUS, 7, 1⟩
def THM_STATUS_IMM : Fld := ⟨THM_STATUS, 6, 1⟩
def THM_STATUS_STOP : Fld := ⟨THM_STATUS, 5, 1⟩
def THM_STATUS_FROZEN : Fld := ⟨THM_STATUS, 4, 1⟩
def THM_STATUS_STEP : Fld := ⟨THM_STATUS, 0, 4⟩

/-- R455. THM_EVT (W1C): sticky events -/
def THM_EVT : Nat := 0x28008
def THM_EVT_CFGREF : Fld := ⟨THM_EVT, 10, 1⟩
def THM_EVT_HKSTALE : Fld := ⟨THM_EVT, 9, 1⟩
def THM_EVT_CELLTFAIL : Fld := ⟨THM_EVT, 8, 1⟩
def THM_EVT_YIELD : Fld := ⟨THM_EVT, 7, 1⟩
def THM_EVT_IMMSAFE : Fld := ⟨THM_EVT, 6, 1⟩
def THM_EVT_ORDERLY : Fld := ⟨THM_EVT, 5, 1⟩
def THM_EVT_STOPLVL : Fld := ⟨THM_EVT, 4, 1⟩
def THM_EVT_HOTFAIL : Fld := ⟨THM_EVT, 3, 1⟩
def THM_EVT_SENSFAIL : Fld := ⟨THM_EVT, 2, 1⟩
def THM_EVT_STEPDN : Fld := ⟨THM_EVT, 1, 1⟩
def THM_EVT_STEPUP : Fld := ⟨THM_EVT, 0, 1⟩

/-- R455. THM_LIMIT (RO): [15:12] STEP; [8:0] LIM in 1/256 of rating, 256 = full -/
def THM_LIMIT : Nat := 0x2800c
def THM_LIMIT_STEP : Fld := ⟨THM_LIMIT, 12, 4⟩
def THM_LIMIT_LIM : Fld := ⟨THM_LIMIT, 0, 9⟩

/-- R455. THM_STOPCFG (RWL): [16] YIELD; [15:8] TBRK in 0.1 ms, 5–45; [7:0] TSTOP in °C, 110–134 -/
def THM_STOPCFG : Nat := 0x28010
def THM_STOPCFG_YIELD : Fld := ⟨THM_STOPCFG, 16, 1⟩
def THM_STOPCFG_TBRK : Fld := ⟨THM_STOPCFG, 8, 8⟩
def THM_STOPCFG_TSTOP : Fld := ⟨THM_STOPCFG, 0, 8⟩

/-- R455. THM_DIE (RO): [31:16] TDIE, Q12.4 °C; [15:0] SLOPE, signed, 1/256 K/ms -/
def THM_DIE : Nat := 0x28014
def THM_DIE_TDIE : Fld := ⟨THM_DIE, 16, 16⟩
def THM_DIE_SLOPE : Fld := ⟨THM_DIE, 0, 16⟩

/-- R455. THM_FAIL_OFS (RW): [15:0] offset of R442, Q12.4 K, 0–50 K -/
def THM_FAIL_OFS : Nat := 0x28018

/-- R455. THM_ACK (WO): [0] ACK (R442) -/
def THM_ACK : Nat := 0x2801c
def THM_ACK_ACK : Fld := ⟨THM_ACK, 0, 1⟩

/-- R455. THM_SFAIL (RO, W1C): [23:0] bit i: sensor i failed; writing 1 re-admits it (R437) -/
def THM_SFAIL : Nat := 0x28020

/-- R455. THM_CTEMP (RO): [31:16] TC, Q12.4 °C; [15] OFSAPPL; [4:0] index of the sensor that supplies TC -/
def THM_CTEMP : Nat := 0x28024
def THM_CTEMP_TC : Fld := ⟨THM_CTEMP, 16, 16⟩
def THM_CTEMP_OFSAPPL : Fld := ⟨THM_CTEMP, 15, 1⟩
def THM_CTEMP_IDX : Fld := ⟨THM_CTEMP, 0, 5⟩

/-- R455. THM_CELLCFG (RWL): [31:24] SPAN in K, 1–255; [23:16] THS limit; [15:8] TCAP limit; [7:0] TSW limit, all in °C -/
def THM_CELLCFG : Nat := 0x28028
def THM_CELLCFG_SPAN : Fld := ⟨THM_CELLCFG, 24, 8⟩
def THM_CELLCFG_THS : Fld := ⟨THM_CELLCFG, 16, 8⟩
def THM_CELLCFG_TCAP : Fld := ⟨THM_CELLCFG, 8, 8⟩
def THM_CELLCFG_TSW : Fld := ⟨THM_CELLCFG, 0, 8⟩

/-- R455. THM_LOCK (W1S): [0] CFG -/
def THM_LOCK : Nat := 0x2802c
def THM_LOCK_CFG : Fld := ⟨THM_LOCK, 0, 1⟩

/-- R455. THM_STEP (RW): step k -/
def THM_STEP (i : Nat) : Nat := 0x28040 + i * 0x4
def THM_STEP_LIM (i : Nat) : Fld := ⟨THM_STEP i, 23, 9⟩
def THM_STEP_TON (i : Nat) : Fld := ⟨THM_STEP i, 12, 8⟩
def THM_STEP_HYST (i : Nat) : Fld := ⟨THM_STEP i, 8, 4⟩
def THM_STEP_DWELL (i : Nat) : Fld := ⟨THM_STEP i, 0, 8⟩

/-- R455. THM_SCFG (RW): [31] EN: included in TC; [15:0] OFS, signed Q12.4 °C; others reserved -/
def THM_SCFG (i : Nat) : Nat := 0x28080 + i * 0x4
def THM_SCFG_EN (i : Nat) : Fld := ⟨THM_SCFG i, 31, 1⟩
def THM_SCFG_OFS (i : Nat) : Fld := ⟨THM_SCFG i, 0, 16⟩

/-- R455. THM_NTC (RW): [31:16] BETA in K; [15:0] RATIO, Q4.12 (R436) -/
def THM_NTC (i : Nat) : Nat := 0x280e0 + i * 0x4
def THM_NTC_BETA (i : Nat) : Fld := ⟨THM_NTC i, 16, 16⟩
def THM_NTC_RATIO (i : Nat) : Fld := ⟨THM_NTC i, 0, 16⟩

/-- R455. THM_TEMP (RO): [31] VALID; [30] FAIL; [15:0] reading, Q12.4 °C -/
def THM_TEMP (i : Nat) : Nat := 0x28100 + i * 0x4
def THM_TEMP_VALID (i : Nat) : Fld := ⟨THM_TEMP i, 31, 1⟩
def THM_TEMP_FAIL (i : Nat) : Fld := ⟨THM_TEMP i, 30, 1⟩
def THM_TEMP_READ (i : Nat) : Fld := ⟨THM_TEMP i, 0, 16⟩

/-- R457. AGE_CTRL (RW): [2] EYEEN; [1] PRBEN: probes placed; [0] EN: cell records kept -/
def AGE_CTRL : Nat := 0x29000
def AGE_CTRL_EYEEN : Fld := ⟨AGE_CTRL, 2, 1⟩
def AGE_CTRL_PRBEN : Fld := ⟨AGE_CTRL, 1, 1⟩
def AGE_CTRL_EN : Fld := ⟨AGE_CTRL, 0, 1⟩

/-- R457. AGE_STATUS (RO): [12:8] EYELANE: next lane; [2] EYEBUSY; [1] SAVING; [0] RUN -/
def AGE_STATUS : Nat := 0x29004
def AGE_STATUS_EYELANE : Fld := ⟨AGE_STATUS, 8, 5⟩
def AGE_STATUS_EYEBUSY : Fld := ⟨AGE_STATUS, 2, 1⟩
def AGE_STATUS_SAVING : Fld := ⟨AGE_STATUS, 1, 1⟩
def AGE_STATUS_RUN : Fld := ⟨AGE_STATUS, 0, 1⟩

/-- R457. AGE_EVT (W1C): sticky events -/
def AGE_EVT : Nat := 0x29008
def AGE_EVT_SAVEFAIL : Fld := ⟨AGE_EVT, 7, 1⟩
def AGE_EVT_CELLLIFE : Fld := ⟨AGE_EVT, 6, 1⟩
def AGE_EVT_NEWCELL : Fld := ⟨AGE_EVT, 5, 1⟩
def AGE_EVT_PRBFAIL : Fld := ⟨AGE_EVT, 4, 1⟩
def AGE_EVT_LANEMARG : Fld := ⟨AGE_EVT, 3, 1⟩
def AGE_EVT_VIDMAX : Fld := ⟨AGE_EVT, 2, 1⟩
def AGE_EVT_VIDCHG : Fld := ⟨AGE_EVT, 1, 1⟩
def AGE_EVT_PATHMARG : Fld := ⟨AGE_EVT, 0, 1⟩

/-- R457. AGE_VIDCFG (RW): VID control (R447) -/
def AGE_VIDCFG : Nat := 0x2900c
def AGE_VIDCFG_VIDMAX : Fld := ⟨AGE_VIDCFG, 26, 6⟩
def AGE_VIDCFG_VIDNOM : Fld := ⟨AGE_VIDCFG, 20, 6⟩
def AGE_VIDCFG_SLKHI : Fld := ⟨AGE_VIDCFG, 10, 8⟩
def AGE_VIDCFG_SLKLO : Fld := ⟨AGE_VIDCFG, 2, 8⟩
def AGE_VIDCFG_AUTO : Fld := ⟨AGE_VIDCFG, 0, 1⟩

/-- R457. AGE_VID (RO): [5:0] CODE on VID0–VID5 -/
def AGE_VID : Nat := 0x29010
def AGE_VID_CODE : Fld := ⟨AGE_VID, 0, 6⟩

/-- R457. AGE_PATHMIN (RO): [20:16] monitor index; [15:0] smallest slack in ps -/
def AGE_PATHMIN : Nat := 0x29014
def AGE_PATHMIN_MON : Fld := ⟨AGE_PATHMIN, 16, 5⟩
def AGE_PATHMIN_SLACK : Fld := ⟨AGE_PATHMIN, 0, 16⟩

/-- R457. AGE_EYECFG (RW): [31:16] PER in s, 1–65,535; [15:8] MINH, 1/64 of range; [0] PRESET -/
def AGE_EYECFG : Nat := 0x29018
def AGE_EYECFG_PER : Fld := ⟨AGE_EYECFG, 16, 16⟩
def AGE_EYECFG_MINH : Fld := ⟨AGE_EYECFG, 8, 8⟩
def AGE_EYECFG_PRESET : Fld := ⟨AGE_EYECFG, 0, 1⟩

/-- R457. AGE_PRBCFG (RW): [31:24] TMO in control cycles, 10–255; [23:16] STEP default; [15:0] DUR default in µs, 100–10,000 -/
def AGE_PRBCFG : Nat := 0x2901c
def AGE_PRBCFG_TMO : Fld := ⟨AGE_PRBCFG, 24, 8⟩
def AGE_PRBCFG_STEP : Fld := ⟨AGE_PRBCFG, 16, 8⟩
def AGE_PRBCFG_DUR : Fld := ⟨AGE_PRBCFG, 0, 16⟩

/-- R457. AGE_EOLCFG (RW): [29:20] ESREOL in 1 %; [19:10] VONEOL in 0.1 %; [9:0] CAPEOL in 0.1 %; each 1–1,023 -/
def AGE_EOLCFG : Nat := 0x29020
def AGE_EOLCFG_ESREOL : Fld := ⟨AGE_EOLCFG, 20, 10⟩
def AGE_EOLCFG_VONEOL : Fld := ⟨AGE_EOLCFG, 10, 10⟩
def AGE_EOLCFG_CAPEOL : Fld := ⟨AGE_EOLCFG, 0, 10⟩

/-- R457. AGE_DRCFG (RW): [31:20] LFULL, Q0.12; [19:8] LSTART, Q0.12; [7:0] DRMAX, 0–100 -/
def AGE_DRCFG : Nat := 0x29024
def AGE_DRCFG_LFULL : Fld := ⟨AGE_DRCFG, 20, 12⟩
def AGE_DRCFG_LSTART : Fld := ⟨AGE_DRCFG, 8, 12⟩
def AGE_DRCFG_DRMAX : Fld := ⟨AGE_DRCFG, 0, 8⟩

/-- R457. AGE_CYCCFG (RW): [7:0] HYST in 0.1 K, 10–100 -/
def AGE_CYCCFG : Nat := 0x29028
def AGE_CYCCFG_HYST : Fld := ⟨AGE_CYCCFG, 0, 8⟩

/-- R457. AGE_VONCFG (RW): [31:16] IREF in 0.1 A; [7:0] TREF in °C -/
def AGE_VONCFG : Nat := 0x2902c
def AGE_VONCFG_IREF : Fld := ⟨AGE_VONCFG, 16, 16⟩
def AGE_VONCFG_TREF : Fld := ⟨AGE_VONCFG, 0, 8⟩

/-- R457. AGE_RPTCFG (RW): [31:16] SAVEPER in s, 10–3,600; [15:0] RPTPER in s, 60–65,535 -/
def AGE_RPTCFG : Nat := 0x29030
def AGE_RPTCFG_SAVEPER : Fld := ⟨AGE_RPTCFG, 16, 16⟩
def AGE_RPTCFG_RPTPER : Fld := ⟨AGE_RPTCFG, 0, 16⟩

/-- R457. AGE_CELLRST (WO): [31:16] KEY 0xA6E0; [7:0] cell ID (R452) -/
def AGE_CELLRST : Nat := 0x29034
def AGE_CELLRST_KEY : Fld := ⟨AGE_CELLRST, 16, 16⟩
def AGE_CELLRST_CELL : Fld := ⟨AGE_CELLRST, 0, 8⟩

/-- R457. AGE_PRBFAIL (RO, W1C): probes not placed or failed -/
def AGE_PRBFAIL : Nat := 0x29038
def AGE_PRBFAIL_SAT : Fld := ⟨AGE_PRBFAIL, 31, 1⟩
def AGE_PRBFAIL_COUNT : Fld := ⟨AGE_PRBFAIL, 0, 31⟩

/-- R457. AGE_BIND (RW): [31:0] damage per full cycle of bin b, Q0.32 -/
def AGE_BIND (i : Nat) : Nat := 0x29040 + i * 0x4

/-- R457. AGE_CELL (RO): [31:30] DOM: 0 cycles, 1 capacitance, 2 ESR, 3 on-state voltage; [29] REC: record valid; [28] PRBPEND; [11:0] LIFE -/
def AGE_CELL (i : Nat) : Nat := 0x29100 + i * 0x4
def AGE_CELL_DOM (i : Nat) : Fld := ⟨AGE_CELL i, 30, 2⟩
def AGE_CELL_REC (i : Nat) : Fld := ⟨AGE_CELL i, 29, 1⟩
def AGE_CELL_PRBPEND (i : Nat) : Fld := ⟨AGE_CELL i, 28, 1⟩
def AGE_CELL_LIFE (i : Nat) : Fld := ⟨AGE_CELL i, 0, 12⟩

/-- R482. MEM_CTRL (RW): [31:16] SCRUBPER in s, 1–65,535; [0] SCRUBEN -/
def MEM_CTRL : Nat := 0x2a000
def MEM_CTRL_SCRUBPER : Fld := ⟨MEM_CTRL, 16, 16⟩
def MEM_CTRL_SCRUBEN : Fld := ⟨MEM_CTRL, 0, 1⟩

/-- R482. MEM_STATUS (RO): [31] SCRUB: a pass is running; [20:0] bit n: bank n not ON -/
def MEM_STATUS : Nat := 0x2a004
def MEM_STATUS_SCRUB : Fld := ⟨MEM_STATUS, 31, 1⟩
def MEM_STATUS_NOTON : Fld := ⟨MEM_STATUS, 0, 21⟩

/-- R482. MEM_EVT (W1C): sticky events -/
def MEM_EVT : Nat := 0x2a008
def MEM_EVT_UNREP : Fld := ⟨MEM_EVT, 8, 1⟩
def MEM_EVT_STARVE : Fld := ⟨MEM_EVT, 7, 1⟩
def MEM_EVT_PWRREF : Fld := ⟨MEM_EVT, 6, 1⟩
def MEM_EVT_PWRACC : Fld := ⟨MEM_EVT, 5, 1⟩
def MEM_EVT_OWNBUSY : Fld := ⟨MEM_EVT, 4, 1⟩
def MEM_EVT_OWNCHG : Fld := ⟨MEM_EVT, 3, 1⟩
def MEM_EVT_OWNREF : Fld := ⟨MEM_EVT, 2, 1⟩
def MEM_EVT_UE : Fld := ⟨MEM_EVT, 1, 1⟩
def MEM_EVT_CE : Fld := ⟨MEM_EVT, 0, 1⟩

/-- R482. MEM_CECNT (RO, W1C): correctable errors -/
def MEM_CECNT : Nat := 0x2a00c
def MEM_CECNT_SAT : Fld := ⟨MEM_CECNT, 31, 1⟩
def MEM_CECNT_COUNT : Fld := ⟨MEM_CECNT, 0, 31⟩

/-- R482. MEM_UECNT (RO, W1C): uncorrectable errors -/
def MEM_UECNT : Nat := 0x2a010
def MEM_UECNT_SAT : Fld := ⟨MEM_UECNT, 31, 1⟩
def MEM_UECNT_COUNT : Fld := ⟨MEM_UECNT, 0, 31⟩

/-- R482. MEM_ERRADDR (RO): [31:0] engine address of the last error -/
def MEM_ERRADDR : Nat := 0x2a014

/-- R482. MEM_ERRINFO (RO): last error -/
def MEM_ERRINFO : Nat := 0x2a018
def MEM_ERRINFO_UE : Fld := ⟨MEM_ERRINFO, 31, 1⟩
def MEM_ERRINFO_BANK : Fld := ⟨MEM_ERRINFO, 24, 5⟩
def MEM_ERRINFO_SYND : Fld := ⟨MEM_ERRINFO, 0, 8⟩

/-- R482. MEM_OWNREFCNT (RO, W1C): refused accesses (R461) -/
def MEM_OWNREFCNT : Nat := 0x2a01c
def MEM_OWNREFCNT_SAT : Fld := ⟨MEM_OWNREFCNT, 31, 1⟩
def MEM_OWNREFCNT_COUNT : Fld := ⟨MEM_OWNREFCNT, 0, 31⟩

/-- R482. MEM_STARVE (RO, W1C): long waits at level 5 (R464) -/
def MEM_STARVE : Nat := 0x2a020
def MEM_STARVE_SAT : Fld := ⟨MEM_STARVE, 31, 1⟩
def MEM_STARVE_COUNT : Fld := ⟨MEM_STARVE, 0, 31⟩

/-- R482. MEM_WAKECNT (RO, W1C): wakes by access (R470) -/
def MEM_WAKECNT : Nat := 0x2a024
def MEM_WAKECNT_SAT : Fld := ⟨MEM_WAKECNT, 31, 1⟩
def MEM_WAKECNT_COUNT : Fld := ⟨MEM_WAKECNT, 0, 31⟩

/-- R482. MEM_REPSTAT (RO): [31] UNREP; [7:0] number of macros with a spare in use -/
def MEM_REPSTAT : Nat := 0x2a028
def MEM_REPSTAT_UNREP : Fld := ⟨MEM_REPSTAT, 31, 1⟩
def MEM_REPSTAT_CNT : Fld := ⟨MEM_REPSTAT, 0, 8⟩

/-- R482. MEM_REPSEL (RW): [7:0] macro index, 0–160 -/
def MEM_REPSEL : Nat := 0x2a02c

/-- R482. MEM_REPDATA (RO): repairs of the selected macro -/
def MEM_REPDATA : Nat := 0x2a030
def MEM_REPDATA_USED1 : Fld := ⟨MEM_REPDATA, 31, 1⟩
def MEM_REPDATA_USED0 : Fld := ⟨MEM_REPDATA, 30, 1⟩
def MEM_REPDATA_COL1 : Fld := ⟨MEM_REPDATA, 16, 10⟩
def MEM_REPDATA_COL0 : Fld := ⟨MEM_REPDATA, 0, 10⟩

/-- R482. MEM_OWN (RW): owner of bank n -/
def MEM_OWN (i : Nat) : Nat := 0x2a100 + i * 0x4
def MEM_OWN_KIND (i : Nat) : Fld := ⟨MEM_OWN i, 28, 4⟩
def MEM_OWN_HOME (i : Nat) : Fld := ⟨MEM_OWN i, 24, 4⟩
def MEM_OWN_EMASK (i : Nat) : Fld := ⟨MEM_OWN i, 0, 16⟩

/-- R482. MEM_RD (RW): readers of bank n -/
def MEM_RD (i : Nat) : Nat := 0x2a180 + i * 0x4
def MEM_RD_HOST (i : Nat) : Fld := ⟨MEM_RD i, 16, 1⟩
def MEM_RD_ENG (i : Nat) : Fld := ⟨MEM_RD i, 0, 16⟩

/-- R482. MEM_PWR (RW): power of bank n -/
def MEM_PWR (i : Nat) : Nat := 0x2a200 + i * 0x4
def MEM_PWR_AUTOWAKE (i : Nat) : Fld := ⟨MEM_PWR i, 8, 1⟩
def MEM_PWR_QUIET (i : Nat) : Fld := ⟨MEM_PWR i, 4, 2⟩
def MEM_PWR_REQ (i : Nat) : Fld := ⟨MEM_PWR i, 0, 2⟩

/-- R482. MEM_BSTAT (RO): state of bank n -/
def MEM_BSTAT (i : Nat) : Nat := 0x2a280 + i * 0x4
def MEM_BSTAT_DRAIN (i : Nat) : Fld := ⟨MEM_BSTAT i, 8, 1⟩
def MEM_BSTAT_PSTATE (i : Nat) : Fld := ⟨MEM_BSTAT i, 0, 3⟩

/-- R485. NVM_CTRL (RW): [0] WEN: write port enabled; [31:1] reserved -/
def NVM_CTRL : Nat := 0x2b000
def NVM_CTRL_WEN : Fld := ⟨NVM_CTRL, 0, 1⟩

/-- R485. NVM_STATUS (RO): port and writer state -/
def NVM_STATUS : Nat := 0x2b004
def NVM_STATUS_WBUSY : Fld := ⟨NVM_STATUS, 31, 1⟩
def NVM_STATUS_THWRITE : Fld := ⟨NVM_STATUS, 30, 1⟩
def NVM_STATUS_HALT : Fld := ⟨NVM_STATUS, 29, 1⟩
def NVM_STATUS_WPIMG : Fld := ⟨NVM_STATUS, 28, 1⟩

/-- R485. NVM_EVT (W1C): [3] JDISCARD; [2] WRREF; [1] UE; [0] CE; [31:4] reserved -/
def NVM_EVT : Nat := 0x2b008
def NVM_EVT_JDISCARD : Fld := ⟨NVM_EVT, 3, 1⟩
def NVM_EVT_WRREF : Fld := ⟨NVM_EVT, 2, 1⟩
def NVM_EVT_UE : Fld := ⟨NVM_EVT, 1, 1⟩
def NVM_EVT_CE : Fld := ⟨NVM_EVT, 0, 1⟩

/-- R485. NVM_WADDR (RW): [22:5] line address within the array; [4:0] must be 0 -/
def NVM_WADDR : Nat := 0x2b00c

/-- R485. NVM_WDATA (RW): line bytes 0–3 to 28–31 -/
def NVM_WDATA (i : Nat) : Nat := 0x2b010 + i * 0x4

/-- R485. NVM_WCMD (WO): [0] GO (R478) -/
def NVM_WCMD : Nat := 0x2b030
def NVM_WCMD_GO : Fld := ⟨NVM_WCMD, 0, 1⟩

/-- R485. NVM_CECNT (RO, W1C): correctable errors -/
def NVM_CECNT : Nat := 0x2b034
def NVM_CECNT_SAT : Fld := ⟨NVM_CECNT, 31, 1⟩
def NVM_CECNT_COUNT : Fld := ⟨NVM_CECNT, 0, 31⟩

/-- R485. NVM_UECNT (RO, W1C): uncorrectable errors -/
def NVM_UECNT : Nat := 0x2b038
def NVM_UECNT_SAT : Fld := ⟨NVM_UECNT, 31, 1⟩
def NVM_UECNT_COUNT : Fld := ⟨NVM_UECNT, 0, 31⟩

/-- R485. NVM_JDISCARD (RO, W1C): items discarded at boot (R477) -/
def NVM_JDISCARD : Nat := 0x2b03c
def NVM_JDISCARD_SAT : Fld := ⟨NVM_JDISCARD, 31, 1⟩
def NVM_JDISCARD_COUNT : Fld := ⟨NVM_JDISCARD, 0, 31⟩

/-- R485. NVM_WRREF (RO, W1C): refused write commands -/
def NVM_WRREF : Nat := 0x2b040
def NVM_WRREF_SAT : Fld := ⟨NVM_WRREF, 31, 1⟩
def NVM_WRREF_COUNT : Fld := ⟨NVM_WRREF, 0, 31⟩

/-- R485. NVM_ERRADDR (RO): [22:0] offset of the last read error -/
def NVM_ERRADDR : Nat := 0x2b044

/-- R485. NVM_WRLINES (RO): [31:0] lines written since power-on; wraps -/
def NVM_WRLINES : Nat := 0x2b048

/-- R487. SEC_STATUS (RO): wipe, restart and monitor state -/
def SEC_STATUS : Nat := 0x1000
def SEC_STATUS_LCFORCE : Fld := ⟨SEC_STATUS, 6, 1⟩
def SEC_STATUS_CMONOK : Fld := ⟨SEC_STATUS, 5, 1⟩
def SEC_STATUS_VMONOK : Fld := ⟨SEC_STATUS, 4, 1⟩
def SEC_STATUS_PINLVL : Fld := ⟨SEC_STATUS, 3, 1⟩
def SEC_STATUS_RESTART : Fld := ⟨SEC_STATUS, 2, 1⟩
def SEC_STATUS_WIPING : Fld := ⟨SEC_STATUS, 1, 1⟩

/-- R487. SEC_EVT (W1C): [3] WIPED; [2] CTAMPER; [1] VTAMPER; [0] TAMPERPIN; [31:4] reserved -/
def SEC_EVT : Nat := 0x1004
def SEC_EVT_WIPED : Fld := ⟨SEC_EVT, 3, 1⟩
def SEC_EVT_CTAMPER : Fld := ⟨SEC_EVT, 2, 1⟩
def SEC_EVT_VTAMPER : Fld := ⟨SEC_EVT, 1, 1⟩
def SEC_EVT_TAMPERPIN : Fld := ⟨SEC_EVT, 0, 1⟩

/-- R487. SEC_TAMPCFG (RWL): tamper inputs (R481) -/
def SEC_TAMPCFG : Nat := 0x1008
def SEC_TAMPCFG_PINFILT : Fld := ⟨SEC_TAMPCFG, 8, 8⟩
def SEC_TAMPCFG_CMONEN : Fld := ⟨SEC_TAMPCFG, 2, 1⟩
def SEC_TAMPCFG_VMONEN : Fld := ⟨SEC_TAMPCFG, 1, 1⟩
def SEC_TAMPCFG_PINEN : Fld := ⟨SEC_TAMPCFG, 0, 1⟩

/-- R487. SEC_LOCK (W1S): [0] CFG; released only by a power-on reset or PERST_N -/
def SEC_LOCK : Nat := 0x100c
def SEC_LOCK_CFG : Fld := ⟨SEC_LOCK, 0, 1⟩

/-- R487. SEC_WIPECNT (RO, W1C): wipes -/
def SEC_WIPECNT : Nat := 0x1010
def SEC_WIPECNT_SAT : Fld := ⟨SEC_WIPECNT, 31, 1⟩
def SEC_WIPECNT_COUNT : Fld := ⟨SEC_WIPECNT, 0, 31⟩

/-- R487. SEC_LASTWIPE (RO): [31:24] CAUSE: 1 pin, 2 voltage, 3 clock, 4 lifecycle, 5 long operation; [23:0] reserved -/
def SEC_LASTWIPE : Nat := 0x1014
def SEC_LASTWIPE_CAUSE : Fld := ⟨SEC_LASTWIPE, 24, 8⟩

/-- R487. SEC_WIPETS_LO (RO): tick of the last wipe, bits [31:0] -/
def SEC_WIPETS_LO : Nat := 0x1018

/-- R487. SEC_WIPETS_HI (RO): bits [63:32] -/
def SEC_WIPETS_HI : Nat := 0x101c

/-- R513. HIF_CTRL (RW): long-operation vector -/
def HIF_CTRL : Nat := 0x2000
def HIF_CTRL_LOVEC : Fld := ⟨HIF_CTRL, 16, 6⟩
def HIF_CTRL_LOIRQ : Fld := ⟨HIF_CTRL, 15, 1⟩

/-- R513. HIF_STATUS (RO): link state -/
def HIF_STATUS : Nat := 0x2004
def HIF_STATUS_LINKUP : Fld := ⟨HIF_STATUS, 31, 1⟩
def HIF_STATUS_SPEED : Fld := ⟨HIF_STATUS, 16, 4⟩
def HIF_STATUS_WIDTH : Fld := ⟨HIF_STATUS, 8, 3⟩
def HIF_STATUS_MSIXEN : Fld := ⟨HIF_STATUS, 1, 1⟩
def HIF_STATUS_BME : Fld := ⟨HIF_STATUS, 0, 1⟩

/-- R513. HIF_EVT (W1C): sticky events -/
def HIF_EVT : Nat := 0x2008
def HIF_EVT_LINKDOWN : Fld := ⟨HIF_EVT, 3, 1⟩
def HIF_EVT_DBREF : Fld := ⟨HIF_EVT, 2, 1⟩
def HIF_EVT_DESCERR : Fld := ⟨HIF_EVT, 1, 1⟩
def HIF_EVT_DMAERR : Fld := ⟨HIF_EVT, 0, 1⟩

/-- R513. HIF_DBREF (RO, W1C): doorbells refused by R494 -/
def HIF_DBREF : Nat := 0x200c
def HIF_DBREF_SAT : Fld := ⟨HIF_DBREF, 31, 1⟩
def HIF_DBREF_COUNT : Fld := ⟨HIF_DBREF, 0, 31⟩

/-- R513. HIF_BAR4REF (RO, W1C): BAR4 accesses refused (R491) -/
def HIF_BAR4REF : Nat := 0x2010
def HIF_BAR4REF_SAT : Fld := ⟨HIF_BAR4REF, 31, 1⟩
def HIF_BAR4REF_COUNT : Fld := ⟨HIF_BAR4REF, 0, 31⟩

/-- R513. HIF_DMAERRINFO (RO): last DMA error -/
def HIF_DMAERRINFO : Nat := 0x2014
def HIF_DMAERRINFO_WRITE : Fld := ⟨HIF_DMAERRINFO, 16, 1⟩
def HIF_DMAERRINFO_CPL : Fld := ⟨HIF_DMAERRINFO, 8, 8⟩
def HIF_DMAERRINFO_RING : Fld := ⟨HIF_DMAERRINFO, 0, 5⟩

/-- R513. HIF_DMAERRADDR_LO (RO): host address, bits [31:0] -/
def HIF_DMAERRADDR_LO : Nat := 0x2018

/-- R513. HIF_DMAERRADDR_HI (RO): bits [63:32] -/
def HIF_DMAERRADDR_HI : Nat := 0x201c

/-- R513. HIF_RBASE_LO (RW): [31:5] ring base, bits [31:5]; [4:0] reserved -/
def HIF_RBASE_LO (i : Nat) : Nat := 0x2400 + i * 0x20

/-- R513. HIF_RBASE_HI (RW): ring base, bits [63:32] -/
def HIF_RBASE_HI (i : Nat) : Nat := 0x2404 + i * 0x20

/-- R513. HIF_RCFG (RW): ring configuration -/
def HIF_RCFG (i : Nat) : Nat := 0x2408 + i * 0x20
def HIF_RCFG_EN (i : Nat) : Fld := ⟨HIF_RCFG i, 31, 1⟩
def HIF_RCFG_IRQEN (i : Nat) : Fld := ⟨HIF_RCFG i, 30, 1⟩
def HIF_RCFG_DIR (i : Nat) : Fld := ⟨HIF_RCFG i, 29, 1⟩
def HIF_RCFG_LOG2SZ (i : Nat) : Fld := ⟨HIF_RCFG i, 24, 4⟩
def HIF_RCFG_VEC (i : Nat) : Fld := ⟨HIF_RCFG i, 16, 6⟩
def HIF_RCFG_IMOD (i : Nat) : Fld := ⟨HIF_RCFG i, 8, 8⟩
def HIF_RCFG_CQ (i : Nat) : Fld := ⟨HIF_RCFG i, 0, 3⟩

/-- R513. HIF_RSTAT (RO): ring state -/
def HIF_RSTAT (i : Nat) : Nat := 0x240c + i * 0x20
def HIF_RSTAT_STATE (i : Nat) : Fld := ⟨HIF_RSTAT i, 29, 3⟩
def HIF_RSTAT_FULL (i : Nat) : Fld := ⟨HIF_RSTAT i, 28, 1⟩
def HIF_RSTAT_INFLT (i : Nat) : Fld := ⟨HIF_RSTAT i, 0, 16⟩

/-- R513. HIF_RIDX (RO): [31:16] HOST; [15:0] DEV -/
def HIF_RIDX (i : Nat) : Nat := 0x2410 + i * 0x20
def HIF_RIDX_HOST (i : Nat) : Fld := ⟨HIF_RIDX i, 16, 16⟩
def HIF_RIDX_DEV (i : Nat) : Fld := ⟨HIF_RIDX i, 0, 16⟩

/-- R513. HIF_RDROP (RO, W1C): records or messages dropped (R496) -/
def HIF_RDROP (i : Nat) : Nat := 0x2414 + i * 0x20
def HIF_RDROP_SAT (i : Nat) : Fld := ⟨HIF_RDROP i, 31, 1⟩
def HIF_RDROP_COUNT (i : Nat) : Fld := ⟨HIF_RDROP i, 0, 31⟩

/-- R513. HIF_MBIN (RO): word w of the oldest message in FIFO k -/
def HIF_MBIN (i : Nat) (j : Nat) : Nat := 0x2800 + i * 0x40 + j * 0x4

/-- R513. HIF_MBOUT (RW): word w of the outgoing message -/
def HIF_MBOUT (i : Nat) (j : Nat) : Nat := 0x2820 + i * 0x40 + j * 0x4

/-- R513. HIF_MBCTL (RO, W1S): mailbox control -/
def HIF_MBCTL (i : Nat) : Nat := 0x2900 + i * 0x4
def HIF_MBCTL_INLVL (i : Nat) : Fld := ⟨HIF_MBCTL i, 16, 5⟩
def HIF_MBCTL_POST (i : Nat) : Fld := ⟨HIF_MBCTL i, 9, 1⟩
def HIF_MBCTL_POP (i : Nat) : Fld := ⟨HIF_MBCTL i, 8, 1⟩
def HIF_MBCTL_OUTFULL (i : Nat) : Fld := ⟨HIF_MBCTL i, 0, 1⟩

/-- R534. BST_STATUS (RO): shutdown, BIST and loader state -/
def BST_STATUS : Nat := 0x2c000
def BST_STATUS_SHUTDOWN : Fld := ⟨BST_STATUS, 31, 1⟩
def BST_STATUS_SDBUSY : Fld := ⟨BST_STATUS, 30, 1⟩
def BST_STATUS_BISTRUN : Fld := ⟨BST_STATUS, 29, 1⟩
def BST_STATUS_NOIMG : Fld := ⟨BST_STATUS, 28, 1⟩

/-- R534. BST_EVT (W1C): [1] BOOTALT; [0] BISTFAIL; [31:2] reserved -/
def BST_EVT : Nat := 0x2c004
def BST_EVT_BOOTALT : Fld := ⟨BST_EVT, 1, 1⟩
def BST_EVT_BISTFAIL : Fld := ⟨BST_EVT, 0, 1⟩

/-- R534. BST_BOOT (RO): result of the last boot -/
def BST_BOOT : Nat := 0x2c008
def BST_BOOT_VALID : Fld := ⟨BST_BOOT, 31, 1⟩
def BST_BOOT_TRIAL : Fld := ⟨BST_BOOT, 30, 1⟩
def BST_BOOT_TRIES : Fld := ⟨BST_BOOT, 28, 2⟩
def BST_BOOT_ALT : Fld := ⟨BST_BOOT, 27, 1⟩
def BST_BOOT_PREF : Fld := ⟨BST_BOOT, 26, 1⟩
def BST_BOOT_STAMPWHY : Fld := ⟨BST_BOOT, 20, 4⟩
def BST_BOOT_BOOTMS : Fld := ⟨BST_BOOT, 0, 16⟩

/-- R534. BST_BOOTCFG (WO): [31:16] KEY 0xB0C5; [2] CONFIRM; [1] SELVALID; [0] SEL (R521) -/
def BST_BOOTCFG : Nat := 0x2c00c
def BST_BOOTCFG_KEY : Fld := ⟨BST_BOOTCFG, 16, 16⟩
def BST_BOOTCFG_CONFIRM : Fld := ⟨BST_BOOTCFG, 2, 1⟩
def BST_BOOTCFG_SELVALID : Fld := ⟨BST_BOOTCFG, 1, 1⟩
def BST_BOOTCFG_SEL : Fld := ⟨BST_BOOTCFG, 0, 1⟩

/-- R534. BST_SDCMD (WO): [31:16] KEY 0x5D7E; [0] GO (R525) -/
def BST_SDCMD : Nat := 0x2c010
def BST_SDCMD_KEY : Fld := ⟨BST_SDCMD, 16, 16⟩
def BST_SDCMD_GO : Fld := ⟨BST_SDCMD, 0, 1⟩

/-- R534. BST_QCFG (RW): [1] ALARMEN; [0] PINEN (R529); [31:2] reserved -/
def BST_QCFG : Nat := 0x2c014
def BST_QCFG_ALARMEN : Fld := ⟨BST_QCFG, 1, 1⟩
def BST_QCFG_PINEN : Fld := ⟨BST_QCFG, 0, 1⟩

/-- R534. BST_QCMD (WO): [31:16] KEY 0x9E17; [1] WAKE; [0] ENTER -/
def BST_QCMD : Nat := 0x2c018
def BST_QCMD_KEY : Fld := ⟨BST_QCMD, 16, 16⟩
def BST_QCMD_WAKE : Fld := ⟨BST_QCMD, 1, 1⟩
def BST_QCMD_ENTER : Fld := ⟨BST_QCMD, 0, 1⟩

/-- R534. BST_QSTAT (RO): Quiet state and wake sources -/
def BST_QSTAT : Nat := 0x2c01c
def BST_QSTAT_STATE : Fld := ⟨BST_QSTAT, 29, 3⟩
def BST_QSTAT_REFUSED : Fld := ⟨BST_QSTAT, 8, 1⟩
def BST_QSTAT_WSRC : Fld := ⟨BST_QSTAT, 0, 3⟩

/-- R534. BST_LASTRUN (RO): last BIST run -/
def BST_LASTRUN : Nat := 0x2c020
def BST_LASTRUN_KIND : Fld := ⟨BST_LASTRUN, 28, 4⟩
def BST_LASTRUN_RESULT : Fld := ⟨BST_LASTRUN, 26, 2⟩
def BST_LASTRUN_LBIST : Fld := ⟨BST_LASTRUN, 25, 1⟩
def BST_LASTRUN_MBIST : Fld := ⟨BST_LASTRUN, 24, 1⟩
def BST_LASTRUN_FAILS : Fld := ⟨BST_LASTRUN, 0, 16⟩

/-- R534. BST_FAILCNT (RO, W1C): failures found, records lost included -/
def BST_FAILCNT : Nat := 0x2c024
def BST_FAILCNT_SAT : Fld := ⟨BST_FAILCNT, 31, 1⟩
def BST_FAILCNT_COUNT : Fld := ⟨BST_FAILCNT, 0, 31⟩

/-- R534. BST_LASTLOC_LO (RO): locator of the last failure, bits [31:0] -/
def BST_LASTLOC_LO : Nat := 0x2c028

/-- R534. BST_LASTLOC_HI (RO): bits [63:32] -/
def BST_LASTLOC_HI : Nat := 0x2c02c

/-- R534. BST_RUNID (RO): [31:0] runs since the first boot, kept in MRAM; wraps -/
def BST_RUNID : Nat := 0x2c030

/-- R534. BST_TAP (RO): test access state -/
def BST_TAP : Nat := 0x2c034
def BST_TAP_DBGKILL : Fld := ⟨BST_TAP, 31, 1⟩
def BST_TAP_ACCESS : Fld := ⟨BST_TAP, 0, 2⟩

/-- R534. BST_QCNT (RO): [31:0] Quiet entries; wraps -/
def BST_QCNT : Nat := 0x2c038

/-- The rows of block GLB, at BAR0 offset 0x0 (R28). -/
def rowsGLB : List RegRow :=
  [⟨0x0, 1, 0x4, 1, 0x4, 0x96205610, false, [⟨16, 16, .ro, []⟩, ⟨8, 8, .ro, []⟩, ⟨4, 4, .ro, []⟩, ⟨0, 4, .ro, []⟩]⟩,
   ⟨0x4, 1, 0x4, 1, 0x4, 0x0, false, [⟨31, 1, .ro, []⟩, ⟨30, 1, .ro, []⟩, ⟨28, 2, .ro, []⟩, ⟨27, 1, .ro, []⟩, ⟨26, 1, .ro, []⟩, ⟨24, 1, .ro, []⟩, ⟨22, 2, .ro, []⟩, ⟨21, 1, .ro, []⟩, ⟨20, 1, .ro, []⟩, ⟨19, 1, .ro, []⟩, ⟨18, 1, .ro, []⟩, ⟨17, 1, .ro, []⟩, ⟨16, 1, .ro, []⟩]⟩,
   ⟨0x8, 1, 0x4, 1, 0x4, 0x0, false, [⟨1, 1, .rw, []⟩, ⟨0, 1, .rw, []⟩]⟩,
   ⟨0xc, 1, 0x4, 1, 0x4, 0x0, false, [⟨16, 16, .wo, []⟩, ⟨0, 1, .wo, []⟩]⟩,
   ⟨0x10, 1, 0x4, 1, 0x4, 0x1, false, [⟨4, 1, .w1c, []⟩, ⟨3, 1, .w1c, []⟩, ⟨2, 1, .w1c, []⟩, ⟨1, 1, .w1c, []⟩, ⟨0, 1, .w1c, []⟩]⟩,
   ⟨0x14, 1, 0x4, 1, 0x4, 0x0, false, [⟨31, 1, .wo, []⟩, ⟨8, 4, .ro, []⟩, ⟨0, 4, .rw, []⟩]⟩,
   ⟨0x18, 1, 0x4, 1, 0x4, 0x0, false, [⟨0, 32, .rw, []⟩]⟩,
   ⟨0x1c, 1, 0x4, 1, 0x4, 0x0, true, [⟨31, 1, .w1c, []⟩, ⟨0, 31, .ro, []⟩]⟩,
   ⟨0x20, 1, 0x4, 1, 0x4, 0x1b580000, false, [⟨16, 16, .rwl, []⟩, ⟨0, 1, .rwl, []⟩]⟩,
   ⟨0x24, 1, 0x4, 1, 0x4, 0x0, false, [⟨0, 32, .ro, []⟩]⟩,
   ⟨0x28, 1, 0x4, 1, 0x4, 0x0, false, [⟨0, 32, .ro, []⟩]⟩,
   ⟨0x2c, 1, 0x4, 1, 0x4, 0x0, true, [⟨31, 1, .w1c, []⟩, ⟨0, 31, .ro, []⟩]⟩,
   ⟨0x30, 1, 0x4, 1, 0x4, 0x0, false, [⟨12, 1, .w1c, []⟩, ⟨11, 1, .w1c, []⟩, ⟨10, 1, .w1c, []⟩, ⟨9, 1, .w1c, []⟩, ⟨8, 1, .w1c, []⟩, ⟨4, 1, .ro, []⟩, ⟨3, 1, .ro, []⟩, ⟨2, 1, .ro, []⟩, ⟨1, 1, .ro, []⟩, ⟨0, 1, .ro, []⟩]⟩,
   ⟨0x34, 1, 0x4, 1, 0x4, 0x0, false, [⟨0, 1, .w1s, []⟩]⟩,
   ⟨0x38, 1, 0x4, 1, 0x4, 0x0, false, [⟨0, 32, .rw, []⟩]⟩,
   ⟨0x3c, 1, 0x4, 1, 0x4, 0x0, false, [⟨4, 1, .ro, []⟩, ⟨3, 1, .ro, []⟩, ⟨2, 1, .ro, []⟩, ⟨1, 1, .ro, []⟩, ⟨0, 1, .ro, []⟩]⟩,
   ⟨0x40, 1, 0x4, 1, 0x4, 0x0, false, [⟨0, 32, .ro, []⟩]⟩,
   ⟨0x44, 1, 0x4, 1, 0x4, 0x0, false, [⟨0, 32, .ro, []⟩]⟩]

/-- The rows of block SEC, at BAR0 offset 0x1000 (R28). -/
def rowsSEC : List RegRow :=
  [⟨0x1000, 1, 0x4, 1, 0x4, 0x0, false, [⟨6, 1, .ro, []⟩, ⟨5, 1, .ro, []⟩, ⟨4, 1, .ro, []⟩, ⟨3, 1, .ro, []⟩, ⟨2, 1, .ro, []⟩, ⟨1, 1, .ro, []⟩]⟩,
   ⟨0x1004, 1, 0x4, 1, 0x4, 0x0, false, [⟨3, 1, .w1c, []⟩, ⟨2, 1, .w1c, []⟩, ⟨1, 1, .w1c, []⟩, ⟨0, 1, .w1c, []⟩]⟩,
   ⟨0x1008, 1, 0x4, 1, 0x4, 0x107, false, [⟨8, 8, .rwl, [(0, 0, 1)]⟩, ⟨2, 1, .rwl, []⟩, ⟨1, 1, .rwl, []⟩, ⟨0, 1, .rwl, []⟩]⟩,
   ⟨0x100c, 1, 0x4, 1, 0x4, 0x0, false, [⟨0, 1, .w1s, []⟩]⟩,
   ⟨0x1010, 1, 0x4, 1, 0x4, 0x0, true, [⟨31, 1, .w1c, []⟩, ⟨0, 31, .ro, []⟩]⟩,
   ⟨0x1014, 1, 0x4, 1, 0x4, 0x0, false, [⟨24, 8, .ro, []⟩]⟩,
   ⟨0x1018, 1, 0x4, 1, 0x4, 0x0, false, [⟨0, 32, .ro, []⟩]⟩,
   ⟨0x101c, 1, 0x4, 1, 0x4, 0x0, false, [⟨0, 32, .ro, []⟩]⟩]

/-- The rows of block HIF, at BAR0 offset 0x2000 (R28). -/
def rowsHIF : List RegRow :=
  [⟨0x2000, 1, 0x4, 1, 0x4, 0x0, false, [⟨16, 6, .rw, []⟩, ⟨15, 1, .rw, []⟩]⟩,
   ⟨0x2004, 1, 0x4, 1, 0x4, 0x0, false, [⟨31, 1, .ro, []⟩, ⟨16, 4, .ro, []⟩, ⟨8, 3, .ro, []⟩, ⟨1, 1, .ro, []⟩, ⟨0, 1, .ro, []⟩]⟩,
   ⟨0x2008, 1, 0x4, 1, 0x4, 0x0, false, [⟨3, 1, .w1c, []⟩, ⟨2, 1, .w1c, []⟩, ⟨1, 1, .w1c, []⟩, ⟨0, 1, .w1c, []⟩]⟩,
   ⟨0x200c, 1, 0x4, 1, 0x4, 0x0, true, [⟨31, 1, .w1c, []⟩, ⟨0, 31, .ro, []⟩]⟩,
   ⟨0x2010, 1, 0x4, 1, 0x4, 0x0, true, [⟨31, 1, .w1c, []⟩, ⟨0, 31, .ro, []⟩]⟩,
   ⟨0x2014, 1, 0x4, 1, 0x4, 0x0, false, [⟨16, 1, .ro, []⟩, ⟨8, 8, .ro, []⟩, ⟨0, 5, .ro, []⟩]⟩,
   ⟨0x2018, 1, 0x4, 1, 0x4, 0x0, false, [⟨0, 32, .ro, []⟩]⟩,
   ⟨0x201c, 1, 0x4, 1, 0x4, 0x0, false, [⟨0, 32, .ro, []⟩]⟩,
   ⟨0x2400, 32, 0x20, 1, 0x20, 0x0, false, [⟨5, 27, .rw, []⟩]⟩,
   ⟨0x2404, 32, 0x20, 1, 0x20, 0x0, false, [⟨0, 32, .rw, []⟩]⟩,
   ⟨0x2408, 32, 0x20, 1, 0x20, 0x4000000, false, [⟨31, 1, .rw, []⟩, ⟨30, 1, .rw, []⟩, ⟨29, 1, .rw, []⟩, ⟨24, 4, .rw, [(0, 3, 4), (13, 15, 12)]⟩, ⟨16, 6, .rw, []⟩, ⟨8, 8, .rw, []⟩, ⟨0, 3, .rw, []⟩]⟩,
   ⟨0x240c, 32, 0x20, 1, 0x20, 0x0, false, [⟨29, 3, .ro, []⟩, ⟨28, 1, .ro, []⟩, ⟨0, 16, .ro, []⟩]⟩,
   ⟨0x2410, 32, 0x20, 1, 0x20, 0x0, false, [⟨16, 16, .ro, []⟩, ⟨0, 16, .ro, []⟩]⟩,
   ⟨0x2414, 32, 0x20, 1, 0x20, 0x0, true, [⟨31, 1, .w1c, []⟩, ⟨0, 31, .ro, []⟩]⟩,
   ⟨0x2800, 4, 0x40, 8, 0x4, 0x0, false, [⟨0, 32, .ro, []⟩]⟩,
   ⟨0x2820, 4, 0x40, 8, 0x4, 0x0, false, [⟨0, 32, .rw, []⟩]⟩,
   ⟨0x2900, 4, 0x4, 1, 0x4, 0x0, false, [⟨16, 5, .ro, []⟩, ⟨9, 1, .w1s, []⟩, ⟨8, 1, .w1s, []⟩, ⟨0, 1, .ro, []⟩]⟩]

/-- The rows of block HOOP, at BAR0 offset 0x4000 (R28). -/
def rowsHOOP : List RegRow :=
  [⟨0x4000, 1, 0x4, 1, 0x4, 0x4, false, [⟨5, 2, .rw, []⟩, ⟨4, 1, .w1s, []⟩, ⟨3, 1, .rw, []⟩, ⟨2, 1, .rw, []⟩, ⟨1, 1, .rw, []⟩, ⟨0, 1, .rw, []⟩]⟩,
   ⟨0x4004, 1, 0x4, 1, 0x4, 0x0, false, [⟨11, 1, .ro, []⟩, ⟨10, 1, .ro, []⟩, ⟨8, 2, .ro, []⟩, ⟨7, 1, .ro, []⟩, ⟨6, 1, .ro, []⟩, ⟨5, 1, .ro, []⟩, ⟨4, 1, .ro, []⟩, ⟨3, 1, .ro, []⟩, ⟨0, 3, .ro, []⟩]⟩,
   ⟨0x4008, 1, 0x4, 1, 0x4, 0x0, false, [⟨8, 1, .w1c, []⟩, ⟨7, 1, .w1c, []⟩, ⟨6, 1, .w1c, []⟩, ⟨5, 1, .w1c, []⟩, ⟨4, 1, .w1c, []⟩, ⟨3, 1, .w1c, []⟩, ⟨2, 1, .w1c, []⟩, ⟨1, 1, .w1c, []⟩, ⟨0, 1, .w1c, []⟩]⟩,
   ⟨0x400c, 1, 0x4, 1, 0x4, 0x1388, false, [⟨0, 16, .rw, [(0, 999, 1000), (20001, 65535, 20000)]⟩]⟩,
   ⟨0x4010, 1, 0x4, 1, 0x4, 0x3383000a, false, [⟨24, 8, .rw, []⟩, ⟨16, 8, .rw, []⟩, ⟨0, 6, .rw, [(0, 4, 5), (51, 63, 50)]⟩]⟩,
   ⟨0x4014, 1, 0x4, 1, 0x4, 0x20100, false, [⟨25, 1, .rw, []⟩, ⟨24, 1, .rw, []⟩, ⟨16, 5, .rw, []⟩, ⟨8, 5, .rw, []⟩, ⟨0, 5, .rw, []⟩]⟩,
   ⟨0x4018, 1, 0x4, 1, 0x4, 0x0, false, [⟨0, 32, .rw, []⟩]⟩,
   ⟨0x401c, 1, 0x4, 1, 0x4, 0x0, false, [⟨0, 32, .rw, []⟩]⟩,
   ⟨0x4020, 1, 0x4, 1, 0x4, 0x0, false, [⟨0, 32, .ro, []⟩]⟩,
   ⟨0x4024, 1, 0x4, 1, 0x4, 0x0, false, [⟨0, 32, .ro, []⟩]⟩,
   ⟨0x4028, 1, 0x4, 1, 0x4, 0x0, false, [⟨0, 32, .ro, []⟩]⟩,
   ⟨0x402c, 1, 0x4, 1, 0x4, 0x0, false, [⟨0, 32, .ro, []⟩]⟩,
   ⟨0x4030, 1, 0x4, 1, 0x4, 0x0, false, [⟨0, 32, .ro, []⟩]⟩,
   ⟨0x4034, 1, 0x4, 1, 0x4, 0x0, false, [⟨0, 32, .ro, []⟩]⟩,
   ⟨0x4038, 1, 0x4, 1, 0x4, 0x0, false, [⟨0, 32, .ro, []⟩]⟩,
   ⟨0x403c, 1, 0x4, 1, 0x4, 0x0, false, [⟨0, 32, .ro, []⟩]⟩,
   ⟨0x4040, 1, 0x4, 1, 0x4, 0x1388, false, [⟨16, 16, .rw, []⟩, ⟨0, 16, .rw, [(40001, 65535, 40000)]⟩]⟩,
   ⟨0x4044, 1, 0x4, 1, 0x4, 0x50403, false, [⟨25, 1, .rw, []⟩, ⟨24, 1, .rw, []⟩, ⟨16, 5, .rw, []⟩, ⟨8, 5, .rw, []⟩, ⟨0, 5, .rw, []⟩]⟩,
   ⟨0x4048, 1, 0x4, 1, 0x4, 0x0, false, [⟨0, 32, .rw, []⟩]⟩,
   ⟨0x404c, 1, 0x4, 1, 0x4, 0x0, false, [⟨0, 32, .ro, []⟩]⟩,
   ⟨0x4050, 1, 0x4, 1, 0x4, 0x0, false, [⟨0, 32, .ro, []⟩]⟩,
   ⟨0x4054, 1, 0x4, 1, 0x4, 0x0, false, [⟨0, 32, .ro, []⟩]⟩]

/-- The rows of block PRK, at BAR0 offset 0x5000 (R28). -/
def rowsPRK : List RegRow :=
  [⟨0x5000, 1, 0x4, 1, 0x4, 0x0, false, [⟨4, 2, .rw, []⟩, ⟨1, 2, .rw, []⟩, ⟨0, 1, .rw, []⟩]⟩,
   ⟨0x5004, 1, 0x4, 1, 0x4, 0x0, false, [⟨16, 11, .ro, []⟩, ⟨6, 1, .ro, []⟩, ⟨5, 1, .ro, []⟩, ⟨3, 2, .ro, []⟩, ⟨2, 1, .ro, []⟩, ⟨0, 2, .ro, []⟩]⟩,
   ⟨0x5008, 1, 0x4, 1, 0x4, 0x28, false, [⟨0, 10, .rw, [(0, 9, 10), (1001, 1023, 1000)]⟩]⟩,
   ⟨0x500c, 1, 0x4, 1, 0x4, 0x0, false, [⟨1, 2, .wo, []⟩, ⟨0, 1, .wo, []⟩]⟩,
   ⟨0x5010, 1, 0x4, 1, 0x4, 0x0, false, [⟨4, 2, .wo, []⟩, ⟨0, 4, .wo, []⟩]⟩,
   ⟨0x5014, 1, 0x4, 1, 0x4, 0x0, false, [⟨31, 1, .ro, []⟩, ⟨30, 1, .w1c, []⟩, ⟨0, 8, .ro, []⟩]⟩,
   ⟨0x5018, 1, 0x4, 1, 0x4, 0x0, false, [⟨0, 14, .rw, []⟩]⟩,
   ⟨0x501c, 4, 0x4, 1, 0x4, 0x0, false, [⟨0, 32, .rw, []⟩]⟩,
   ⟨0x5030, 4, 0x4, 1, 0x4, 0x0, false, [⟨31, 1, .ro, []⟩, ⟨0, 15, .ro, []⟩]⟩,
   ⟨0x5040, 1, 0x4, 1, 0x4, 0x0, true, [⟨31, 1, .w1c, []⟩, ⟨0, 31, .ro, []⟩]⟩,
   ⟨0x5044, 1, 0x4, 1, 0x4, 0x0, true, [⟨31, 1, .w1c, []⟩, ⟨0, 31, .ro, []⟩]⟩,
   ⟨0x5048, 1, 0x4, 1, 0x4, 0x0, false, [⟨31, 1, .wo, []⟩, ⟨0, 16, .ro, []⟩]⟩,
   ⟨0x504c, 1, 0x4, 1, 0x4, 0x0, false, [⟨0, 32, .ro, []⟩]⟩,
   ⟨0x5050, 1, 0x4, 1, 0x4, 0x0, true, [⟨31, 1, .w1c, []⟩, ⟨0, 31, .ro, []⟩]⟩]

/-- The rows of block NTM, at BAR0 offset 0x6000 (R28). -/
def rowsNTM : List RegRow :=
  [⟨0x6000, 1, 0x4, 1, 0x4, 0xc, false, [⟨9, 3, .wo, []⟩, ⟨5, 1, .rw, []⟩, ⟨4, 1, .rw, []⟩, ⟨3, 1, .rw, []⟩, ⟨2, 1, .rw, []⟩]⟩,
   ⟨0x6004, 1, 0x4, 1, 0x4, 0x0, false, [⟨8, 1, .ro, []⟩, ⟨7, 1, .ro, []⟩, ⟨6, 1, .ro, []⟩, ⟨5, 1, .ro, []⟩, ⟨4, 1, .ro, []⟩, ⟨3, 1, .ro, []⟩, ⟨0, 3, .ro, []⟩]⟩,
   ⟨0x6008, 1, 0x4, 1, 0x4, 0x0, false, [⟨7, 1, .w1c, []⟩, ⟨6, 1, .w1c, []⟩, ⟨5, 1, .w1c, []⟩, ⟨4, 1, .w1c, []⟩, ⟨3, 1, .w1c, []⟩, ⟨2, 1, .w1c, []⟩, ⟨1, 1, .w1c, []⟩, ⟨0, 1, .w1c, []⟩]⟩,
   ⟨0x600c, 1, 0x4, 1, 0x4, 0x0, false, [⟨0, 30, .ro, []⟩]⟩,
   ⟨0x6010, 1, 0x4, 1, 0x4, 0x0, false, [⟨0, 32, .ro, []⟩]⟩,
   ⟨0x6014, 1, 0x4, 1, 0x4, 0x0, false, [⟨0, 16, .ro, []⟩]⟩,
   ⟨0x6018, 1, 0x4, 1, 0x4, 0x0, false, [⟨0, 32, .ro, []⟩]⟩,
   ⟨0x601c, 1, 0x4, 1, 0x4, 0x0, false, [⟨0, 32, .rw, []⟩]⟩,
   ⟨0x6020, 1, 0x4, 1, 0x4, 0x2, false, [⟨0, 2, .rw, []⟩]⟩,
   ⟨0x6024, 1, 0x4, 1, 0x4, 0x0, false, [⟨0, 32, .wo, []⟩]⟩,
   ⟨0x6028, 1, 0x4, 1, 0x4, 0x10a, false, [⟨9, 1, .wo, []⟩, ⟨8, 1, .rw, []⟩, ⟨0, 8, .rw, [(0, 0, 1)]⟩]⟩,
   ⟨0x602c, 1, 0x4, 1, 0x4, 0x0, false, [⟨0, 32, .ro, []⟩]⟩,
   ⟨0x6030, 1, 0x4, 1, 0x4, 0x0, false, [⟨0, 30, .rw, [(1000000000, 1073741823, 999999999)]⟩]⟩,
   ⟨0x6034, 1, 0x4, 1, 0x4, 0x0, false, [⟨0, 32, .rw, []⟩]⟩,
   ⟨0x6038, 1, 0x4, 1, 0x4, 0x0, false, [⟨0, 16, .rw, []⟩]⟩,
   ⟨0x603c, 1, 0x4, 1, 0x4, 0x0, false, [⟨0, 32, .rw, []⟩]⟩,
   ⟨0x6040, 1, 0x4, 1, 0x4, 0x0, false, [⟨0, 32, .rw, []⟩]⟩,
   ⟨0x6044, 1, 0x4, 1, 0x4, 0x0, false, [⟨16, 1, .rw, []⟩, ⟨0, 16, .rw, []⟩]⟩,
   ⟨0x6048, 1, 0x4, 1, 0x4, 0xbb8, false, [⟨0, 16, .rw, [(0, 9, 10)]⟩]⟩,
   ⟨0x604c, 1, 0x4, 1, 0x4, 0x0, false, [⟨0, 32, .ro, []⟩]⟩,
   ⟨0x6050, 1, 0x4, 1, 0x4, 0x0, false, [⟨0, 32, .rw, []⟩]⟩,
   ⟨0x6054, 1, 0x4, 1, 0x4, 0x0, false, [⟨16, 16, .rw, []⟩, ⟨0, 16, .rw, []⟩]⟩,
   ⟨0x6058, 1, 0x4, 1, 0x4, 0x3e8, false, [⟨0, 32, .rw, []⟩]⟩,
   ⟨0x605c, 1, 0x4, 1, 0x4, 0x27100001, false, [⟨16, 16, .rw, [(0, 0, 1), (50001, 65535, 50000)]⟩, ⟨8, 1, .rw, []⟩, ⟨0, 2, .rw, []⟩]⟩,
   ⟨0x6060, 1, 0x4, 1, 0x4, 0x0, false, [⟨0, 16, .rw, []⟩]⟩,
   ⟨0x6064, 1, 0x4, 1, 0x4, 0x0, false, [⟨0, 32, .ro, []⟩]⟩,
   ⟨0x6068, 1, 0x4, 1, 0x4, 0x0, false, [⟨0, 32, .ro, []⟩]⟩,
   ⟨0x606c, 1, 0x4, 1, 0x4, 0x80000000, false, [⟨0, 32, .ro, []⟩]⟩,
   ⟨0x6070, 1, 0x4, 1, 0x4, 0x0, false, [⟨0, 30, .rw, [(1000000000, 1073741823, 999999999)]⟩]⟩,
   ⟨0x6074, 1, 0x4, 1, 0x4, 0x0, false, [⟨0, 32, .rw, []⟩]⟩,
   ⟨0x6078, 1, 0x4, 1, 0x4, 0x0, false, [⟨31, 1, .rw, []⟩, ⟨0, 16, .rw, []⟩]⟩,
   ⟨0x607c, 1, 0x4, 1, 0x4, 0x0, false, [⟨0, 32, .ro, []⟩]⟩]

/-- The rows of block ETH, at BAR0 offset 0x7000 (R28). -/
def rowsETH : List RegRow :=
  [⟨0x7000, 2, 0x800, 1, 0x800, 0x2, false, [⟨5, 1, .rw, []⟩, ⟨2, 2, .rw, []⟩, ⟨1, 1, .rw, []⟩, ⟨0, 1, .rw, []⟩]⟩,
   ⟨0x7004, 2, 0x800, 1, 0x800, 0x0, false, [⟨3, 1, .ro, []⟩, ⟨2, 1, .ro, []⟩, ⟨1, 1, .ro, []⟩, ⟨0, 1, .ro, []⟩]⟩,
   ⟨0x7008, 2, 0x800, 1, 0x800, 0x0, false, [⟨0, 32, .rw, []⟩]⟩,
   ⟨0x700c, 2, 0x800, 1, 0x800, 0x0, false, [⟨0, 16, .rw, []⟩]⟩,
   ⟨0x7010, 2, 0x800, 1, 0x800, 0x3, false, [⟨24, 8, .rw, []⟩, ⟨2, 1, .rw, []⟩, ⟨1, 1, .rw, []⟩, ⟨0, 1, .rw, []⟩]⟩,
   ⟨0x7014, 2, 0x800, 1, 0x800, 0x0, false, [⟨0, 16, .rw, []⟩]⟩,
   ⟨0x7018, 2, 0x800, 1, 0x800, 0x0, false, [⟨0, 16, .rw, []⟩]⟩,
   ⟨0x701c, 2, 0x800, 1, 0x800, 0x1900000, false, [⟨16, 16, .rw, [(0, 9, 10)]⟩, ⟨1, 1, .rw, []⟩, ⟨0, 1, .rw, []⟩]⟩,
   ⟨0x7020, 2, 0x800, 1, 0x800, 0x0, true, [⟨31, 1, .w1c, []⟩, ⟨0, 31, .ro, []⟩]⟩,
   ⟨0x7024, 2, 0x800, 1, 0x800, 0x0, true, [⟨31, 1, .w1c, []⟩, ⟨0, 31, .ro, []⟩]⟩,
   ⟨0x7028, 2, 0x800, 1, 0x800, 0x0, true, [⟨31, 1, .w1c, []⟩, ⟨0, 31, .ro, []⟩]⟩,
   ⟨0x702c, 2, 0x800, 1, 0x800, 0x0, true, [⟨31, 1, .w1c, []⟩, ⟨0, 31, .ro, []⟩]⟩,
   ⟨0x7030, 2, 0x800, 1, 0x800, 0x0, true, [⟨31, 1, .w1c, []⟩, ⟨0, 31, .ro, []⟩]⟩,
   ⟨0x7034, 2, 0x800, 1, 0x800, 0x0, true, [⟨31, 1, .w1c, []⟩, ⟨0, 31, .ro, []⟩]⟩,
   ⟨0x7038, 2, 0x800, 1, 0x800, 0x0, true, [⟨31, 1, .w1c, []⟩, ⟨0, 31, .ro, []⟩]⟩,
   ⟨0x703c, 2, 0x800, 1, 0x800, 0x0, true, [⟨31, 1, .w1c, []⟩, ⟨0, 31, .ro, []⟩]⟩]

/-- The rows of block BOB, at BAR0 offset 0x8000 (R28). -/
def rowsBOB : List RegRow :=
  [⟨0x8000, 16, 0x200, 1, 0x200, 0x0, false, [⟨0, 1, .rw, []⟩]⟩,
   ⟨0x8004, 16, 0x200, 1, 0x200, 0x0, false, [⟨8, 4, .ro, []⟩, ⟨7, 1, .ro, []⟩, ⟨4, 3, .ro, []⟩, ⟨3, 1, .ro, []⟩, ⟨2, 1, .ro, []⟩, ⟨1, 1, .ro, []⟩, ⟨0, 1, .ro, []⟩]⟩,
   ⟨0x8008, 16, 0x200, 1, 0x200, 0x0, false, [⟨8, 24, .wo, []⟩, ⟨0, 8, .wo, []⟩]⟩,
   ⟨0x800c, 16, 0x200, 1, 0x200, 0x0, false, [⟨0, 32, .wo, []⟩]⟩,
   ⟨0x8010, 16, 0x200, 1, 0x200, 0x0, false, [⟨4, 3, .rw, []⟩, ⟨0, 4, .rw, []⟩]⟩,
   ⟨0x8014, 16, 0x200, 1, 0x200, 0x0, false, [⟨28, 4, .ro, []⟩, ⟨24, 3, .ro, []⟩, ⟨0, 24, .ro, []⟩]⟩,
   ⟨0x8018, 16, 0x200, 1, 0x200, 0x0, false, [⟨0, 32, .ro, []⟩]⟩,
   ⟨0x801c, 16, 0x200, 1, 0x200, 0x0, false, [⟨0, 32, .ro, []⟩]⟩,
   ⟨0x8020, 16, 0x200, 1, 0x200, 0x0, false, [⟨8, 8, .w1c, []⟩, ⟨0, 8, .w1c, []⟩]⟩,
   ⟨0x8024, 16, 0x200, 1, 0x200, 0x0, true, [⟨31, 1, .w1c, []⟩, ⟨0, 31, .ro, []⟩]⟩,
   ⟨0x8028, 16, 0x200, 1, 0x200, 0x0, false, [⟨0, 32, .ro, []⟩]⟩,
   ⟨0x802c, 16, 0x200, 1, 0x200, 0x0, false, [⟨0, 32, .ro, []⟩]⟩,
   ⟨0x8030, 16, 0x200, 1, 0x200, 0x0, false, [⟨0, 32, .ro, []⟩]⟩,
   ⟨0x8034, 16, 0x200, 1, 0x200, 0x0, false, [⟨0, 32, .ro, []⟩]⟩,
   ⟨0x8040, 16, 0x200, 8, 0x10, 0x0, false, [⟨31, 1, .rw, []⟩, ⟨30, 1, .rw, []⟩, ⟨29, 1, .rw, []⟩, ⟨24, 4, .rw, [(9, 15, 8)]⟩, ⟨16, 8, .rw, []⟩]⟩,
   ⟨0x8044, 16, 0x200, 8, 0x10, 0x0, false, [⟨0, 24, .rw, []⟩]⟩,
   ⟨0x8048, 16, 0x200, 8, 0x10, 0x0, false, [⟨1, 31, .rw, []⟩]⟩,
   ⟨0x804c, 16, 0x200, 8, 0x10, 0x40000, false, [⟨0, 32, .rw, []⟩]⟩,
   ⟨0x80c0, 16, 0x200, 8, 0x20, 0x0, false, [⟨8, 8, .ro, []⟩, ⟨5, 1, .ro, []⟩, ⟨4, 1, .ro, []⟩, ⟨0, 3, .ro, []⟩]⟩,
   ⟨0x80c4, 16, 0x200, 8, 0x20, 0x0, false, [⟨0, 24, .ro, []⟩]⟩,
   ⟨0x80c8, 16, 0x200, 8, 0x20, 0x0, false, [⟨31, 1, .wo, []⟩, ⟨0, 24, .ro, []⟩]⟩,
   ⟨0x80cc, 16, 0x200, 8, 0x20, 0x0, true, [⟨31, 1, .w1c, []⟩, ⟨0, 31, .ro, []⟩]⟩,
   ⟨0x80d0, 16, 0x200, 8, 0x20, 0x0, true, [⟨31, 1, .w1c, []⟩, ⟨0, 31, .ro, []⟩]⟩,
   ⟨0x80d4, 16, 0x200, 8, 0x20, 0x0, true, [⟨31, 1, .w1c, []⟩, ⟨0, 31, .ro, []⟩]⟩,
   ⟨0x80d8, 16, 0x200, 8, 0x20, 0x0, false, [⟨0, 32, .ro, []⟩]⟩]

/-- The rows of block THB, at BAR0 offset 0xa000 (R28). -/
def rowsTHB : List RegRow :=
  [⟨0xa000, 1, 0x4, 1, 0x4, 0x0, false, [⟨0, 32, .ro, []⟩]⟩,
   ⟨0xa004, 1, 0x4, 1, 0x4, 0x0, false, [⟨3, 1, .ro, []⟩, ⟨2, 1, .ro, []⟩, ⟨1, 1, .ro, []⟩, ⟨0, 1, .ro, []⟩]⟩,
   ⟨0xa008, 1, 0x4, 1, 0x4, 0x0, false, [⟨1, 1, .w1c, []⟩, ⟨0, 1, .w1c, []⟩]⟩,
   ⟨0xa00c, 1, 0x4, 1, 0x4, 0x0, false, [⟨0, 32, .ro, []⟩]⟩,
   ⟨0xa010, 1, 0x4, 1, 0x4, 0x0, false, [⟨16, 16, .rw, []⟩, ⟨0, 16, .rw, [(1, 99, 100)]⟩]⟩,
   ⟨0xa014, 1, 0x4, 1, 0x4, 0x0, false, [⟨0, 16, .w1c, []⟩]⟩,
   ⟨0xa018, 1, 0x4, 1, 0x4, 0x0, false, [⟨0, 8, .ro, []⟩]⟩]

/-- The rows of block STCH, at BAR0 offset 0xb000 (R28). -/
def rowsSTCH : List RegRow :=
  [⟨0xb000, 1, 0x4, 1, 0x4, 0x0, false, [⟨0, 3, .rw, []⟩]⟩,
   ⟨0xb004, 1, 0x4, 1, 0x4, 0x0, false, [⟨8, 1, .ro, []⟩, ⟨4, 3, .ro, []⟩, ⟨0, 3, .ro, []⟩]⟩,
   ⟨0xb008, 1, 0x4, 1, 0x4, 0x0, false, [⟨7, 1, .w1c, []⟩, ⟨6, 1, .w1c, []⟩, ⟨5, 1, .w1c, []⟩, ⟨4, 1, .w1c, []⟩, ⟨3, 1, .w1c, []⟩, ⟨2, 1, .w1c, []⟩, ⟨1, 1, .w1c, []⟩, ⟨0, 1, .w1c, []⟩]⟩,
   ⟨0xb00c, 1, 0x4, 1, 0x4, 0x0, false, [⟨8, 3, .ro, []⟩, ⟨4, 1, .ro, []⟩, ⟨3, 1, .ro, []⟩, ⟨2, 1, .ro, []⟩, ⟨1, 1, .ro, []⟩, ⟨0, 1, .ro, []⟩]⟩,
   ⟨0xb010, 1, 0x4, 1, 0x4, 0x3e8, false, [⟨0, 16, .rw, [(10001, 65535, 10000)]⟩]⟩,
   ⟨0xb014, 1, 0x4, 1, 0x4, 0x0, false, [⟨0, 8, .ro, []⟩, ⟨8, 8, .ro, []⟩, ⟨16, 8, .ro, []⟩]⟩,
   ⟨0xb018, 1, 0x4, 1, 0x4, 0x0, false, [⟨31, 1, .wo, []⟩, ⟨16, 15, .ro, []⟩, ⟨0, 16, .ro, []⟩]⟩,
   ⟨0xb020, 3, 0x4, 1, 0x4, 0x7fff0004, false, [⟨16, 16, .rw, []⟩, ⟨8, 8, .rw, []⟩, ⟨2, 1, .rw, []⟩, ⟨0, 2, .rw, []⟩]⟩,
   ⟨0xb030, 3, 0x4, 1, 0x4, 0x32, false, [⟨31, 1, .rw, []⟩, ⟨0, 10, .rw, [(0, 0, 1)]⟩]⟩,
   ⟨0xb040, 3, 0x4, 1, 0x4, 0x0, false, [⟨0, 32, .rw, []⟩]⟩,
   ⟨0xb050, 3, 0x4, 1, 0x4, 0x30d40, false, [⟨0, 22, .rw, []⟩]⟩,
   ⟨0xb060, 3, 0x4, 1, 0x4, 0x80, false, [⟨20, 12, .rw, []⟩, ⟨7, 13, .rw, [(0, 0, 1), (4097, 8191, 4096)]⟩, ⟨0, 6, .rw, []⟩]⟩,
   ⟨0xb070, 1, 0x4, 1, 0x4, 0x55550000, false, [⟨0, 32, .rw, []⟩]⟩,
   ⟨0xb074, 1, 0x4, 1, 0x4, 0xaaaa, false, [⟨0, 16, .rw, []⟩]⟩,
   ⟨0xb080, 6, 0x4, 1, 0x4, 0x0, false, [⟨0, 32, .rw, []⟩]⟩,
   ⟨0xb0a0, 1, 0x4, 1, 0x4, 0x0, true, [⟨31, 1, .w1c, []⟩, ⟨0, 31, .ro, []⟩]⟩,
   ⟨0xb0a4, 1, 0x4, 1, 0x4, 0x0, true, [⟨31, 1, .w1c, []⟩, ⟨0, 31, .ro, []⟩]⟩,
   ⟨0xb0a8, 1, 0x4, 1, 0x4, 0x0, true, [⟨31, 1, .w1c, []⟩, ⟨0, 31, .ro, []⟩]⟩,
   ⟨0xb0ac, 1, 0x4, 1, 0x4, 0x0, true, [⟨31, 1, .w1c, []⟩, ⟨0, 31, .ro, []⟩]⟩,
   ⟨0xb0b0, 1, 0x4, 1, 0x4, 0x0, true, [⟨31, 1, .w1c, []⟩, ⟨0, 31, .ro, []⟩]⟩,
   ⟨0xb0b4, 1, 0x4, 1, 0x4, 0x0, true, [⟨31, 1, .w1c, []⟩, ⟨0, 31, .ro, []⟩]⟩]

/-- The rows of block TAT, at BAR0 offset 0xc000 (R28). -/
def rowsTAT : List RegRow :=
  [⟨0xc000, 1, 0x4, 1, 0x4, 0x0, false, [⟨20, 2, .ro, []⟩, ⟨18, 2, .ro, []⟩, ⟨16, 2, .ro, []⟩, ⟨8, 3, .ro, []⟩, ⟨0, 3, .ro, []⟩]⟩,
   ⟨0xc004, 1, 0x4, 1, 0x4, 0x0, false, [⟨3, 1, .w1c, []⟩, ⟨2, 1, .w1c, []⟩, ⟨1, 1, .w1c, []⟩, ⟨0, 1, .w1c, []⟩]⟩,
   ⟨0xc008, 1, 0x4, 1, 0x4, 0x0, false, [⟨31, 1, .wo, []⟩, ⟨16, 15, .ro, []⟩, ⟨0, 16, .ro, []⟩]⟩,
   ⟨0xc00c, 1, 0x4, 1, 0x4, 0xf3300cd, false, [⟨16, 12, .rw, []⟩, ⟨0, 12, .rw, []⟩]⟩,
   ⟨0xc020, 3, 0x4, 1, 0x4, 0x40000, false, [⟨24, 8, .rw, []⟩, ⟨16, 8, .rw, [(0, 0, 1)]⟩, ⟨0, 1, .rw, []⟩]⟩,
   ⟨0xc030, 3, 0x4, 1, 0x4, 0x0, false, [⟨16, 16, .rw, []⟩, ⟨0, 16, .rw, []⟩]⟩,
   ⟨0xc040, 3, 0x4, 1, 0x4, 0x0, false, [⟨16, 16, .rw, []⟩, ⟨0, 16, .rw, []⟩]⟩,
   ⟨0xc050, 3, 0x4, 1, 0x4, 0x2af8, false, [⟨0, 16, .rw, [(0, 0, 1)]⟩]⟩,
   ⟨0xc060, 3, 0x4, 1, 0x4, 0x6660000, false, [⟨16, 16, .rw, [(32768, 65535, 32767)]⟩, ⟨0, 16, .rw, []⟩]⟩,
   ⟨0xc070, 3, 0x4, 1, 0x4, 0x148, false, [⟨31, 1, .rw, []⟩, ⟨24, 1, .rw, []⟩, ⟨16, 5, .rw, []⟩, ⟨0, 16, .rw, []⟩]⟩,
   ⟨0xc080, 3, 0x4, 1, 0x4, 0x0, false, [⟨0, 16, .rw, []⟩]⟩,
   ⟨0xc090, 1, 0x4, 1, 0x4, 0x0, true, [⟨31, 1, .w1c, []⟩, ⟨0, 31, .ro, []⟩]⟩,
   ⟨0xc094, 1, 0x4, 1, 0x4, 0x0, true, [⟨31, 1, .w1c, []⟩, ⟨0, 31, .ro, []⟩]⟩,
   ⟨0xc098, 1, 0x4, 1, 0x4, 0x0, true, [⟨31, 1, .w1c, []⟩, ⟨0, 31, .ro, []⟩]⟩,
   ⟨0xc0a0, 6, 0x4, 1, 0x4, 0x0, false, [⟨0, 32, .rw, []⟩]⟩,
   ⟨0xc0c0, 6, 0x4, 1, 0x4, 0x0, false, [⟨0, 32, .w1c, []⟩]⟩,
   ⟨0xc100, 192, 0x4, 1, 0x4, 0x0, false, [⟨24, 8, .ro, []⟩, ⟨12, 12, .ro, []⟩, ⟨0, 12, .ro, []⟩]⟩,
   ⟨0xc400, 192, 0x4, 1, 0x4, 0xff000000, false, [⟨24, 8, .ro, []⟩, ⟨0, 24, .ro, []⟩]⟩,
   ⟨0xc700, 192, 0x4, 1, 0x4, 0x0, false, [⟨16, 16, .ro, []⟩, ⟨0, 16, .ro, []⟩]⟩]

/-- The rows of block LNK, at BAR0 offset 0x10000 (R28). -/
def rowsLNK : List RegRow :=
  [⟨0x10000, 26, 0x400, 1, 0x400, 0x202, false, [⟨8, 2, .rw, [(3, 3, 2)]⟩, ⟨6, 1, .rw, []⟩, ⟨5, 1, .rw, []⟩, ⟨4, 1, .rw, []⟩, ⟨3, 1, .rw, []⟩, ⟨2, 1, .w1s, []⟩, ⟨1, 1, .rw, []⟩, ⟨0, 1, .rw, []⟩]⟩,
   ⟨0x10004, 26, 0x400, 1, 0x400, 0x0, false, [⟨24, 4, .ro, []⟩, ⟨20, 4, .ro, []⟩, ⟨16, 4, .ro, []⟩, ⟨9, 1, .ro, []⟩, ⟨8, 1, .ro, []⟩, ⟨7, 1, .ro, []⟩, ⟨6, 1, .ro, []⟩, ⟨5, 1, .ro, []⟩, ⟨4, 1, .ro, []⟩, ⟨3, 1, .ro, []⟩, ⟨0, 3, .ro, []⟩]⟩,
   ⟨0x10008, 26, 0x400, 1, 0x400, 0x0, false, [⟨6, 1, .w1c, []⟩, ⟨5, 1, .w1c, []⟩, ⟨4, 1, .w1c, []⟩, ⟨3, 1, .w1c, []⟩, ⟨2, 1, .w1c, []⟩, ⟨1, 1, .w1c, []⟩]⟩,
   ⟨0x1000c, 26, 0x400, 1, 0x400, 0x401, false, [⟨8, 4, .rw, [(13, 15, 12)]⟩, ⟨0, 3, .rw, [(7, 7, 6)]⟩]⟩,
   ⟨0x10010, 26, 0x400, 1, 0x400, 0x100a0fa0, false, [⟨24, 8, .rw, []⟩, ⟨16, 8, .rw, [(0, 0, 1)]⟩, ⟨0, 16, .rw, [(0, 1999, 2000)]⟩]⟩,
   ⟨0x10014, 26, 0x400, 1, 0x400, 0x0, false, [⟨20, 12, .ro, []⟩, ⟨16, 4, .ro, []⟩, ⟨8, 4, .ro, []⟩, ⟨0, 3, .ro, []⟩]⟩,
   ⟨0x10018, 26, 0x400, 1, 0x400, 0x0, true, [⟨31, 1, .w1c, []⟩, ⟨0, 31, .ro, []⟩]⟩,
   ⟨0x1001c, 26, 0x400, 1, 0x400, 0x0, true, [⟨31, 1, .w1c, []⟩, ⟨0, 31, .ro, []⟩]⟩,
   ⟨0x10020, 26, 0x400, 1, 0x400, 0x0, true, [⟨31, 1, .w1c, []⟩, ⟨0, 31, .ro, []⟩]⟩,
   ⟨0x10024, 26, 0x400, 1, 0x400, 0x0, true, [⟨31, 1, .w1c, []⟩, ⟨0, 31, .ro, []⟩]⟩,
   ⟨0x10028, 26, 0x400, 1, 0x400, 0x0, true, [⟨31, 1, .w1c, []⟩, ⟨0, 31, .ro, []⟩]⟩,
   ⟨0x1002c, 26, 0x400, 1, 0x400, 0x0, true, [⟨31, 1, .w1c, []⟩, ⟨0, 31, .ro, []⟩]⟩,
   ⟨0x10030, 26, 0x400, 1, 0x400, 0x0, false, [⟨8, 1, .w1s, []⟩, ⟨7, 1, .ro, []⟩, ⟨5, 2, .rw, []⟩, ⟨4, 1, .rw, []⟩, ⟨2, 2, .rw, []⟩, ⟨1, 1, .rw, []⟩, ⟨0, 1, .rw, []⟩]⟩,
   ⟨0x10034, 26, 0x400, 1, 0x400, 0x0, false, [⟨0, 32, .ro, []⟩]⟩,
   ⟨0x10038, 26, 0x400, 1, 0x400, 0x0, false, [⟨31, 1, .w1c, []⟩, ⟨0, 16, .ro, []⟩]⟩,
   ⟨0x1003c, 26, 0x400, 1, 0x400, 0x0, false, [⟨0, 32, .ro, []⟩]⟩,
   ⟨0x10040, 26, 0x400, 1, 0x400, 0x0, false, [⟨31, 1, .w1c, []⟩, ⟨0, 16, .ro, []⟩]⟩,
   ⟨0x10044, 26, 0x400, 1, 0x400, 0x1400, false, [⟨8, 5, .rw, [(0, 15, 16), (25, 31, 24)]⟩, ⟨2, 1, .ro, []⟩, ⟨1, 1, .ro, []⟩, ⟨0, 1, .w1s, []⟩]⟩,
   ⟨0x10048, 26, 0x400, 1, 0x400, 0x0, false, [⟨8, 8, .ro, []⟩, ⟨0, 8, .ro, []⟩]⟩]

/-- The rows of block CEL, at BAR0 offset 0x18000 (R28). -/
def rowsCEL : List RegRow :=
  [⟨0x18000, 1, 0x4, 1, 0x4, 0x0, false, [⟨1, 1, .rw, []⟩, ⟨0, 1, .rw, []⟩]⟩,
   ⟨0x18004, 1, 0x4, 1, 0x4, 0x0, false, [⟨4, 1, .ro, []⟩, ⟨3, 1, .ro, []⟩, ⟨2, 1, .ro, []⟩, ⟨1, 1, .ro, []⟩, ⟨0, 1, .ro, []⟩]⟩,
   ⟨0x18008, 1, 0x4, 1, 0x4, 0x0, false, [⟨10, 1, .w1c, []⟩, ⟨9, 1, .w1c, []⟩, ⟨8, 1, .w1c, []⟩, ⟨7, 1, .w1c, []⟩, ⟨6, 1, .w1c, []⟩, ⟨5, 1, .w1c, []⟩, ⟨4, 1, .w1c, []⟩, ⟨3, 1, .w1c, []⟩, ⟨2, 1, .w1c, []⟩, ⟨1, 1, .w1c, []⟩, ⟨0, 1, .w1c, []⟩]⟩,
   ⟨0x1800c, 1, 0x4, 1, 0x4, 0x14, false, [⟨0, 7, .rw, [(0, 0, 1), (101, 127, 100)]⟩]⟩,
   ⟨0x18010, 1, 0x4, 1, 0x4, 0x96, false, [⟨0, 10, .rw, [(0, 49, 50), (501, 1023, 500)]⟩]⟩,
   ⟨0x18014, 1, 0x4, 1, 0x4, 0x803e8, false, [⟨16, 8, .rw, []⟩, ⟨0, 16, .rw, [(0, 99, 100), (10001, 65535, 10000)]⟩]⟩,
   ⟨0x18018, 1, 0x4, 1, 0x4, 0x14100, false, [⟨16, 2, .rw, []⟩, ⟨12, 4, .rw, [(0, 1, 2)]⟩, ⟨0, 11, .rw, [(0, 15, 16), (1025, 2047, 1024)]⟩]⟩,
   ⟨0x1801c, 1, 0x4, 1, 0x4, 0x0, false, [⟨24, 1, .wo, []⟩, ⟨0, 24, .wo, []⟩]⟩,
   ⟨0x18020, 1, 0x4, 1, 0x4, 0x0, false, [⟨0, 32, .ro, []⟩]⟩,
   ⟨0x18024, 1, 0x4, 1, 0x4, 0x0, true, [⟨31, 1, .w1c, []⟩, ⟨0, 31, .ro, []⟩]⟩,
   ⟨0x18028, 1, 0x4, 1, 0x4, 0x0, true, [⟨31, 1, .w1c, []⟩, ⟨0, 31, .ro, []⟩]⟩,
   ⟨0x1802c, 1, 0x4, 1, 0x4, 0x0, true, [⟨31, 1, .w1c, []⟩, ⟨0, 31, .ro, []⟩]⟩,
   ⟨0x18100, 24, 0x4, 1, 0x4, 0x0, false, [⟨8, 1, .rw, []⟩, ⟨0, 4, .rw, [(9, 15, 8)]⟩]⟩,
   ⟨0x18200, 24, 0x4, 1, 0x4, 0x0, false, [⟨16, 12, .ro, []⟩, ⟨7, 1, .ro, []⟩, ⟨6, 1, .ro, []⟩, ⟨5, 1, .ro, []⟩, ⟨4, 1, .ro, []⟩, ⟨0, 4, .ro, []⟩]⟩,
   ⟨0x18300, 24, 0x4, 1, 0x4, 0x0, true, [⟨31, 1, .w1c, []⟩, ⟨0, 31, .ro, []⟩]⟩,
   ⟨0x18380, 24, 0x4, 1, 0x4, 0x0, true, [⟨31, 1, .w1c, []⟩, ⟨0, 31, .ro, []⟩]⟩]

/-- The rows of block ADC, at BAR0 offset 0x20000 (R28). -/
def rowsADC : List RegRow :=
  [⟨0x20000, 1, 0x4, 1, 0x4, 0x0, false, [⟨9, 1, .rw, []⟩, ⟨0, 2, .rw, []⟩]⟩,
   ⟨0x20004, 1, 0x4, 1, 0x4, 0x0, false, [⟨9, 1, .w1c, []⟩, ⟨8, 1, .w1c, []⟩, ⟨7, 1, .w1c, []⟩, ⟨6, 1, .w1c, []⟩, ⟨5, 1, .w1c, []⟩, ⟨4, 1, .w1c, []⟩, ⟨3, 1, .w1c, []⟩, ⟨2, 1, .w1c, []⟩, ⟨1, 1, .w1c, []⟩, ⟨0, 1, .w1c, []⟩]⟩,
   ⟨0x20008, 1, 0x4, 1, 0x4, 0x9c40000, false, [⟨16, 12, .rw, [(0, 1799, 1800), (2751, 4095, 2750)]⟩, ⟨0, 2, .rw, [(3, 3, 0)]⟩]⟩,
   ⟨0x2000c, 1, 0x4, 1, 0x4, 0x0, false, [⟨2, 2, .ro, []⟩, ⟨1, 1, .ro, []⟩, ⟨0, 1, .ro, []⟩]⟩,
   ⟨0x20010, 1, 0x4, 1, 0x4, 0x0, false, [⟨0, 24, .w1c, []⟩]⟩,
   ⟨0x20014, 1, 0x4, 1, 0x4, 0x0, false, [⟨0, 1, .w1s, []⟩]⟩,
   ⟨0x20018, 1, 0x4, 1, 0x4, 0x0, false, [⟨8, 8, .wo, []⟩, ⟨3, 1, .wo, []⟩, ⟨2, 1, .wo, []⟩, ⟨0, 2, .wo, []⟩]⟩,
   ⟨0x2001c, 1, 0x4, 1, 0x4, 0x0, false, [⟨0, 2, .wo, []⟩]⟩,
   ⟨0x20020, 1, 0x4, 1, 0x4, 0x0, false, [⟨8, 1, .wo, []⟩, ⟨0, 5, .wo, []⟩]⟩,
   ⟨0x20024, 1, 0x4, 1, 0x4, 0x0, true, [⟨31, 1, .w1c, []⟩, ⟨0, 31, .ro, []⟩]⟩,
   ⟨0x20028, 2, 0x4, 1, 0x4, 0x0, false, [⟨0, 32, .ro, []⟩]⟩,
   ⟨0x20030, 2, 0x4, 1, 0x4, 0x100, false, [⟨16, 5, .rw, []⟩, ⟨10, 1, .rw, []⟩, ⟨9, 1, .rw, []⟩, ⟨8, 1, .rw, []⟩]⟩,
   ⟨0x20038, 2, 0x4, 1, 0x4, 0x3, false, [⟨16, 1, .ro, []⟩, ⟨8, 5, .ro, []⟩, ⟨2, 1, .ro, []⟩, ⟨0, 2, .ro, []⟩]⟩,
   ⟨0x20040, 2, 0x4, 1, 0x4, 0x0, false, [⟨0, 32, .ro, []⟩]⟩,
   ⟨0x20048, 2, 0x4, 1, 0x4, 0x0, true, [⟨31, 1, .w1c, []⟩, ⟨0, 31, .ro, []⟩]⟩,
   ⟨0x20050, 2, 0x4, 1, 0x4, 0x0, false, [⟨0, 32, .ro, []⟩]⟩,
   ⟨0x20060, 1, 0x4, 1, 0x4, 0x10000064, false, [⟨24, 8, .rw, []⟩, ⟨0, 16, .rw, []⟩]⟩,
   ⟨0x20064, 1, 0x4, 1, 0x4, 0x0, false, [⟨31, 1, .ro, []⟩, ⟨30, 1, .ro, []⟩, ⟨29, 1, .ro, []⟩, ⟨24, 3, .ro, []⟩, ⟨0, 16, .ro, []⟩]⟩,
   ⟨0x20068, 1, 0x4, 1, 0x4, 0xa000000, false, [⟨24, 8, .rw, [(0, 0, 1)]⟩, ⟨0, 24, .rw, []⟩]⟩,
   ⟨0x2006c, 1, 0x4, 1, 0x4, 0x0, true, [⟨31, 1, .w1c, []⟩, ⟨0, 31, .ro, []⟩]⟩,
   ⟨0x20070, 1, 0x4, 1, 0x4, 0x0, true, [⟨31, 1, .w1c, []⟩, ⟨0, 31, .ro, []⟩]⟩,
   ⟨0x20080, 24, 0x4, 1, 0x4, 0x0, false, [⟨0, 2, .rw, []⟩]⟩,
   ⟨0x20100, 32, 0x4, 1, 0x4, 0x0, false, [⟨0, 5, .rw, [(28, 31, 24)]⟩]⟩,
   ⟨0x20180, 32, 0x4, 1, 0x4, 0x0, false, [⟨0, 5, .rw, [(28, 31, 24)]⟩]⟩,
   ⟨0x20200, 32, 0x4, 1, 0x4, 0x0, false, [⟨0, 32, .ro, []⟩]⟩,
   ⟨0x20280, 32, 0x4, 1, 0x4, 0x0, false, [⟨0, 32, .ro, []⟩]⟩,
   ⟨0x20300, 32, 0x4, 1, 0x4, 0x0, false, [⟨0, 32, .ro, []⟩]⟩,
   ⟨0x20400, 8, 0x4, 1, 0x4, 0x0, false, [⟨31, 1, .rwl, []⟩, ⟨24, 5, .rwl, [(24, 31, 23)]⟩, ⟨16, 8, .rwl, []⟩, ⟨12, 4, .rwl, []⟩, ⟨1, 1, .rwl, []⟩, ⟨0, 1, .rwl, []⟩]⟩,
   ⟨0x20420, 8, 0x4, 1, 0x4, 0x1ff0200, false, [⟨16, 10, .rwl, []⟩, ⟨0, 10, .rwl, []⟩]⟩,
   ⟨0x20440, 1, 0x4, 1, 0x4, 0x0, false, [⟨8, 8, .ro, []⟩, ⟨0, 8, .ro, []⟩]⟩,
   ⟨0x20500, 1, 0x4, 1, 0x4, 0x0, false, [⟨4, 4, .rw, []⟩, ⟨0, 1, .rw, []⟩]⟩,
   ⟨0x20504, 1, 0x4, 1, 0x4, 0x0, false, [⟨4, 4, .ro, []⟩, ⟨1, 1, .ro, []⟩, ⟨0, 1, .ro, []⟩]⟩,
   ⟨0x20508, 1, 0x4, 1, 0x4, 0x0, false, [⟨0, 32, .ro, []⟩]⟩,
   ⟨0x2050c, 1, 0x4, 1, 0x4, 0x0, false, [⟨0, 32, .ro, []⟩]⟩,
   ⟨0x20510, 1, 0x4, 1, 0x4, 0x0, false, [⟨0, 32, .ro, []⟩]⟩,
   ⟨0x20514, 1, 0x4, 1, 0x4, 0x0, false, [⟨0, 32, .ro, []⟩]⟩,
   ⟨0x20520, 4, 0x4, 1, 0x4, 0x0, true, [⟨31, 1, .w1c, []⟩, ⟨0, 31, .ro, []⟩]⟩]

/-- The rows of block PHU, at BAR0 offset 0x22000 (R28). -/
def rowsPHU : List RegRow :=
  [⟨0x22000, 1, 0x4, 1, 0x4, 0x6600, false, [⟨15, 1, .rw, []⟩, ⟨14, 1, .rw, []⟩, ⟨12, 2, .rw, [(3, 3, 2)]⟩, ⟨8, 4, .rw, []⟩, ⟨6, 1, .rw, []⟩, ⟨5, 1, .rw, []⟩, ⟨4, 1, .rw, []⟩, ⟨1, 1, .rw, []⟩, ⟨0, 1, .rw, []⟩]⟩,
   ⟨0x22004, 1, 0x4, 1, 0x4, 0x0, false, [⟨12, 1, .ro, []⟩, ⟨8, 4, .ro, []⟩, ⟨7, 1, .ro, []⟩, ⟨4, 3, .ro, []⟩, ⟨3, 1, .ro, []⟩, ⟨2, 1, .ro, []⟩, ⟨1, 1, .ro, []⟩, ⟨0, 1, .ro, []⟩]⟩,
   ⟨0x22008, 1, 0x4, 1, 0x4, 0x0, false, [⟨6, 1, .w1c, []⟩, ⟨5, 1, .w1c, []⟩, ⟨4, 1, .w1c, []⟩, ⟨3, 1, .w1c, []⟩, ⟨2, 1, .w1c, []⟩, ⟨1, 1, .w1c, []⟩, ⟨0, 1, .w1c, []⟩]⟩,
   ⟨0x2200c, 1, 0x4, 1, 0x4, 0x0, false, [⟨4, 1, .ro, []⟩, ⟨3, 1, .ro, []⟩, ⟨2, 1, .ro, []⟩, ⟨1, 1, .ro, []⟩, ⟨0, 1, .ro, []⟩]⟩,
   ⟨0x22010, 1, 0x4, 1, 0x4, 0x7fa0064, false, [⟨24, 3, .rw, []⟩, ⟨16, 8, .rw, [(251, 255, 250)]⟩, ⟨0, 8, .rw, [(201, 255, 200)]⟩]⟩,
   ⟨0x22014, 1, 0x4, 1, 0x4, 0x31, false, [⟨11, 1, .rw, []⟩, ⟨10, 1, .rw, []⟩, ⟨9, 1, .rw, []⟩, ⟨8, 1, .rw, []⟩, ⟨4, 4, .rw, []⟩, ⟨0, 3, .rw, []⟩]⟩,
   ⟨0x22018, 1, 0x4, 1, 0x4, 0x10060000, false, [⟨28, 4, .rw, [(0, 0, 1), (3, 15, 1)]⟩, ⟨18, 1, .rw, []⟩, ⟨17, 1, .rw, []⟩, ⟨16, 1, .rw, []⟩, ⟨0, 16, .rw, []⟩]⟩,
   ⟨0x2201c, 1, 0x4, 1, 0x4, 0x0, false, [⟨0, 32, .ro, []⟩]⟩,
   ⟨0x22020, 1, 0x4, 1, 0x4, 0x0, true, [⟨31, 1, .w1c, []⟩, ⟨0, 31, .ro, []⟩]⟩,
   ⟨0x22024, 1, 0x4, 1, 0x4, 0x0, true, [⟨31, 1, .w1c, []⟩, ⟨0, 31, .ro, []⟩]⟩,
   ⟨0x22028, 1, 0x4, 1, 0x4, 0x0, true, [⟨31, 1, .w1c, []⟩, ⟨0, 31, .ro, []⟩]⟩,
   ⟨0x2202c, 1, 0x4, 1, 0x4, 0x0, true, [⟨31, 1, .w1c, []⟩, ⟨0, 31, .ro, []⟩]⟩,
   ⟨0x22030, 1, 0x4, 1, 0x4, 0x0, false, [⟨31, 1, .wo, []⟩, ⟨0, 8, .ro, []⟩]⟩,
   ⟨0x22040, 4, 0x4, 1, 0x4, 0x0, false, [⟨31, 1, .rw, []⟩, ⟨30, 1, .rw, []⟩, ⟨8, 4, .rw, [(12, 15, 11)]⟩, ⟨4, 4, .rw, [(12, 15, 11)]⟩, ⟨0, 4, .rw, [(12, 15, 11)]⟩]⟩,
   ⟨0x22080, 12, 0x4, 1, 0x4, 0x0, false, [⟨31, 1, .rw, []⟩, ⟨30, 1, .rw, []⟩, ⟨28, 2, .rw, []⟩, ⟨24, 4, .rw, [(12, 15, 11)]⟩, ⟨0, 16, .rw, []⟩]⟩,
   ⟨0x220c0, 12, 0x4, 1, 0x4, 0x3f800000, false, [⟨0, 32, .rw, []⟩]⟩,
   ⟨0x22100, 12, 0x4, 1, 0x4, 0x1, false, [⟨0, 24, .rw, []⟩]⟩]

/-- The rows of block TWU, at BAR0 offset 0x23000 (R28). -/
def rowsTWU : List RegRow :=
  [⟨0x23000, 1, 0x4, 1, 0x4, 0x108, false, [⟨8, 3, .rw, []⟩, ⟨4, 2, .rw, [(3, 3, 0)]⟩, ⟨3, 1, .rw, []⟩, ⟨2, 1, .rw, []⟩, ⟨1, 1, .rw, []⟩, ⟨0, 1, .rw, []⟩]⟩,
   ⟨0x23004, 1, 0x4, 1, 0x4, 0x0, false, [⟨5, 1, .ro, []⟩, ⟨4, 1, .ro, []⟩, ⟨3, 1, .ro, []⟩, ⟨2, 1, .ro, []⟩, ⟨1, 1, .ro, []⟩, ⟨0, 1, .ro, []⟩]⟩,
   ⟨0x23008, 1, 0x4, 1, 0x4, 0x0, false, [⟨8, 1, .w1c, []⟩, ⟨7, 1, .w1c, []⟩, ⟨6, 1, .w1c, []⟩, ⟨5, 1, .w1c, []⟩, ⟨4, 1, .w1c, []⟩, ⟨3, 1, .w1c, []⟩, ⟨2, 1, .w1c, []⟩, ⟨1, 1, .w1c, []⟩, ⟨0, 1, .w1c, []⟩]⟩,
   ⟨0x2300c, 1, 0x4, 1, 0x4, 0x1000200, false, [⟨16, 16, .rw, []⟩, ⟨0, 16, .rw, []⟩]⟩,
   ⟨0x23010, 1, 0x4, 1, 0x4, 0x3e800c8, false, [⟨16, 16, .rw, [(0, 9, 10), (1501, 65535, 1500)]⟩, ⟨0, 16, .rw, [(0, 0, 1), (501, 65535, 500)]⟩]⟩,
   ⟨0x23014, 1, 0x4, 1, 0x4, 0x2710, false, [⟨0, 16, .rw, []⟩]⟩,
   ⟨0x23018, 1, 0x4, 1, 0x4, 0x47f2c, false, [⟨0, 32, .rw, [(0, 99999, 100000), (299793, 4294967295, 299792)]⟩]⟩,
   ⟨0x2301c, 1, 0x4, 1, 0x4, 0x0, false, [⟨0, 32, .rw, []⟩]⟩,
   ⟨0x23020, 4, 0x4, 1, 0x4, 0x0, false, [⟨0, 16, .rw, []⟩]⟩,
   ⟨0x23030, 1, 0x4, 1, 0x4, 0x0, false, [⟨0, 32, .ro, []⟩]⟩,
   ⟨0x23034, 1, 0x4, 1, 0x4, 0x0, false, [⟨0, 32, .ro, []⟩]⟩,
   ⟨0x23038, 1, 0x4, 1, 0x4, 0x0, true, [⟨31, 1, .w1c, []⟩, ⟨0, 31, .ro, []⟩]⟩,
   ⟨0x2303c, 1, 0x4, 1, 0x4, 0x0, true, [⟨31, 1, .w1c, []⟩, ⟨0, 31, .ro, []⟩]⟩,
   ⟨0x23040, 1, 0x4, 1, 0x4, 0x0, true, [⟨31, 1, .w1c, []⟩, ⟨0, 31, .ro, []⟩]⟩,
   ⟨0x23044, 1, 0x4, 1, 0x4, 0x0, true, [⟨31, 1, .w1c, []⟩, ⟨0, 31, .ro, []⟩]⟩,
   ⟨0x23050, 1, 0x4, 1, 0x4, 0x0, false, [⟨0, 32, .rw, []⟩]⟩,
   ⟨0x23054, 1, 0x4, 1, 0x4, 0x0, false, [⟨0, 32, .rw, []⟩]⟩,
   ⟨0x23058, 1, 0x4, 1, 0x4, 0x0, false, [⟨0, 30, .rw, [(1000000000, 1073741823, 999999999)]⟩]⟩,
   ⟨0x2305c, 1, 0x4, 1, 0x4, 0x0, false, [⟨16, 16, .rw, []⟩, ⟨0, 8, .rw, []⟩]⟩,
   ⟨0x23060, 1, 0x4, 1, 0x4, 0x0, false, [⟨0, 1, .wo, []⟩]⟩,
   ⟨0x23064, 1, 0x4, 1, 0x4, 0x0, false, [⟨0, 32, .ro, []⟩]⟩,
   ⟨0x23068, 1, 0x4, 1, 0x4, 0x0, false, [⟨16, 16, .ro, []⟩, ⟨4, 4, .ro, []⟩, ⟨1, 1, .ro, []⟩, ⟨0, 1, .ro, []⟩]⟩]

/-- The rows of block PWM, at BAR0 offset 0x24000 (R28). -/
def rowsPWM : List RegRow :=
  [⟨0x24000, 12, 0x100, 1, 0x100, 0x0, false, [⟨1, 1, .w1s, []⟩, ⟨0, 1, .rw, []⟩]⟩,
   ⟨0x24004, 12, 0x100, 1, 0x100, 0x4, false, [⟨16, 11, .rwl, []⟩, ⟨3, 1, .rwl, []⟩, ⟨2, 1, .rwl, []⟩, ⟨1, 1, .rwl, []⟩, ⟨0, 1, .rwl, []⟩]⟩,
   ⟨0x24008, 12, 0x100, 1, 0x100, 0x0, false, [⟨28, 4, .rw, []⟩, ⟨4, 24, .rw, [(0, 399, 400)]⟩, ⟨0, 4, .rw, []⟩]⟩,
   ⟨0x2400c, 12, 0x100, 1, 0x100, 0x0, false, [⟨28, 4, .rw, []⟩, ⟨4, 24, .rw, []⟩, ⟨0, 4, .rw, []⟩]⟩,
   ⟨0x24010, 12, 0x100, 1, 0x100, 0x0, false, [⟨0, 24, .rw, []⟩]⟩,
   ⟨0x24014, 12, 0x100, 1, 0x100, 0x0, false, [⟨12, 4, .ro, []⟩, ⟨8, 4, .ro, []⟩, ⟨7, 1, .ro, []⟩, ⟨6, 1, .ro, []⟩, ⟨5, 1, .ro, []⟩, ⟨4, 1, .ro, []⟩, ⟨3, 1, .ro, []⟩, ⟨0, 3, .ro, []⟩]⟩,
   ⟨0x24018, 12, 0x100, 1, 0x100, 0x0, false, [⟨3, 1, .w1c, []⟩, ⟨2, 1, .w1c, []⟩, ⟨1, 1, .w1c, []⟩, ⟨0, 1, .w1c, []⟩]⟩,
   ⟨0x2401c, 12, 0x100, 1, 0x100, 0x0, true, [⟨31, 1, .w1c, []⟩, ⟨0, 31, .ro, []⟩]⟩,
   ⟨0x24020, 12, 0x100, 1, 0x100, 0x0, true, [⟨31, 1, .w1c, []⟩, ⟨0, 31, .ro, []⟩]⟩,
   ⟨0x24024, 12, 0x100, 1, 0x100, 0x0, false, [⟨28, 4, .ro, []⟩, ⟨4, 24, .ro, []⟩, ⟨0, 4, .ro, []⟩]⟩,
   ⟨0x24028, 12, 0x100, 1, 0x100, 0x0, false, [⟨28, 4, .ro, []⟩, ⟨4, 24, .ro, []⟩, ⟨0, 4, .ro, []⟩]⟩,
   ⟨0x2402c, 12, 0x100, 1, 0x100, 0x0, false, [⟨0, 32, .ro, []⟩]⟩,
   ⟨0x24c00, 1, 0x4, 1, 0x4, 0x0, false, [⟨0, 12, .wo, []⟩]⟩,
   ⟨0x24c04, 1, 0x4, 1, 0x4, 0xc8, false, [⟨0, 11, .rw, [(0, 49, 50), (1001, 2047, 1000)]⟩]⟩,
   ⟨0x24c08, 1, 0x4, 1, 0x4, 0x3e8, false, [⟨0, 16, .rw, [(0, 9, 10)]⟩]⟩,
   ⟨0x24c0c, 1, 0x4, 1, 0x4, 0x0, false, [⟨12, 12, .ro, []⟩, ⟨0, 12, .ro, []⟩]⟩,
   ⟨0x24c10, 1, 0x4, 1, 0x4, 0x0, false, [⟨12, 12, .ro, []⟩, ⟨0, 12, .ro, []⟩]⟩]

/-- The rows of block SELV, at BAR0 offset 0x25000 (R28). -/
def rowsSELV : List RegRow :=
  [⟨0x25000, 1, 0x4, 1, 0x4, 0x0, false, [⟨14, 1, .ro, []⟩, ⟨13, 1, .ro, []⟩, ⟨12, 1, .ro, []⟩, ⟨0, 12, .ro, []⟩]⟩,
   ⟨0x25004, 1, 0x4, 1, 0x4, 0x0, false, [⟨6, 1, .w1c, []⟩, ⟨5, 1, .w1c, []⟩, ⟨4, 1, .w1c, []⟩, ⟨3, 1, .w1c, []⟩, ⟨2, 1, .w1c, []⟩, ⟨1, 1, .w1c, []⟩, ⟨0, 1, .w1c, []⟩]⟩,
   ⟨0x25008, 1, 0x4, 1, 0x4, 0x0, false, [⟨16, 16, .wo, []⟩, ⟨13, 1, .wo, []⟩, ⟨12, 1, .wo, []⟩, ⟨0, 12, .wo, []⟩]⟩,
   ⟨0x2500c, 1, 0x4, 1, 0x4, 0x0, false, [⟨16, 16, .wo, []⟩, ⟨13, 1, .wo, []⟩, ⟨12, 1, .wo, []⟩, ⟨0, 12, .wo, []⟩]⟩,
   ⟨0x25010, 1, 0x4, 1, 0x4, 0x0, false, [⟨31, 1, .w1c, []⟩, ⟨30, 1, .ro, []⟩, ⟨16, 6, .ro, []⟩, ⟨0, 4, .ro, []⟩]⟩,
   ⟨0x25014, 1, 0x4, 1, 0x4, 0x0, false, [⟨0, 32, .ro, []⟩]⟩,
   ⟨0x25018, 1, 0x4, 1, 0x4, 0x0, false, [⟨0, 32, .ro, []⟩]⟩,
   ⟨0x2501c, 1, 0x4, 1, 0x4, 0x0, false, [⟨0, 32, .w1c, []⟩]⟩,
   ⟨0x25020, 1, 0x4, 1, 0x4, 0x0, false, [⟨0, 32, .w1c, []⟩]⟩,
   ⟨0x25024, 1, 0x4, 1, 0x4, 0x0, false, [⟨0, 32, .ro, []⟩]⟩,
   ⟨0x25028, 1, 0x4, 1, 0x4, 0x0, false, [⟨0, 32, .ro, []⟩]⟩,
   ⟨0x2502c, 1, 0x4, 1, 0x4, 0x0, true, [⟨31, 1, .w1c, []⟩, ⟨0, 31, .ro, []⟩]⟩,
   ⟨0x25030, 1, 0x4, 1, 0x4, 0xfa, false, [⟨0, 11, .rwl, [(0, 9, 10), (2001, 2047, 2000)]⟩]⟩,
   ⟨0x25034, 1, 0x4, 1, 0x4, 0x64, false, [⟨0, 16, .rwl, [(0, 9, 10), (10001, 65535, 10000)]⟩]⟩,
   ⟨0x25038, 1, 0x4, 1, 0x4, 0x0, false, [⟨0, 1, .w1s, []⟩]⟩,
   ⟨0x2503c, 1, 0x4, 1, 0x4, 0x2020202, false, [⟨0, 8, .rwl, []⟩, ⟨8, 8, .rwl, []⟩, ⟨16, 8, .rwl, []⟩, ⟨24, 8, .rwl, []⟩]⟩,
   ⟨0x25040, 12, 0x4, 1, 0x4, 0x0, false, [⟨31, 1, .rwl, []⟩, ⟨30, 1, .rwl, []⟩, ⟨29, 1, .rwl, []⟩, ⟨0, 12, .rwl, []⟩]⟩,
   ⟨0x25080, 12, 0x4, 1, 0x4, 0x40322000, false, [⟨31, 1, .rwl, []⟩, ⟨30, 1, .rwl, []⟩, ⟨29, 1, .rwl, []⟩, ⟨28, 1, .rwl, []⟩, ⟨27, 1, .rwl, []⟩, ⟨16, 8, .rwl, [(0, 9, 10), (151, 255, 150)]⟩, ⟨12, 4, .rwl, []⟩, ⟨0, 12, .rwl, []⟩]⟩,
   ⟨0x250c0, 12, 0x4, 1, 0x4, 0x0, false, [⟨0, 32, .ro, []⟩]⟩]

/-- The rows of block FLT, at BAR0 offset 0x26000 (R28). -/
def rowsFLT : List RegRow :=
  [⟨0x26000, 1, 0x4, 1, 0x4, 0xc, false, [⟨3, 1, .rwl, []⟩, ⟨0, 3, .rwl, []⟩]⟩,
   ⟨0x26004, 1, 0x4, 1, 0x4, 0x0, false, [⟨31, 1, .ro, []⟩, ⟨30, 1, .ro, []⟩, ⟨29, 1, .ro, []⟩, ⟨28, 1, .ro, []⟩, ⟨16, 10, .ro, []⟩]⟩,
   ⟨0x26008, 1, 0x4, 1, 0x4, 0x0, false, [⟨31, 1, .w1c, []⟩, ⟨30, 1, .ro, []⟩, ⟨24, 2, .ro, []⟩, ⟨16, 8, .ro, []⟩, ⟨0, 8, .ro, []⟩]⟩,
   ⟨0x2600c, 1, 0x4, 1, 0x4, 0x0, false, [⟨0, 32, .ro, []⟩]⟩,
   ⟨0x26010, 1, 0x4, 1, 0x4, 0x0, false, [⟨0, 32, .ro, []⟩]⟩,
   ⟨0x26014, 1, 0x4, 1, 0x4, 0x14, false, [⟨0, 10, .rwl, [(0, 0, 1), (1001, 1023, 1000)]⟩]⟩,
   ⟨0x26018, 1, 0x4, 1, 0x4, 0x0, false, [⟨0, 1, .rw, []⟩]⟩,
   ⟨0x2601c, 1, 0x4, 1, 0x4, 0x0, false, [⟨16, 6, .rw, []⟩, ⟨8, 6, .rw, []⟩, ⟨0, 6, .rw, []⟩]⟩,
   ⟨0x26020, 1, 0x4, 1, 0x4, 0x0, false, [⟨13, 1, .ro, []⟩, ⟨12, 1, .ro, []⟩, ⟨0, 12, .ro, []⟩]⟩,
   ⟨0x26024, 1, 0x4, 1, 0x4, 0x0, false, [⟨16, 16, .wo, []⟩, ⟨2, 1, .wo, []⟩, ⟨1, 1, .wo, []⟩]⟩,
   ⟨0x26028, 1, 0x4, 1, 0x4, 0x0, false, [⟨24, 8, .wo, []⟩, ⟨16, 8, .wo, []⟩, ⟨0, 8, .wo, []⟩]⟩,
   ⟨0x2602c, 1, 0x4, 1, 0x4, 0x0, false, [⟨31, 1, .rw, []⟩, ⟨16, 8, .rw, []⟩, ⟨8, 8, .rw, []⟩, ⟨0, 8, .rw, []⟩]⟩,
   ⟨0x26030, 1, 0x4, 1, 0x4, 0x0, false, [⟨1, 1, .w1s, []⟩, ⟨0, 1, .w1s, []⟩]⟩,
   ⟨0x26034, 1, 0x4, 1, 0x4, 0x0, false, [⟨16, 9, .ro, []⟩, ⟨0, 16, .ro, []⟩]⟩,
   ⟨0x26038, 1, 0x4, 1, 0x4, 0x0, false, [⟨16, 16, .wo, []⟩, ⟨0, 1, .wo, []⟩]⟩,
   ⟨0x2603c, 1, 0x4, 1, 0x4, 0x0, false, [⟨0, 32, .ro, []⟩]⟩,
   ⟨0x26040, 1, 0x4, 1, 0x4, 0x0, true, [⟨31, 1, .w1c, []⟩, ⟨0, 31, .ro, []⟩]⟩,
   ⟨0x26044, 1, 0x4, 1, 0x4, 0x0, true, [⟨31, 1, .w1c, []⟩, ⟨0, 31, .ro, []⟩]⟩,
   ⟨0x26048, 1, 0x4, 1, 0x4, 0x0, true, [⟨31, 1, .w1c, []⟩, ⟨0, 31, .ro, []⟩]⟩,
   ⟨0x2604c, 1, 0x4, 1, 0x4, 0x0, true, [⟨31, 1, .w1c, []⟩, ⟨0, 31, .ro, []⟩]⟩,
   ⟨0x26100, 8, 0x4, 1, 0x4, 0x0, false, [⟨0, 32, .w1c, []⟩]⟩,
   ⟨0x26120, 8, 0x4, 1, 0x4, 0x0, false, [⟨0, 32, .ro, []⟩]⟩,
   ⟨0x26140, 8, 0x4, 1, 0x4, 0x0, false, [⟨0, 32, .w1c, []⟩]⟩,
   ⟨0x26160, 8, 0x4, 1, 0x4, 0x0, false, [⟨0, 32, .w1c, []⟩]⟩,
   ⟨0x26180, 6, 0x4, 1, 0x4, 0x0, false, [⟨0, 32, .w1c, []⟩]⟩,
   ⟨0x26800, 256, 0x4, 1, 0x4, 0x0, true, [⟨31, 1, .w1c, []⟩, ⟨0, 31, .ro, []⟩]⟩,
   ⟨0x27000, 256, 0x10, 1, 0x10, 0x0, false, [⟨29, 2, .rwl, [(3, 3, 2)]⟩, ⟨28, 1, .rwl, []⟩, ⟨27, 1, .rwl, []⟩, ⟨16, 8, .rwl, [(0, 0, 1)]⟩, ⟨0, 16, .rwl, [(0, 0, 1)]⟩]⟩,
   ⟨0x27004, 256, 0x10, 1, 0x10, 0x0, false, [⟨8, 8, .rwl, []⟩, ⟨0, 8, .rwl, []⟩]⟩,
   ⟨0x27008, 256, 0x10, 1, 0x10, 0xfe000000, false, [⟨24, 8, .rwl, [(192, 255, 254)]⟩, ⟨0, 12, .rwl, []⟩]⟩]

/-- The rows of block THM, at BAR0 offset 0x28000 (R28). -/
def rowsTHM : List RegRow :=
  [⟨0x28000, 1, 0x4, 1, 0x4, 0x3, false, [⟨4, 4, .rw, [(9, 15, 8)]⟩, ⟨1, 1, .rw, []⟩, ⟨0, 1, .rw, []⟩]⟩,
   ⟨0x28004, 1, 0x4, 1, 0x4, 0x0, false, [⟨7, 1, .ro, []⟩, ⟨6, 1, .ro, []⟩, ⟨5, 1, .ro, []⟩, ⟨4, 1, .ro, []⟩, ⟨0, 4, .ro, []⟩]⟩,
   ⟨0x28008, 1, 0x4, 1, 0x4, 0x0, false, [⟨10, 1, .w1c, []⟩, ⟨9, 1, .w1c, []⟩, ⟨8, 1, .w1c, []⟩, ⟨7, 1, .w1c, []⟩, ⟨6, 1, .w1c, []⟩, ⟨5, 1, .w1c, []⟩, ⟨4, 1, .w1c, []⟩, ⟨3, 1, .w1c, []⟩, ⟨2, 1, .w1c, []⟩, ⟨1, 1, .w1c, []⟩, ⟨0, 1, .w1c, []⟩]⟩,
   ⟨0x2800c, 1, 0x4, 1, 0x4, 0x100, false, [⟨12, 4, .ro, []⟩, ⟨0, 9, .ro, []⟩]⟩,
   ⟨0x28010, 1, 0x4, 1, 0x4, 0x11e82, false, [⟨16, 1, .rwl, []⟩, ⟨8, 8, .rwl, [(0, 4, 5), (46, 255, 45)]⟩, ⟨0, 8, .rwl, [(0, 109, 110), (135, 255, 134)]⟩]⟩,
   ⟨0x28014, 1, 0x4, 1, 0x4, 0x0, false, [⟨16, 16, .ro, []⟩, ⟨0, 16, .ro, []⟩]⟩,
   ⟨0x28018, 1, 0x4, 1, 0x4, 0xa0, false, [⟨0, 16, .rw, [(801, 65535, 800)]⟩]⟩,
   ⟨0x2801c, 1, 0x4, 1, 0x4, 0x0, false, [⟨0, 1, .wo, []⟩]⟩,
   ⟨0x28020, 1, 0x4, 1, 0x4, 0x0, false, [⟨0, 24, .w1c, []⟩]⟩,
   ⟨0x28024, 1, 0x4, 1, 0x4, 0x0, false, [⟨16, 16, .ro, []⟩, ⟨15, 1, .ro, []⟩, ⟨0, 5, .ro, []⟩]⟩,
   ⟨0x28028, 1, 0x4, 1, 0x4, 0x64645596, false, [⟨24, 8, .rwl, [(0, 0, 1)]⟩, ⟨16, 8, .rwl, []⟩, ⟨8, 8, .rwl, []⟩, ⟨0, 8, .rwl, []⟩]⟩,
   ⟨0x2802c, 1, 0x4, 1, 0x4, 0x0, false, [⟨0, 1, .w1s, []⟩]⟩,
   ⟨0x28040, 8, 0x4, 1, 0x4, 0x0, false, [⟨23, 9, .rw, [(257, 511, 256)]⟩, ⟨12, 8, .rw, []⟩, ⟨8, 4, .rw, []⟩, ⟨0, 8, .rw, []⟩]⟩,
   ⟨0x28080, 24, 0x4, 1, 0x4, 0x80000000, false, [⟨31, 1, .rw, []⟩, ⟨0, 16, .rw, []⟩]⟩,
   ⟨0x280e0, 8, 0x4, 1, 0x4, 0xd6b1000, false, [⟨16, 16, .rw, []⟩, ⟨0, 16, .rw, []⟩]⟩,
   ⟨0x28100, 24, 0x4, 1, 0x4, 0x0, false, [⟨31, 1, .ro, []⟩, ⟨30, 1, .ro, []⟩, ⟨0, 16, .ro, []⟩]⟩]

/-- The rows of block AGE, at BAR0 offset 0x29000 (R28). -/
def rowsAGE : List RegRow :=
  [⟨0x29000, 1, 0x4, 1, 0x4, 0x7, false, [⟨2, 1, .rw, []⟩, ⟨1, 1, .rw, []⟩, ⟨0, 1, .rw, []⟩]⟩,
   ⟨0x29004, 1, 0x4, 1, 0x4, 0x0, false, [⟨8, 5, .ro, []⟩, ⟨2, 1, .ro, []⟩, ⟨1, 1, .ro, []⟩, ⟨0, 1, .ro, []⟩]⟩,
   ⟨0x29008, 1, 0x4, 1, 0x4, 0x0, false, [⟨7, 1, .w1c, []⟩, ⟨6, 1, .w1c, []⟩, ⟨5, 1, .w1c, []⟩, ⟨4, 1, .w1c, []⟩, ⟨3, 1, .w1c, []⟩, ⟨2, 1, .w1c, []⟩, ⟨1, 1, .w1c, []⟩, ⟨0, 1, .w1c, []⟩]⟩,
   ⟨0x2900c, 1, 0x4, 1, 0x4, 0x81012c79, false, [⟨26, 6, .rw, [(49, 63, 48)]⟩, ⟨20, 6, .rw, [(49, 63, 48)]⟩, ⟨10, 8, .rw, []⟩, ⟨2, 8, .rw, []⟩, ⟨0, 1, .rw, []⟩]⟩,
   ⟨0x29010, 1, 0x4, 1, 0x4, 0x10, false, [⟨0, 6, .ro, []⟩]⟩,
   ⟨0x29014, 1, 0x4, 1, 0x4, 0x0, false, [⟨16, 5, .ro, []⟩, ⟨0, 16, .ro, []⟩]⟩,
   ⟨0x29018, 1, 0x4, 1, 0x4, 0x3c1001, false, [⟨16, 16, .rw, [(0, 0, 1)]⟩, ⟨8, 8, .rw, []⟩, ⟨0, 1, .rw, []⟩]⟩,
   ⟨0x2901c, 1, 0x4, 1, 0x4, 0xc81007d0, false, [⟨24, 8, .rw, [(0, 9, 10)]⟩, ⟨16, 8, .rw, []⟩, ⟨0, 16, .rw, [(0, 99, 100), (10001, 65535, 10000)]⟩]⟩,
   ⟨0x29020, 1, 0x4, 1, 0x4, 0x64258c8, false, [⟨20, 10, .rw, [(0, 0, 1)]⟩, ⟨10, 10, .rw, [(0, 0, 1)]⟩, ⟨0, 10, .rw, [(0, 0, 1)]⟩]⟩,
   ⟨0x29024, 1, 0x4, 1, 0x4, 0xf3380000, false, [⟨20, 12, .rw, []⟩, ⟨8, 12, .rw, []⟩, ⟨0, 8, .rw, [(101, 255, 100)]⟩]⟩,
   ⟨0x29028, 1, 0x4, 1, 0x4, 0x14, false, [⟨0, 8, .rw, [(0, 9, 10), (101, 255, 100)]⟩]⟩,
   ⟨0x2902c, 1, 0x4, 1, 0x4, 0x7d0003c, false, [⟨16, 16, .rw, []⟩, ⟨0, 8, .rw, []⟩]⟩,
   ⟨0x29030, 1, 0x4, 1, 0x4, 0x3c0e10, false, [⟨16, 16, .rw, [(0, 9, 10), (3601, 65535, 3600)]⟩, ⟨0, 16, .rw, [(0, 59, 60)]⟩]⟩,
   ⟨0x29034, 1, 0x4, 1, 0x4, 0x0, false, [⟨16, 16, .wo, []⟩, ⟨0, 8, .wo, []⟩]⟩,
   ⟨0x29038, 1, 0x4, 1, 0x4, 0x0, true, [⟨31, 1, .w1c, []⟩, ⟨0, 31, .ro, []⟩]⟩,
   ⟨0x29040, 8, 0x4, 1, 0x4, 0x0, false, [⟨0, 32, .rw, []⟩]⟩,
   ⟨0x29100, 192, 0x4, 1, 0x4, 0x0, false, [⟨30, 2, .ro, []⟩, ⟨29, 1, .ro, []⟩, ⟨28, 1, .ro, []⟩, ⟨0, 12, .ro, []⟩]⟩]

/-- The rows of block MEM, at BAR0 offset 0x2a000 (R28). -/
def rowsMEM : List RegRow :=
  [⟨0x2a000, 1, 0x4, 1, 0x4, 0x3c0001, false, [⟨16, 16, .rw, [(0, 0, 1)]⟩, ⟨0, 1, .rw, []⟩]⟩,
   ⟨0x2a004, 1, 0x4, 1, 0x4, 0x0, false, [⟨31, 1, .ro, []⟩, ⟨0, 21, .ro, []⟩]⟩,
   ⟨0x2a008, 1, 0x4, 1, 0x4, 0x0, false, [⟨8, 1, .w1c, []⟩, ⟨7, 1, .w1c, []⟩, ⟨6, 1, .w1c, []⟩, ⟨5, 1, .w1c, []⟩, ⟨4, 1, .w1c, []⟩, ⟨3, 1, .w1c, []⟩, ⟨2, 1, .w1c, []⟩, ⟨1, 1, .w1c, []⟩, ⟨0, 1, .w1c, []⟩]⟩,
   ⟨0x2a00c, 1, 0x4, 1, 0x4, 0x0, true, [⟨31, 1, .w1c, []⟩, ⟨0, 31, .ro, []⟩]⟩,
   ⟨0x2a010, 1, 0x4, 1, 0x4, 0x0, true, [⟨31, 1, .w1c, []⟩, ⟨0, 31, .ro, []⟩]⟩,
   ⟨0x2a014, 1, 0x4, 1, 0x4, 0x0, false, [⟨0, 32, .ro, []⟩]⟩,
   ⟨0x2a018, 1, 0x4, 1, 0x4, 0x0, false, [⟨31, 1, .ro, []⟩, ⟨24, 5, .ro, []⟩, ⟨0, 8, .ro, []⟩]⟩,
   ⟨0x2a01c, 1, 0x4, 1, 0x4, 0x0, true, [⟨31, 1, .w1c, []⟩, ⟨0, 31, .ro, []⟩]⟩,
   ⟨0x2a020, 1, 0x4, 1, 0x4, 0x0, true, [⟨31, 1, .w1c, []⟩, ⟨0, 31, .ro, []⟩]⟩,
   ⟨0x2a024, 1, 0x4, 1, 0x4, 0x0, true, [⟨31, 1, .w1c, []⟩, ⟨0, 31, .ro, []⟩]⟩,
   ⟨0x2a028, 1, 0x4, 1, 0x4, 0x0, false, [⟨31, 1, .ro, []⟩, ⟨0, 8, .ro, []⟩]⟩,
   ⟨0x2a02c, 1, 0x4, 1, 0x4, 0x0, false, [⟨0, 8, .rw, [(161, 255, 160)]⟩]⟩,
   ⟨0x2a030, 1, 0x4, 1, 0x4, 0x0, false, [⟨31, 1, .ro, []⟩, ⟨30, 1, .ro, []⟩, ⟨16, 10, .ro, []⟩, ⟨0, 10, .ro, []⟩]⟩,
   ⟨0x2a100, 21, 0x4, 1, 0x4, 0x0, false, [⟨28, 4, .rw, []⟩, ⟨24, 4, .rw, []⟩, ⟨0, 16, .rw, []⟩]⟩,
   ⟨0x2a180, 21, 0x4, 1, 0x4, 0x0, false, [⟨16, 1, .rw, []⟩, ⟨0, 16, .rw, []⟩]⟩,
   ⟨0x2a200, 21, 0x4, 1, 0x4, 0x110, false, [⟨8, 1, .rw, []⟩, ⟨4, 2, .rw, [(3, 3, 2)]⟩, ⟨0, 2, .rw, []⟩]⟩,
   ⟨0x2a280, 21, 0x4, 1, 0x4, 0x0, false, [⟨8, 1, .ro, []⟩, ⟨0, 3, .ro, []⟩]⟩]

/-- The rows of block NVM, at BAR0 offset 0x2b000 (R28). -/
def rowsNVM : List RegRow :=
  [⟨0x2b000, 1, 0x4, 1, 0x4, 0x0, false, [⟨0, 1, .rw, []⟩]⟩,
   ⟨0x2b004, 1, 0x4, 1, 0x4, 0x0, false, [⟨31, 1, .ro, []⟩, ⟨30, 1, .ro, []⟩, ⟨29, 1, .ro, []⟩, ⟨28, 1, .ro, []⟩]⟩,
   ⟨0x2b008, 1, 0x4, 1, 0x4, 0x0, false, [⟨3, 1, .w1c, []⟩, ⟨2, 1, .w1c, []⟩, ⟨1, 1, .w1c, []⟩, ⟨0, 1, .w1c, []⟩]⟩,
   ⟨0x2b00c, 1, 0x4, 1, 0x4, 0x0, false, [⟨5, 18, .rw, []⟩, ⟨0, 5, .rw, []⟩]⟩,
   ⟨0x2b010, 8, 0x4, 1, 0x4, 0x0, false, [⟨0, 32, .rw, []⟩]⟩,
   ⟨0x2b030, 1, 0x4, 1, 0x4, 0x0, false, [⟨0, 1, .wo, []⟩]⟩,
   ⟨0x2b034, 1, 0x4, 1, 0x4, 0x0, true, [⟨31, 1, .w1c, []⟩, ⟨0, 31, .ro, []⟩]⟩,
   ⟨0x2b038, 1, 0x4, 1, 0x4, 0x0, true, [⟨31, 1, .w1c, []⟩, ⟨0, 31, .ro, []⟩]⟩,
   ⟨0x2b03c, 1, 0x4, 1, 0x4, 0x0, true, [⟨31, 1, .w1c, []⟩, ⟨0, 31, .ro, []⟩]⟩,
   ⟨0x2b040, 1, 0x4, 1, 0x4, 0x0, true, [⟨31, 1, .w1c, []⟩, ⟨0, 31, .ro, []⟩]⟩,
   ⟨0x2b044, 1, 0x4, 1, 0x4, 0x0, false, [⟨0, 23, .ro, []⟩]⟩,
   ⟨0x2b048, 1, 0x4, 1, 0x4, 0x0, false, [⟨0, 32, .ro, []⟩]⟩]

/-- The rows of block BST, at BAR0 offset 0x2c000 (R28). -/
def rowsBST : List RegRow :=
  [⟨0x2c000, 1, 0x4, 1, 0x4, 0x0, false, [⟨31, 1, .ro, []⟩, ⟨30, 1, .ro, []⟩, ⟨29, 1, .ro, []⟩, ⟨28, 1, .ro, []⟩]⟩,
   ⟨0x2c004, 1, 0x4, 1, 0x4, 0x0, false, [⟨1, 1, .w1c, []⟩, ⟨0, 1, .w1c, []⟩]⟩,
   ⟨0x2c008, 1, 0x4, 1, 0x4, 0x0, false, [⟨31, 1, .ro, []⟩, ⟨30, 1, .ro, []⟩, ⟨28, 2, .ro, []⟩, ⟨27, 1, .ro, []⟩, ⟨26, 1, .ro, []⟩, ⟨20, 4, .ro, []⟩, ⟨0, 16, .ro, []⟩]⟩,
   ⟨0x2c00c, 1, 0x4, 1, 0x4, 0x0, false, [⟨16, 16, .wo, []⟩, ⟨2, 1, .wo, []⟩, ⟨1, 1, .wo, []⟩, ⟨0, 1, .wo, []⟩]⟩,
   ⟨0x2c010, 1, 0x4, 1, 0x4, 0x0, false, [⟨16, 16, .wo, []⟩, ⟨0, 1, .wo, []⟩]⟩,
   ⟨0x2c014, 1, 0x4, 1, 0x4, 0x3, false, [⟨1, 1, .rw, []⟩, ⟨0, 1, .rw, []⟩]⟩,
   ⟨0x2c018, 1, 0x4, 1, 0x4, 0x0, false, [⟨16, 16, .wo, []⟩, ⟨1, 1, .wo, []⟩, ⟨0, 1, .wo, []⟩]⟩,
   ⟨0x2c01c, 1, 0x4, 1, 0x4, 0x0, false, [⟨29, 3, .ro, []⟩, ⟨8, 1, .ro, []⟩, ⟨0, 3, .ro, []⟩]⟩,
   ⟨0x2c020, 1, 0x4, 1, 0x4, 0x0, false, [⟨28, 4, .ro, []⟩, ⟨26, 2, .ro, []⟩, ⟨25, 1, .ro, []⟩, ⟨24, 1, .ro, []⟩, ⟨0, 16, .ro, []⟩]⟩,
   ⟨0x2c024, 1, 0x4, 1, 0x4, 0x0, true, [⟨31, 1, .w1c, []⟩, ⟨0, 31, .ro, []⟩]⟩,
   ⟨0x2c028, 1, 0x4, 1, 0x4, 0x0, false, [⟨0, 32, .ro, []⟩]⟩,
   ⟨0x2c02c, 1, 0x4, 1, 0x4, 0x0, false, [⟨0, 32, .ro, []⟩]⟩,
   ⟨0x2c030, 1, 0x4, 1, 0x4, 0x0, false, [⟨0, 32, .ro, []⟩]⟩,
   ⟨0x2c034, 1, 0x4, 1, 0x4, 0x0, false, [⟨31, 1, .ro, []⟩, ⟨0, 2, .ro, []⟩]⟩,
   ⟨0x2c038, 1, 0x4, 1, 0x4, 0x0, false, [⟨0, 32, .ro, []⟩]⟩]

/-- The rows of block RDN, at BAR0 offset 0x2d000 (R28). -/
def rowsRDN : List RegRow :=
  [⟨0x2d000, 1, 0x4, 1, 0x4, 0x2, false, [⟨4, 1, .w1s, []⟩, ⟨3, 1, .w1s, []⟩, ⟨2, 1, .w1s, []⟩, ⟨1, 1, .rw, []⟩, ⟨0, 1, .rw, []⟩]⟩,
   ⟨0x2d004, 1, 0x4, 1, 0x4, 0x3040030, false, [⟨24, 4, .rwl, [(0, 1, 2), (8, 15, 7)]⟩, ⟨16, 8, .rwl, [(0, 0, 1)]⟩, ⟨5, 1, .rwl, []⟩, ⟨4, 1, .rwl, []⟩, ⟨3, 1, .rwl, []⟩, ⟨2, 1, .rwl, []⟩, ⟨1, 1, .rwl, []⟩]⟩,
   ⟨0x2d008, 1, 0x4, 1, 0x4, 0x0, false, [⟨29, 3, .ro, []⟩, ⟨27, 1, .ro, []⟩, ⟨26, 1, .ro, []⟩, ⟨25, 1, .ro, []⟩, ⟨24, 1, .ro, []⟩, ⟨23, 1, .ro, []⟩, ⟨22, 1, .ro, []⟩, ⟨21, 1, .ro, []⟩, ⟨20, 1, .ro, []⟩, ⟨19, 1, .ro, []⟩, ⟨18, 1, .ro, []⟩, ⟨16, 1, .ro, []⟩]⟩,
   ⟨0x2d00c, 1, 0x4, 1, 0x4, 0x0, false, [⟨7, 1, .w1c, []⟩, ⟨6, 1, .w1c, []⟩, ⟨5, 1, .w1c, []⟩, ⟨4, 1, .w1c, []⟩, ⟨3, 1, .w1c, []⟩, ⟨2, 1, .w1c, []⟩, ⟨1, 1, .w1c, []⟩, ⟨0, 1, .w1c, []⟩]⟩,
   ⟨0x2d010, 1, 0x4, 1, 0x4, 0x0, false, [⟨0, 1, .w1s, []⟩]⟩,
   ⟨0x2d014, 1, 0x4, 1, 0x4, 0x64, false, [⟨0, 16, .rw, [(0, 0, 1)]⟩]⟩,
   ⟨0x2d018, 1, 0x4, 1, 0x4, 0x12c, false, [⟨0, 16, .rw, [(0, 9, 10)]⟩]⟩,
   ⟨0x2d01c, 1, 0x4, 1, 0x4, 0xa, false, [⟨0, 16, .rw, [(0, 0, 1), (1001, 65535, 1000)]⟩]⟩,
   ⟨0x2d020, 1, 0x4, 1, 0x4, 0x0, false, [⟨24, 8, .ro, []⟩, ⟨16, 8, .ro, []⟩, ⟨14, 2, .ro, []⟩, ⟨0, 8, .ro, []⟩]⟩,
   ⟨0x2d024, 1, 0x4, 1, 0x4, 0x0, false, [⟨0, 32, .ro, []⟩]⟩,
   ⟨0x2d028, 1, 0x4, 1, 0x4, 0x0, false, [⟨0, 24, .ro, []⟩]⟩,
   ⟨0x2d02c, 1, 0x4, 1, 0x4, 0x0, false, [⟨0, 32, .ro, []⟩]⟩,
   ⟨0x2d030, 1, 0x4, 1, 0x4, 0x0, false, [⟨0, 32, .ro, []⟩]⟩,
   ⟨0x2d034, 1, 0x4, 1, 0x4, 0x0, false, [⟨0, 32, .ro, []⟩]⟩,
   ⟨0x2d038, 1, 0x4, 1, 0x4, 0x0, false, [⟨0, 16, .ro, []⟩]⟩,
   ⟨0x2d03c, 1, 0x4, 1, 0x4, 0x0, false, [⟨0, 32, .ro, []⟩]⟩,
   ⟨0x2d040, 1, 0x4, 1, 0x4, 0x0, false, [⟨0, 32, .ro, []⟩]⟩,
   ⟨0x2d044, 1, 0x4, 1, 0x4, 0x0, false, [⟨0, 32, .ro, []⟩]⟩,
   ⟨0x2d048, 1, 0x4, 1, 0x4, 0x0, false, [⟨0, 8, .ro, []⟩]⟩,
   ⟨0x2d04c, 1, 0x4, 1, 0x4, 0x0, true, [⟨31, 1, .w1c, []⟩, ⟨0, 31, .ro, []⟩]⟩,
   ⟨0x2d050, 1, 0x4, 1, 0x4, 0x0, true, [⟨31, 1, .w1c, []⟩, ⟨0, 31, .ro, []⟩]⟩,
   ⟨0x2d054, 1, 0x4, 1, 0x4, 0x0, true, [⟨31, 1, .w1c, []⟩, ⟨0, 31, .ro, []⟩]⟩,
   ⟨0x2d058, 1, 0x4, 1, 0x4, 0x0, true, [⟨31, 1, .w1c, []⟩, ⟨0, 31, .ro, []⟩]⟩,
   ⟨0x2d05c, 1, 0x4, 1, 0x4, 0x0, true, [⟨31, 1, .w1c, []⟩, ⟨0, 31, .ro, []⟩]⟩,
   ⟨0x2d080, 16, 0x8, 1, 0x8, 0x0, false, [⟨2, 30, .rw, []⟩]⟩,
   ⟨0x2d084, 16, 0x8, 1, 0x8, 0x0, false, [⟨31, 1, .rw, []⟩, ⟨30, 1, .rw, []⟩, ⟨2, 19, .rw, []⟩]⟩]

/-- The register block that a BAR0 address lies in (R28), as its list of rows. -/
def rowsAt (a : Nat) : List RegRow :=
  if a < 0x1000 then rowsGLB else
  if a < 0x2000 then rowsSEC else
  if a < 0x4000 then rowsHIF else
  if a < 0x5000 then rowsHOOP else
  if a < 0x6000 then rowsPRK else
  if a < 0x7000 then rowsNTM else
  if a < 0x8000 then rowsETH else
  if a < 0xa000 then rowsBOB else
  if a < 0xb000 then rowsTHB else
  if a < 0xc000 then rowsSTCH else
  if a < 0x10000 then rowsTAT else
  if a < 0x18000 then rowsLNK else
  if a < 0x20000 then rowsCEL else
  if a < 0x22000 then rowsADC else
  if a < 0x23000 then rowsPHU else
  if a < 0x24000 then rowsTWU else
  if a < 0x25000 then rowsPWM else
  if a < 0x26000 then rowsSELV else
  if a < 0x28000 then rowsFLT else
  if a < 0x29000 then rowsTHM else
  if a < 0x2a000 then rowsAGE else
  if a < 0x2b000 then rowsMEM else
  if a < 0x2c000 then rowsNVM else
  if a < 0x2d000 then rowsBST else
  if a < 0x2e000 then rowsRDN else
  []

/-- Whether the row describes the register at address `a`. -/
def RegRow.covers (r : RegRow) (a : Nat) : Bool :=
  decide (r.base ≤ a) &&
    (let d := a - r.base
     decide (d / r.s1 < r.n1) && decide (d % r.s1 / r.s2 < r.n2) && d % r.s1 % r.s2 == 0)

/-- The row of the register at BAR0 address `a`, if a register is there (R6: other offsets hold none). -/
def regRow (a : Nat) : Option RegRow := (rowsAt a).find? (·.covers a)

/-- R459: MEM_OWNn after a power-on reset. -/
def memOwnReset (n : Nat) : Nat :=
  if n < 16 then n * 0x1000000 + 2 ^ n
  else if n = 16 then 0xFFFF
  else if n = 17 then 0x10000000
  else if n = 18 then 0x20000000
  else if n = 19 then 0xFFFF
  else 0x30000000

/-- R374: class, mode and reaction of each fault source at reset, as (FLT_SCFGn, FLT_SREACTn). `LOG` is reaction bit 0,
`IRQ` bit 1, `ERRPIN` bit 2, `CELL_BYPASS` bit 3, `ALL_SAFE` bit 6, `TAKEOVER_REQ` bit 7; EREACT is LOG but for the
counting sources. -/
def fltReset (n : Nat) : Nat × Nat :=
  let cfg (cls react : Nat) : Nat × Nat := (cls * 0x20000000 + 0x00010001, 0x100 + react)
  if n = 0x00 ∨ n = 0x01 ∨ n = 0x04 then cfg 2 0x45
  else if n = 0x02 then cfg 2 0xC5
  else if n = 0x03 ∨ n = 0x05 then cfg 2 0x05
  else if n = 0x5C ∨ n = 0x80 then (0x181003E8, 0x0701)
  else if 0x10 ≤ n ∧ n ≤ 0x3F then cfg 1 0x01
  else if n = 0x6E then cfg 1 0x01
  else if n = 0x8B then cfg 1 0x0B
  else if n = 0x91 ∨ n = 0x94 then cfg 1 0x01
  else if n = 0xB4 ∨ n = 0xB5 ∨ n = 0xB7 ∨ n = 0xB8 then cfg 1 0x01
  else if n = 0xB6 then cfg 2 0x01
  else if n = 0xC6 then cfg 2 0x01
  else if n = 0xC2 ∨ n = 0xC3 ∨ n = 0xC4 then cfg 1 0x03
  else if n = 0xC5 ∨ n = 0xC7 then cfg 1 0x01
  else if n = 0xD2 ∨ n = 0xD7 then cfg 1 0x03
  else if n = 0xD6 ∨ n = 0xF1 ∨ n = 0xFD then cfg 0 0x03
  else if n = 0xD9 ∨ n = 0xDA ∨ n = 0xE0 ∨ n = 0xE9 then cfg 1 0x01
  else if n = 0xEC ∨ n = 0xED ∨ n = 0xEE then cfg 1 0x07
  else if 0xF3 ≤ n ∧ n ≤ 0xF6 then cfg 1 0x03
  else if n = 0xF8 ∨ n = 0xFB then cfg 1 0x01
  else if n = 0xFC then cfg 1 0x03
  else cfg 0 0x01

/-- The value a register holds after a power-on reset: the Reset column of its row; the values of R374 for the source
table; the owners of R459 for MEM_OWNn; 0 where no register stands (R6). -/
def regReset (a : Nat) : BitVec 32 :=
  if FLT_SCFG 0 ≤ a ∧ a < FLT_SCFG 256 then
    let n := (a - FLT_SCFG 0) / 16
    let k := (a - FLT_SCFG 0) % 16
    if k = 0 then BitVec.ofNat 32 (fltReset n).1
    else if k = 4 then BitVec.ofNat 32 (fltReset n).2
    else if k = 8 then 0xFE000000#32
    else 0#32
  else if MEM_OWN 0 ≤ a ∧ a < MEM_OWN 21 ∧ a % 4 = 0 then BitVec.ofNat 32 (memOwnReset ((a - MEM_OWN 0) / 4))
  else match regRow a with
    | some r => BitVec.ofNat 32 r.reset
    | none => 0#32

end Sys2Proof.Machine
end

