-- ==== Sys2Proof/Machine/State.lean ====
section
/-!
DEFINITION. The state of the block as plain data: the register file, the memories, the tick, the internal state of each
subsystem, the agenda of the device's own scheduled steps, what has left the device, and the queue of waiting commands.
`State.reset` is the device right after a power-on reset.
-/

namespace Sys2Proof.Machine

/-- Why the machine stops with a fault. No meaning of this model raises one: everything the spec describes as a fault
is taken as an event of FLT (R373), which is a next state. -/
inductive Fault where
  /-- No command raises it. Safe: it is never answered. -/
  | none
deriving DecidableEq, Repr

/-- Why a command has no meaning. -/
inductive Refusal where
  /-- Raised by the dispatch for a command that has no meaning yet. Safe: nothing is claimed of it. -/
  | notModelled (mnemonic : String)
deriving DecidableEq, Repr

/-- What leaves the device. -/
inductive Out where
  /-- R492. An MSI-X message of a vector. -/
  | msix (vec : Nat)
  /-- R494, R497, R500. A slot that the device wrote in a ring: ring, index, buffer address, buffer data, slot tail. -/
  | slot (ring idx : Nat) (addr : Nat) (data : List Byte) (tail : List Byte)
  /-- R505. A transmit slot written back. -/
  | writeBack (ring idx : Nat) (tail : List Byte)
  /-- R245, R360. A fast trip ordered set sent on a lane. -/
  | fastTrip (lane : Nat)
  /-- A frame sent on a lane: the bytes between SOF and EOF (R214). -/
  | frame (lane : Nat) (bytes : List Byte)
  /-- R108. 1PPS_OUT rises: the eighth (250 ps) of the tick just past. -/
  | ppsRise (sub : Nat)
  /-- R505. An Ethernet frame sent on a port. -/
  | ethFrame (port : Nat) (data : List Byte)
  /-- R345. A gate edge: leg, high side, level, time in units of 250 ps. -/
  | gate (leg : Nat) (high level : Bool) (time : Nat)
  /-- R279. One bit of a lane's test pattern was inverted. -/
  | bitInverted (lane : Nat)
  /-- R491, R502. Data that a host read or a command returned. -/
  | hostData (addr : Nat) (data : List Byte)
  /-- R532. The word that IDCODE returns on TDO. -/
  | tdo (v : Word)
deriving DecidableEq, Repr

/-! ### FLT (R373–R396) -/

/-- R390. An event record, as it waits in the FIFO. `clear` marks the clear update of an earlier record. -/
structure FltRec where
  recid : Nat
  src : Nat
  cls : Nat
  esc : Bool
  first : Bool
  cofirst : Bool
  multi : Bool
  cleared : Bool
  inj : Bool
  inst : Nat
  react : Nat
  settick : Nat
  sec : Nat
  ns : Nat
  clrtick : Nat
  detail : Nat
  update : Bool
deriving DecidableEq, Repr

/-- R383. A condition that holds: its source and instance, the reactions its last event applied, the cell it bypassed
(256: none), its record, and whether it was injected (R387). -/
structure LiveCond where
  src : Nat
  inst : Nat
  react : Nat
  cell : Nat
  record : FltRec
  logged : Bool
  inj : Bool
deriving DecidableEq, Repr

/-- R382. An event of the current fault clock; `cbyp` is the cell whose bit of FLT_CBYP it has newly set (256: none). -/
structure EdgeEv where
  src : Nat
  cls : Nat
  inst : Nat
  cbyp : Nat
deriving DecidableEq, Repr

/-- The internal state of FLT. -/
structure FltSt where
  /-- R375. Open windows: source to (close tick, count). -/
  windows : List (Nat × Option (Nat × Nat)) := []
  live : List LiveCond := []
  fifo : List FltRec := []
  /-- R391. An overflow episode is open; the record of source 0xFE held aside. -/
  overflow : Bool := false
  aside : Option FltRec := none
  /-- R373, R382. The last fault clock edge that sampled an event, its events, and the vectors sent in it. -/
  edge : Nat := 0
  edgeEvs : List EdgeEv := []
  edgeVecs : List Nat := []
  /-- R383. Sources whose set cause bit came from a class F event. -/
  fatal : List Nat := []
  /-- R384. The tick at which the running minimum pulse of ERR_N ends. -/
  minEnd : Nat := 0
  /-- R389. Records in the wrap area; log slot to RECID, for the clear update of R390. -/
  wrapCnt : Nat := 0
  slots : List (Nat × Nat) := []
  /-- R386. Nodes of the TRIPCLR sequence that have not answered. -/
  tripPend : List Nat := []
  /-- R378. A TAKEOVER_REQ that has been recorded. -/
  takeoverReq : Bool := false
  /-- R37. The reaction of source 0x02 or 0x03 was applied; a Thimble watchdog reset is due. -/
  wdogDue : Bool := false
  /-- R387. Injected events (source, instance) that wait for the next edge of the fault clock. -/
  injWait : List (Nat × Nat) := []
deriving DecidableEq, Repr

/-! ### PWM and Selvage (R344–R372) -/

/-- Which side of a leg is to turn on. -/
inductive Want where
  | none | high | low
deriving DecidableEq, Repr

/-- The internal state of a leg. -/
structure LegSt where
  /-- R345. Start of the period in force, in units of 250 ps, and the count of transitions still ahead in it. -/
  begin : Nat := 0
  /-- The side to turn on after dead time and handshake (R350, R357). -/
  want : Want := .none
  /-- R352. The tick since which the high side has been on without a break. -/
  hiSince : Option Nat := none
  /-- R353. A refresh is requested by BSUV; a refresh is in progress; the low side of the refresh is on. -/
  picotReq : Bool := false
  /-- R353. The supply check of a refresh is due, so the high side waits for it. -/
  supplyWait : Bool := false
  /-- R357. All-off because of an acknowledge fault, until the latch is released. -/
  ackOff : Bool := false
  /-- R355. DSAT blanking is running. -/
  blank : Bool := false
  /-- BSUVn_N asserted. -/
  bsuv : Bool := false
  /-- R347. The GSTART instant has been set and the first period has not begun. -/
  starting : Bool := false
  /-- R350. The end of the last dead time in units of 250 ps, and the eighth of its tick at which a side last turned on. -/
  dtEnd : Nat := 0
  onSub : Nat := 0
deriving DecidableEq, Repr

/-- The internal state of Selvage. -/
structure SelvSt where
  /-- R359. The tick of the decision held in SELV_FIRST, so that SIMUL and the order of one tick apply. -/
  firstTick : Option Nat := none
  /-- R360. The tick until which BRK_TRIP_N stays asserted at least. -/
  brkEnd : Nat := 0
  /-- R525. The pads hold their levels. -/
  padHold : Bool := false
  /-- R354. The TRIP, DSAT and FOC inputs that are asserted at their pins, ahead of the filters, by source index. -/
  pins : BitVec 64 := 0
deriving DecidableEq, Repr

/-! ### HIF (R489–R515) -/

/-- R500. A finished command that has not written its completion entry. -/
structure Done where
  ring : Nat
  tag : Nat
  opc : Nat
  cidx : Nat
  status : Nat
  result : Nat
deriving DecidableEq, Repr

/-- The internal state of a ring. -/
structure RingSt where
  /-- R497. Buffers the host has posted and the device has not used, oldest first. -/
  bufs : List Slot := []
  /-- R498. End of the IMOD hold-off, and a slot waits to be signalled. -/
  holdEnd : Nat := 0
  irqPend : Bool := false
deriving DecidableEq, Repr

/-- The internal state of HIF. -/
structure HifSt where
  rings : List (Nat × RingSt) := []
  /-- R500. Finished commands that wait for room on their completion ring. -/
  done : List Done := []
  /-- R502. PRK_SWAP commands that wait for their swap: ring, tag, opcode, index. -/
  swapCmds : List (Nat × Nat × Nat × Nat) := []
  /-- R501. The ring's Pricking command that holds the edit port. -/
  portCmd : Option Done := none
  /-- R490. MSI-X table: mask bits (1 after reset), pending bits, addresses and data. -/
  msixUnmasked : BitVec 64 := 0
  msixPend : BitVec 64 := 0
  msixTab : List (Nat × (BitVec 64 × Word)) := []
  d3hot : Bool := false
  /-- R507. Mailbox FIFOs of host messages, by k. -/
  mbox : List (Nat × List (List Byte)) := []
deriving DecidableEq, Repr

/-! ### NTM (R92–R121) -/

/-- R95, R96. What the next tick applies to the clock: a correction in nanoseconds, or a time. -/
inductive NtmOp where
  | step (ns : Int)
  | set (sec ns : Nat)
deriving DecidableEq, Repr

/-- The internal state of the network clock. -/
structure NtmSt where
  sec : Nat := 0
  ns : Nat := 0
  /-- Fraction of a nanosecond, 2^-32. -/
  frac : Nat := 0
  /-- R95. The slew remainder in units of 2^-32 ns. -/
  rem : Int := 0
  ops : List NtmOp := []
  /-- R100. The ticks of the last matched Sync of each port and of the last 1PPS_IN edge that counts. -/
  sync0 : Option Nat := none
  sync1 : Option Nat := none
  ppsIn : Option Nat := none
  /-- R97, R108. The tick of the last accepted 1PPS_IN edge, and the STEPGEN of its capture. -/
  lastEdge : Option Nat := none
  edgeGen : Nat := 0
  /-- R99, R110. The tick at which a write or a reset ended the master's presence. -/
  gone : Option Nat := none
  /-- R102. The tick from which the holdover estimate counts, the 10 MHz error at entry, and the integral of the error in
  units of 0.01 ppb times ticks, with the tick up to which it is formed. -/
  holdRef : Nat := 0
  holdE0 : Int := 0
  holdInt : Int := 0
  holdIntTick : Nat := 0
  /-- R325. The tick at which GLB_STATUS.NTMLOCK last cleared. -/
  unlocked : Nat := 0
  /-- R98. Intervals of seconds values whose pulse has been emitted or skipped; a pulse is due, and the eighth of the tick just past in which
  it rises; the pin's level. -/
  ppsDone : List (Nat × Nat) := []
  ppsDue : Bool := false
  ppsSub : Nat := 0
  ppsOut : Bool := false
deriving DecidableEq, Repr

/-- R107. An entry of the PRP duplicate table: source address, highest sequence number, the window of the last 64 numbers
(bit i: number high − i seen), tick of last use. -/
structure PrpEnt where
  mac : Nat
  high : Nat
  seen : Nat
  used : Nat
deriving DecidableEq, Repr

/-- R118, R119. What the PCS of a port has seen: synchronisation, auto-negotiation done, and 1000 Mb/s negotiated. -/
structure PcsSt where
  sync : Bool := false
  anDone : Bool := false
  gigabit : Bool := false
deriving DecidableEq, Repr

/-- The internal state of the Ethernet ports. -/
structure EthSt where
  prp : List PrpEnt := []
  pcs : List (Nat × PcsSt) := []
  /-- R105. Transmit stamps pending on a port. -/
  stamps : List (Nat × Nat) := []
  /-- R106. The shared sequence counter of the redundancy control trailer. -/
  seq : Nat := 0
deriving DecidableEq, Repr

/-! ### Hoop (R48–R61) -/

/-- The internal state of an angle loop: H0 or H1. -/
structure LoopSt where
  /-- The 64-bit accumulator and its step per tick. -/
  acc : Nat := 0
  step : Nat := 0
  /-- R50. The frequency state of the loop: a step. -/
  freq : Nat := 0
  /-- R53. Consecutive updates below LOCKTHR, and above 4 × LOCKTHR. -/
  okCnt : Nat := 0
  badCnt : Nat := 0
  /-- R52. Consecutive updates with a flag, and with a negative sequence above half the positive sequence. -/
  flagCnt : Nat := 0
  negCnt : Nat := 0
  /-- The tick of the last update, which the slew limit refers to. -/
  lastUpd : Nat := 0
  /-- R51. A sequence run has completed the source's last entry, and its update is still to be formed. -/
  runDone : Bool := false
  /-- R49. The step of this tick took the angle past zero, and the turn is still to be counted. -/
  crossed : Bool := false
deriving DecidableEq, Repr

/-- The internal state of the Hoop. -/
structure HoopSt where
  h0 : LoopSt := {}
  h1 : LoopSt := {}
  /-- R58. Fraction of a step LSB in the ramp of SET, in 10^-18. -/
  rampFrac : Nat := 0
  /-- R55. The angle of the primary less that of H0, at the last update of the primary; R55, R407: the tick of the last update
  of HOOP_H0BKDIFF or RDN_H0DIFF. -/
  priRel : Int := 0
  diffAt : Nat := 0
  /-- R23. The frequency is above FMAX. -/
  overFmax : Bool := false
deriving DecidableEq, Repr

/-! ### Pricking (R68–R85) -/

/-- R78, R79. An action of the execution queue: the entry it came from, the turn in which its source crosses ANGLE, its
time t_e, the tick from which it is due, whether the source has crossed ANGLE, and whether it is held at step 0. -/
structure QAct where
  entry : BitVec 128
  page : Nat
  idx : Nat
  turn : Nat
  at_ : Int
  te : Nat
  crossed : Bool
  held : Bool
deriving DecidableEq, Repr

/-- The walk of a source: everything before (turn, angle, index) has been converted. -/
structure Walk where
  turn : Nat := 0
  ang : Nat := 0
  next : Nat := 0
deriving DecidableEq, Repr

/-- R73, R502. The result of the edit command that executes: status, index, entry; it does not complete before tick `due`. -/
structure EdDone where
  status : Nat
  idx : Option Nat
  data : Option (BitVec 128)
  due : Nat
deriving DecidableEq, Repr

/-- The internal state of Pricking. -/
structure PrkSt where
  /-- R71. The table of 16,384 entries. -/
  tab : List (Nat × BitVec 128) := []
  walks : List (Nat × Walk) := []
  queue : List QAct := []
  /-- R81. The tick of the last dispatch. -/
  lastDisp : Option Nat := none
  /-- R77. The H0 turn up to which the last pass converted; the target of a pending swap and the turn at whose zero it
  takes effect. -/
  convTurn : Nat := 0
  swap : Option (Nat × Nat) := none
  edit : Option EdDone := none
deriving DecidableEq, Repr

/-! ### Engines and Thimble (R122–R156) -/

/-- R133. The context of a task slot, with what its next start needs. -/
structure SlotSt where
  pc : Nat := 0
  /-- x1–x31 and f0–f31; a register not listed holds 0. -/
  xs : List (Nat × Word) := []
  fs : List (Nat × Word) := []
  fcsr : Nat := 0
  /-- R134. The wake word of the run. -/
  wake : Word := 0
  /-- R132. The rd of the WAITSLOT that waits. -/
  waitRd : Nat := 0
  /-- R136. How the next dispatch goes on: 0 from the entry point, 1 after WAITSLOT, 2 after preemption. -/
  mode : Nat := 0
  /-- R136. First run since EN was set; the last abort: 0 none, 1 overrun, 2 another slot fault. -/
  first : Bool := false
  abort : Nat := 0
  /-- R137. Budget cycles of the run up to the last preemption, and the budget in force. -/
  used : Nat := 0
  budget : Nat := 0
  /-- Starts of the slot so far, which tell its runs apart. -/
  run : Nat := 0
deriving DecidableEq, Repr

/-- R466. What a posted store does with its data. -/
inductive StoreKind where
  | plain | set | clear
deriving DecidableEq, Repr

/-- R125. A posted store: the address it writes, its kind, size in bytes and data; the tick from which its target can accept
it, and whether it arrives in the second engine cycle of that tick; the slot, run and PC that issued it, and the address they
gave. -/
structure Posted where
  addr : Nat
  kind : StoreKind
  size : Nat
  data : Nat
  due : Nat
  late : Bool
  slot : Nat
  run : Nat
  pc : Nat
  given : Nat
deriving DecidableEq, Repr

/-- The internal state of an engine. -/
structure EngSt where
  slots : List (Nat × SlotSt) := []
  buf : List Posted := []
  /-- R123, R149. The tick at which EN was last set, if it ever was, and instructions retired since. -/
  enTick : Option Nat := none
  instret : Nat := 0
  /-- R137, R149. The engine cycle since which the running slot holds the engine, and the cycles held before. -/
  since : Nat := 0
  busy : Nat := 0
  /-- R124. The engine cycle at which the next instruction can issue, and the one up to which a blocking instruction or a context
  switch holds the engine (R133). -/
  nextIssue : Nat := 0
  busyTo : Nat := 0
  /-- R124. Registers whose value is not available yet: slot × 64 + register (f registers from 32), the engine cycle at which
  a dependent instruction can issue, and the one at which a dependent MAC can. -/
  ready : List (Nat × Nat × Nat) := []
  /-- R129. The engine cycle of the last VC instruction, and the one since which a VC instruction of the running slot stalls. -/
  vcAt : Option Nat := none
  vcWait : Option Nat := none
  /-- R123. The fetch buffer: the address of its 32 bytes, and the bytes. -/
  fetchBuf : Option (Nat × List Byte) := none
deriving DecidableEq, Repr

/-- The internal state of Thimble. -/
structure ThbSt where
  /-- R147. Engines that have written BOB_WDKICK in this period. -/
  kicks : BitVec 16 := 0
deriving DecidableEq, Repr

/-! ### Stitch and Tatting (R157–R208) -/

/-- R158, R159. A fixed edge: cell time in sixteenths of an EU, trim not included; leg, level, dither phase. -/
structure Edge where
  time : Int
  legB : Bool
  lvl : Bool
  dph : Nat
deriving DecidableEq, Repr

/-- R174–R176. What a cell does on the carrier. -/
inductive PscRun where
  | stopped | entering | running | leaving
deriving DecidableEq, Repr

/-- The internal state of Stitch for a cell. -/
structure StCell where
  /-- R162. MODE of the cell's sets; R176: the phase on whose carrier it runs. -/
  mode : Nat := 3
  ph : Nat := 0
  /-- R163. Leg states before the pending edges, the pending edges, and the last edge of each leg. -/
  legA : Bool := false
  legB : Bool := false
  edges : List Edge := []
  lastA : Option Int := none
  lastB : Option Int := none
  /-- R176. Carrier: what the cell does; its position and N, and those it is to take. -/
  run : PscRun := .stopped
  pos : Nat := 0
  npos : Nat := 1
  toPos : Nat := 0
  toN : Nat := 1
  /-- R174. The next half-period: its instant (sixteenths of an EU), its angle, whether it rises; the valley that ends a
  transitional period (instant and angle); the reference of the last rising half-period; carrier periods so far. -/
  next : Rat := 0
  ang : Rat := 0
  rise : Bool := true
  trans : Option (Rat × Rat) := none
  ref : Int := 0
  /-- R162. The last valley computed. -/
  valley : Rat := 0
  cnt : Nat := 0
  /-- R178, R180. The state of the cell in NLC and PAT, and the pattern in force. -/
  st : Int := 0
  pat : List Nat := []
deriving DecidableEq, Repr

/-- The internal state of Stitch for a phase. -/
structure StPhase where
  /-- R170. The participating cells of the last latch, by rising ID. -/
  members : List Nat := []
  /-- R177. The level n. -/
  level : Int := 0
  /-- R172. W_e, the W of the first set after PHEN was set, in sixteenths of an EU. -/
  we : Option Int := none
  /-- R180. The phase offset in force. -/
  phofs : Nat := 0
  /-- R176. The instant at which the last transitional period ends. -/
  respEnd : Rat := 0
  /-- R411, R414. The members have been taken over and run on from the next latch. -/
  taken : Bool := false
deriving DecidableEq, Repr

/-- The internal state of Stitch. -/
structure StitchSt where
  cells : List (Nat × StCell) := []
  phases : List (Nat × StPhase) := []
  /-- R185. The sets that are being computed: cell, the tick at which the set is complete, its bytes in the downstream image;
  R256: the last complete set of each cell, from which DOWN takes them. -/
  images : List (Nat × Nat × List Byte) := []
  sets : List (Nat × List Byte) := []
  /-- R319. The TIME, in EU of cell time, of edges of computed sets, with their phase. -/
  placed : List (Nat × Int) := []
deriving DecidableEq, Repr

/-- The internal state of Tatting for a phase. -/
structure TatPhase where
  /-- R194, R196. s at the previous latch. -/
  sign : Int := 0
  /-- R197. The published order, and whether one has been published since PHEN was set. -/
  order : List Nat := []
  first : Bool := true
  /-- R198. A ROTATE_POINT has been dispatched since the previous latch. -/
  rotate : Bool := false
  /-- The participating cells of the previous latch. -/
  members : List Nat := []
deriving DecidableEq, Repr

/-- The internal state of Tatting for a cell: held key, dwell count, offset in force, whether it is stale (R196, R200,
R201), and the inputs that THM and AGE hold for it (R193). -/
structure TatCell where
  key : Int := 0
  dwell : Nat := 0
  ofs : Int := 0
  stale : Bool := false
  head : Nat := 0
  life : Nat := 0
  derate : Nat := 0
deriving DecidableEq, Repr

/-- The internal state of Tatting. -/
structure TatSt where
  phases : List (Nat × TatPhase) := []
  /-- R198. The phases that publish at the last latch. -/
  pub : Nat := 0
  cells : List (Nat × TatCell) := []
deriving DecidableEq, Repr

/-! ### Henlink (R209–R262) -/

/-- Who asked for a management request: a host command (ring, tag, index), TRIPCLR (R386), the admission or provisioning of a
cell (R238), or the fencing query (R417). -/
inductive MgmtBy where
  | host (ring tag cidx : Nat)
  | tripclr
  | admission
  | fence
deriving DecidableEq, Repr

/-- R221. Where a management request stands. -/
inductive MgmtAt where
  | toSend | sent | busy
deriving DecidableEq, Repr

/-- R221. A management request in the device. -/
structure Mgmt where
  chain : Nat
  cell : Nat
  op : Nat
  obj : Nat
  off : Nat
  cnt : Nat
  data : List Byte
  by_ : MgmtBy
  at_ : MgmtAt := .toSend
  /-- Attempts made, responses received, SEQ, the cycle of the last attempt, whether the next attempt carries RETRY or
  SEQINIT. -/
  tries : Nat := 0
  responses : Nat := 0
  seq : Nat := 0
  slot : Nat := 0
  retry : Bool := false
  reseq : Bool := false
deriving DecidableEq, Repr

/-- R231. The delay measurement of a cell: an exchange is wanted; T1 of the exchange in progress; the results before
admission; a jump that waits for its confirmation; whether a delay is in force; CORRQ of the last exchange. -/
structure Dly where
  want : Bool := false
  t1 : Option Nat := none
  preAdm : Bool := false
  got : List Int := []
  jump : Option Int := none
  known : Bool := false
  corrq : Nat := 0
deriving DecidableEq, Repr

/-- R236. An enumeration pass on a chain: MODE, first POS, STEP as a sign, the cycle in which it was sent. -/
structure EnumRun where
  fill : Bool
  pos : Int
  step : Int
  slot : Nat
  sent : Bool
deriving DecidableEq, Repr

/-- R242. What the nodes of a chain answered to CLAIM. -/
structure ClaimRes where
  ack : Nat := 0
  bad : Nat := 0
deriving DecidableEq, Repr

/-- The internal state of Henlink. -/
structure CelSt where
  /-- Control cycles so far (log entry 15), and the tick of the last CYCLE_START. -/
  slot : Nat := 0
  t0 : Nat := 0
  /-- R44. A control cycle has begun since RUN was set. -/
  begun : Bool := false
  /-- R227. While control cycles run, the tick by which the departure of a request must end: T − 0.1 µs. -/
  slotEnd : Option Nat := none
  /-- R250. The last SEQ sent of each stream, and the last SEQ accepted of each stream. -/
  txSeq : List (Nat × Nat) := []
  rxSeq : List (Nat × Option Nat) := []
  mgmt : List Mgmt := []
  dly : List (Nat × Dly) := []
  enums : List (Nat × Option EnumRun) := []
  /-- R218. SNAP of the next SYNC by chain: KIND and TARGET. -/
  snaps : List (Nat × Option (Nat × Nat)) := []
  /-- R449. The probes that the sets of this window carry: cell and PRB word. -/
  probe : List (Nat × Nat) := []
  /-- R251, R252. Cells answered with a NAK in this cycle; cells that answered with NAK 0x04 in this cycle. -/
  naks : List Nat := []
  nak04 : List Nat := []
  /-- R242. A claim is wanted in the next slot, with its epoch; the answers by chain; the cycle in which the outcome is due; chains won. -/
  claimWant : Option Nat := none
  claims : List (Nat × ClaimRes) := []
  claimEpoch : Nat := 0
  claimDue : Option Nat := none
  won : List Nat := []
  /-- R238. Cells that answered a TRIPCLR with OK; cells whose IDENT matches and that wait for mastership. -/
  cleared : List Nat := []
  matched : List Nat := []
  /-- R421. Cells whose last valid UP arrived through the tunnel; R423: those whose DOWN of this cycle has left already. -/
  tunneled : List Nat := []
  early : List Nat := []
deriving DecidableEq, Repr

/-! ### RDN (R397–R434) -/

/-- R417. An answer to the fencing query: chain, master, epoch, node state, AGE in µs. -/
structure FenceAns where
  chain : Nat
  master : Nat
  epoch : Nat
  age : Nat
deriving DecidableEq, Repr

/-- The internal state of the redundancy sequencer. -/
structure RdnSt where
  /-- R404. The HCMD that the next heartbeat carries. -/
  hcmd : Nat := 0
  /-- R410. A heartbeat was seen on the Shuttle path and on the chain path since the last t0; consecutive misses; cycles
  without a partner heartbeat of ROLE 1 in JOIN. -/
  shSeen : Bool := false
  chSeen : Bool := false
  shMiss : Nat := 0
  chMiss : Nat := 0
  joinMiss : Nat := 0
  /-- R417. The fencing query: sent in the last slot; wanted in the next; answers; cycles since the last query; the highest
  epoch returned. -/
  fenceSent : Bool := false
  fenceWant : Bool := false
  answers : List FenceAns := []
  fenceAge : Nat := 0
  fenceEpoch : Nat := 0
  /-- R418. The highest epoch in the responses to a claim. -/
  claimMax : Nat := 0
  /-- R410. Both heartbeat paths have been lost. -/
  partnerGone : Bool := false
  /-- R414. Whether the state applied is fit to start on: STATEOK while the partner was last heard, or a fresh checkpoint. -/
  heldOk : Bool := false
  /-- R427. The unit gives up control after this tick. -/
  yielding : Bool := false
  /-- R419. Chains silent at the claim, and cycles since they were claimed last. -/
  silent : List Nat := []
  silentCyc : Nat := 0
  /-- R405, R412. A delta in reception: its segments so far, the next index, the last SEQ, and whether it is broken. -/
  segs : List (Nat × List Byte) := []
  segNext : Nat := 0
  segSeq : Nat := 0
  segBad : Bool := false
  /-- R412. Generation and next segment of a snapshot in reception of which no segment has been missed. -/
  snapNext : Option (Nat × Nat) := none
  /-- R412. Control cycles since the last delta was applied, and whether a snapshot is complete. -/
  deltaAge : Nat := 255
  snapDone : Bool := false
  /-- R411. The snapshot that is being sent: its generation, the tick at which it began, and whether its last segment has left. -/
  snapGen : Nat := 0
  snapFrom : Option Nat := none
  snapSent : Bool := false
  /-- R406. Consecutive updates of CTOFS within 1 ns. -/
  ctOk : Nat := 0
  /-- R406. The rate estimate of the loop of CTOFS, and the tick of its last update. -/
  ctRate : Int := 0
  ctAt : Nat := 0
  /-- R424–R426. An armed handover's HANDOVER_POINT has been dispatched; this cycle is the handover cycle of the active
  unit; the standby has been handed off; cycles since the handover cycle. -/
  hoPoint : Bool := false
  hoCycle : Bool := false
  hoTake : Bool := false
  hoAge : Nat := 0
  /-- R414. The next latch is the first after this unit became active on carried pairs of that CYC. -/
  carried : Option Nat := none
  /-- R421. Frames to inject on healed chains after SYNC, whether SYNC of this cycle has left, and whether the transmit slot
  of this cycle has begun. -/
  inject : List (Nat × List Byte) := []
  txSync : Bool := false
  txSlot : Bool := false
  /-- R428. Tiles tested and failed since the last report. -/
  tiles : Nat := 0
  tilesBad : Nat := 0
  /-- R424. The conditions of an automatic return hold. -/
  revert : Bool := false
  /-- R230. T1 of a Shuttle delay exchange. -/
  shT1 : Option Nat := none
  /-- R430. RECID of the next record, and the STATE of the last state record. -/
  recid : Nat := 0
  noted : Nat := 0
  /-- R399. The hash of the booted signed image. -/
  imageHash : List Byte := []
deriving DecidableEq, Repr

/-! ### THM and AGE (R435–R458) -/

/-- The internal state of THM. -/
structure ThmSt where
  /-- R437. The last measured reading of a sensor, in 1/16 °C, and its consecutive bad readings. -/
  last : List (Nat × Option Int) := []
  bad : List (Nat × Nat) := []
  /-- R437. Thermistors with a new housekeeping result in this period, and periods without one. -/
  fresh : BitVec 8 := 0
  stale : List (Nat × Nat) := []
  /-- R444. Tick and TDIE of the die samples of the last 1 ms. -/
  die : List (Nat × Int) := []
  /-- R439. The tick from which the time in the step counts. -/
  stepTick : Nat := 0
  /-- R453. RECID of the next record. -/
  recid : Nat := 0
  /-- R446. The fixed comparator has decided; the device is halted by it. -/
  decided : Bool := false
  halted : Bool := false
deriving DecidableEq, Repr

/-- R450. The ageing record of a cell. -/
structure AgeRec where
  uid : Nat
  /-- Baselines and filtered values: C in 2 µF, ESR in 10 µΩ, VON in mV. -/
  c0 : Rat := 0
  esr0 : Rat := 0
  von0 : Rat := 0
  cf : Rat := 0
  esrf : Rat := 0
  vonf : Rat := 0
  /-- Valid probe results and VON samples so far. -/
  probes : Nat := 0
  vons : Nat := 0
  /-- Half-cycles by bin, and L_cyc in units of 2^-33. -/
  bins : List Nat := [0, 0, 0, 0, 0, 0, 0, 0]
  lcyc : Nat := 0
  /-- TSW has been seen; the last turning point, the extreme since, and the direction of TSW: 0 none, 1 rising, 2 falling. -/
  seen : Bool := false
  turn : Int := 0
  ext : Int := 0
  dir : Nat := 0
  /-- R451. CELLLIFE has been reported. -/
  told : Bool := false
deriving DecidableEq, Repr

/-- R449. A probe: its TAG, and the control cycles left before it fails. -/
structure Probe where
  tag : Nat
  left : Nat
deriving DecidableEq, Repr

/-- R476. A save that is being written: the tick at which it began, SEQ, and the records with LIFE and DERATE. -/
structure SaveRun where
  start : Nat
  seq : Nat
  recs : List (Nat × AgeRec × Nat × Nat)
deriving DecidableEq, Repr

/-- The internal state of AGE. -/
structure AgeSt where
  recs : List (Nat × Option AgeRec) := []
  /-- R449. AGE's probe count, the last cell probed in rotation, the probes named for the next latch, and those outstanding. -/
  probeCnt : Nat := 0
  lastCell : Nat := 191
  want : List (Nat × Nat) := []
  pend : List (Nat × Option Probe) := []
  /-- R476. The saves of areas A and B: SEQ and the records with LIFE and DERATE; whether an area holds an interrupted save; the
  SEQ of the next save; a save that is being written, with the tick at which it began. -/
  saveA : Option (Nat × List (Nat × AgeRec × Nat × Nat)) := none
  saveB : Option (Nat × List (Nat × AgeRec × Nat × Nat)) := none
  cutA : Bool := false
  cutB : Bool := false
  saveSeq : Nat := 0
  saving : Option SaveRun := none
  /-- R453. RECID of the next record. -/
  recid : Nat := 0
  /-- R448. The eye scan in progress was started by AGE. -/
  eyeLane : Option Nat := none
deriving DecidableEq, Repr

/-! ### Lanes (R263–R285) -/

/-- R272. Where the tuning procedure of a lane stands: a request is to be sent, has been sent, its frames are evaluated, or
the tuning is complete; `preset` waits for the answer to PRESET. -/
inductive TuneAt where
  | want | asked | eval | settle | preset
deriving DecidableEq, Repr

/-- R218, R226, R403, R411. What a waiting frame takes from the instant at which it departs: nothing; all of SYNC (in the name of the
other unit where `heal`); T1 of a delay request to a cell, or to the partner; T3; the times of the Shuttle heartbeat. With the last
segment of a snapshot or of a delta it is sent. -/
inductive TxStamp where
  | plain
  | sync (chain : Nat) (heal : Bool)
  | t1 (cell : Nat)
  | shT1
  | t3
  | hbt
  | snapEnd
  | deltaEnd (gen : Nat)
deriving DecidableEq, Repr

/-- A frame that waits for a lane: its class (R402; 0 on a chain lane), its stamp, the bytes between SOF and EOF. -/
structure TxItem where
  cls : Nat := 0
  stamp : TxStamp := .plain
  bytes : List Byte
deriving DecidableEq, Repr

/-- The internal state of a lane. -/
structure LaneSt where
  /-- R213, R275. The tick from which the transmitter is free, and the frames that wait for it, in the order in which they leave. -/
  txFree : Nat := 0
  queue : List TxItem := []
  /-- R268, R270. The transmitter sends TRAIN frames; the PRBS31 state of the next one; R273: how many with STATE = READY have begun. -/
  training : Bool := false
  seed : Nat := 0
  readyCnt : Nat := 0
  /-- R273. The tick from which TIME counts; the tick at which CTLE adaptation began. -/
  since : Nat := 0
  ctleFrom : Nat := 0
  /-- R264. The lane waits for its PLL after a loss. -/
  pllLost : Bool := false
  /-- R270. STATE of the own receiver: 0 START, 1 CTLE, 2 TUNE, 3 READY; READY frames received in a row. -/
  phase : Nat := 0
  farReady : Nat := 0
  /-- R270. Bit errors of the last 16 frames, the newest first, and the eye height of the last. -/
  errs : List Nat := []
  eye : Nat := 0
  /-- R272. The tap being tuned (PRE, else POST), its direction (INC, else DEC), whether its first step is under way, whether
  the step being made is an undo, whether the evaluation sets the first metric; the best metric. -/
  stage : TuneAt := .settle
  pre : Bool := false
  inc : Bool := false
  first : Bool := true
  undo : Bool := false
  base : Bool := false
  best : Nat × Nat := (0, 0)
  /-- R272. Frames to skip, frames evaluated and their errors; error-free frames in a row; frames since the last step. -/
  skip : Nat := 0
  cnt : Nat := 0
  sum : Nat := 0
  good : Nat := 0
  frames : Nat := 0
  /-- R271. REQ as last received; changes to apply; RSP as sent. -/
  gotPre : Nat := 0
  gotPost : Nat := 0
  gotPreset : Bool := false
  doPre : Nat := 0
  doPost : Nat := 0
  doPreset : Bool := false
  rspPre : Nat := 0
  rspPost : Nat := 0
  rspPreset : Bool := false
  /-- R274. The tick of the last CTLE step in LINK. -/
  trackAt : Nat := 0
  /-- R279. The tick from which checked bits count. -/
  bitsFrom : Nat := 0
  /-- R280. The tick at which the running eye scan is complete. -/
  eyeEnd : Nat := 0
deriving DecidableEq, Repr

/-- The internal state of the serial lanes: lanes, and the lane PLLs that are locked (R264). -/
structure LnkSt where
  lanes : List (Nat × LaneSt) := []
  pll : BitVec 4 := 0
deriving DecidableEq, Repr

/-! ### ADC, PHU and TWU (R286–R343) -/

/-- What a SAR converter converts: an entry of its sequence, an urgent input, a housekeeping input, a test point. -/
inductive SarJob where
  | seq (k : Nat)
  | urgent (input : Nat)
  | hk (i : Nat)
  | test (p : Nat)
deriving DecidableEq, Repr

/-- The internal state of a SAR converter. -/
structure ConvSt where
  /-- The conversion in progress, the tick at which its slot began, and whether SETTLED was 0 then (R295). -/
  job : Option SarJob := none
  start : Nat := 0
  unsettled : Bool := false
  /-- R289. LEN and the inputs of the entries, latched at the start. -/
  len : Nat := 0
  ents : List Nat := []
  /-- R291. A trigger came in the tick that writes the last result; the last result has been written in this tick. -/
  again : Bool := false
  ended : Bool := false
  /-- R317. Network time in units of 2^-32 ns and STEPGEN at the last hold instant. -/
  held : Nat × Nat := (0, 0)
  /-- R293. The converter has been disabled while a conversion was in progress. -/
  closing : Bool := false
  /-- R297. Hold instants after the first tick and up to the second carry RECOV. -/
  recov : Nat × Nat := (0, 0)
  /-- R307. The next conversion carries OVR, REFNS. -/
  ovrNext : Bool := false
  refNext : Bool := false
  /-- R309. Urgent conversions so far. -/
  urgent : Nat := 0
deriving DecidableEq, Repr

/-- The internal state of ADC. -/
structure AdcSt where
  convs : List (Nat × ConvSt) := []
  /-- R299. Inputs that the scan has not converted; scans so far. -/
  hkTodo : List Nat := []
  hkCnt : Nat := 0
  /-- R300. Test points of the round that are not evaluated (converter, point), periods since it began, whether a point
  failed, whether a converter of the round has been disabled, and whether the next point is to fail (R307). -/
  scTodo : List (Nat × Nat) := []
  scAge : Nat := 0
  scBad : Bool := false
  scCut : Bool := false
  scInj : Bool := false
  /-- R301. Of each comparator: its input in microvolts, what it finds ahead of the filter, and the ticks from which "above" and
  "below" have passed the filter; the ticks at which injections end (R307). -/
  wcIn : List (Nat × Int) := []
  above : BitVec 8 := 0
  below : BitVec 8 := 0
  passHi : List (Nat × Nat) := []
  passLo : List (Nat × Nat) := []
  wcInj : List (Nat × Nat) := []
  /-- R303. Of each fast channel: one more than the index of its last clipped sample. -/
  clipAt : List (Nat × Nat) := []
deriving DecidableEq, Repr

/-- R317. A sample of a channel: its grid instant and, if it is valid, the code, the network time of its hold instant in units of
2^-32 ns, and STEPGEN. -/
structure PhuSample where
  g : Nat
  val : Option (Int × Nat × Nat)
deriving DecidableEq, Repr

/-- The internal state of the phasor unit. -/
structure PhuSt where
  /-- R316. The next grid instant to decide, the grid instants whose triggers are still to be issued, that of the running
  sequence, and the last one whose sequence has ended. Grid instant g is K × f0 × s + j. -/
  next : Nat := 0
  trigs : List Nat := []
  cur : Option Nat := none
  /-- R291. The grid instant whose trigger came in the tick that writes the last result of the running sequence. -/
  again : Option Nat := none
  last : Nat := 0
  /-- R317, R318. Of each channel: the grid instant at which its history starts, and its samples. -/
  start : List (Nat × Nat) := []
  samples : List (Nat × List PhuSample) := []
  /-- R323. The next frame to report, Fs × s + m; R327: the next frame to fall, and NTM_HOLD at t_r of those that have fallen. -/
  frame : Nat := 0
  mark : Nat := 0
  marks : List (Nat × Nat) := []
deriving DecidableEq, Repr

/-- R332. A travelling-wave event in its POST window: sample j_t, mode (0 α, 1 β, 2 auxiliary), and what was latched at the
trigger tick: the tick, the time in units of 2^-32 ns, its increment, STEPGEN, NTM_HOLD, the NTM state, CONT. -/
structure TwEvent where
  jt : Nat
  mode : Nat
  tick : Nat
  time : Nat
  inc : Int
  gen : Nat
  hold : Nat
  ntm : Nat
  cont : Bool
deriving DecidableEq, Repr

/-- R335–R337. A held record: RECID, FLAGS, arrival in units of 1/256 ns, HOLD. -/
structure TwRec where
  id : Nat
  flags : Nat
  time : Nat
  hold : Nat
deriving DecidableEq, Repr

/-- R336. A waveform copy: RECID, first sample index, bytes of a sample set, channel mask, sample bytes. -/
structure TwCopy where
  id : Nat
  first : Nat
  width : Nat
  mask : Nat
  data : List Byte
deriving DecidableEq, Repr

/-- The internal state of the travelling-wave unit. -/
structure TwuSt where
  /-- R331. The tick at which ARMLEFT is 0. -/
  armEnd : Nat := 0
  event : Option TwEvent := none
  recs : List TwRec := []
  /-- R326. First arrivals of records in units of 1/256 ns. -/
  firsts : List Nat := []
  copy : Option TwCopy := none
  /-- R337. The result of the location in progress: ERR, LOCRES, EST. -/
  loc : Nat × Int × Nat := (0, 0, 0)
deriving DecidableEq, Repr

/-! ### MEM, NVM, SEC and BST (R459–R535) -/

/-- What a bank's power transition in progress leads to (R469). -/
inductive BankGo where
  | none | toRet | toOff | wakeRet | wakeOff | init
deriving DecidableEq, Repr

/-- The internal state of the SRAM banks. -/
structure MemSt where
  /-- R462, R470. Commands that wait for a bank: until its drain ends, or until it is ON. -/
  waits : List (Nat × Instr) := []
  /-- R469. Transitions in progress, and banks with a request that came during one. -/
  go : List (Nat × BankGo) := []
  again : List Nat := []
  /-- R467. Corrected words that wait to be written back. -/
  wb : List Nat := []
  /-- R463. By bank, the last accepted write of MEM_OWNn: its tick, the rank of its master, and the owner before it. -/
  taken : List (Nat × Option (Nat × Nat × Nat)) := []
deriving DecidableEq, Repr

/-- The internal state of the MRAM: the line of the write port that is queued or being written (R478), and whether its
write has started (R475). -/
structure NvmSt where
  port : Option (Nat × List Byte) := none
  started : Bool := false
deriving DecidableEq, Repr

/-- R508. The fuses: lifecycle, key hash, DBG_KILL, and the column that a spare replaces (by macro × 2 + spare). -/
structure Fuses where
  lcs : Nat := 0
  keyHash : Option (List Byte) := none
  dbgKill : Bool := false
  cols : List (Nat × Option Nat) := []
deriving DecidableEq, Repr

/-- R520. Which reset Thimble boots from. -/
inductive BootKind where
  | power | therm | warm | wdog
deriving DecidableEq, Repr

/-- Where the boot stands: Thimble is to start; READY is to follow; done; in ROM loader mode; in reset. -/
inductive BootAt where
  | thimble | ready | done | loader | off
deriving DecidableEq, Repr

/-- The internal state of boot, long operations, Quiet and test access. -/
structure BstSt where
  /-- The fuses as programmed, and as loaded at the last power-up. -/
  fuses : Fuses := {}
  loaded : Fuses := {}
  kind : BootKind := .power
  at_ : BootAt := .thimble
  /-- R39. The long operation in progress, with its argument. -/
  longop : Option (Nat × Nat) := none
  /-- R528, R529. Engines and lanes enabled at entry; wake sources that came during entry; engine banks that were OFF. -/
  engs : BitVec 16 := 0
  lanes : BitVec 26 := 0
  wake : BitVec 3 := 0
  lost : BitVec 16 := 0
  /-- R532. The instruction of the TAP, none in Test-Logic-Reset. -/
  tap : Option TapIr := none
deriving DecidableEq, Repr

/-! ### The whole -/

/-- The state of the block. -/
structure State where
  /-- R4. The registers by BAR0 address; what is not listed holds its reset value. -/
  regs : List (Nat × Word)
  /-- R25. The memories of the engine address map by byte; what is not listed holds 0. -/
  mem : List Host.Cell
  /-- R17. Timebase ticks since the last power-on reset or PERST_N. -/
  tick : Nat
  flt : FltSt
  legs : List (Nat × LegSt)
  selv : SelvSt
  hif : HifSt
  ntm : NtmSt
  eth : EthSt
  rdn : RdnSt
  stitch : StitchSt
  tat : TatSt
  cel : CelSt
  thm : ThmSt
  age : AgeSt
  lnk : LnkSt
  adc : AdcSt
  phu : PhuSt
  twu : TwuSt
  bank : MemSt
  nvm : NvmSt
  bst : BstSt
  /-- R467, R474. Words of memory (by address) with wrong bits, and how many: 1 correctable, 2 or more not. -/
  flips : List (Nat × Nat)
  hoop : HoopSt
  engs : List (Nat × EngSt)
  thb : ThbSt
  prk : PrkSt
  /-- R70. The levels of GPIO0–GPIO15. -/
  gpio : BitVec 16
  /-- R8. Captured and held words of register pairs, by master and address; a captured word is 0 before its capture. -/
  caps : List (Nat × Word)
  held : List (Nat × Option Word)
  /-- The data of the last read (R4, R8, R94, R491). -/
  rdata : Word
  /-- What left the device, newest first. -/
  out : List Out
  /-- Steps the device has scheduled, with the tick at which each is due. -/
  agenda : List (Nat × Instr)
  /-- The model's own counter of free values (log entry 2). -/
  freeCtr : Nat
  /-- The commands that wait, first in, first out. -/
  pending : List Instr
deriving DecidableEq, Repr

/-- The steps that recur by themselves, with the tick of their first turn after a power-on reset: the periods of R439, R451,
R457 (SAVEPER 60 s, RPTPER 3,600 s, eye scans 60 s), R308 (10 ms, 100 ms) and R482 (60 s) at their reset values. -/
def firstSteps : List (Nat × Instr) :=
  [(500000, .throttleEvaluate), (5000000, .hkScanPeriod), (50000000, .selfCheckPeriod), (500000000, .ageLifeUpdate),
   (30000000000, .ageSave), (30000000000, .ageEyeScanPeriod), (30000000000, .scrubPass), (1800000000000, .ageReport)]

/-- The device right after a power-on reset. -/
def State.reset : State where
  regs := []
  mem := []
  tick := 0
  flt := {}
  legs := []
  selv := {}
  hif := {}
  ntm := {}
  eth := {}
  rdn := {}
  stitch := {}
  tat := {}
  cel := {}
  thm := {}
  age := {}
  lnk := {}
  adc := {}
  phu := {}
  twu := {}
  bank := {}
  nvm := {}
  bst := {}
  flips := []
  hoop := {}
  engs := []
  thb := {}
  prk := {}
  gpio := 0
  caps := []
  held := []
  rdata := 0#32
  out := []
  agenda := firstSteps
  freeCtr := 0
  pending := []

/-! ### Updates of one field -/

def State.updFlt (s : State) (f : FltSt → FltSt) : State := { s with flt := f s.flt }
def State.updSelv (s : State) (f : SelvSt → SelvSt) : State := { s with selv := f s.selv }
def State.updHif (s : State) (f : HifSt → HifSt) : State := { s with hif := f s.hif }
def State.updRdn (s : State) (f : RdnSt → RdnSt) : State := { s with rdn := f s.rdn }
def State.updStitch (s : State) (f : StitchSt → StitchSt) : State := { s with stitch := f s.stitch }
def State.updTat (s : State) (f : TatSt → TatSt) : State := { s with tat := f s.tat }
def State.updCel (s : State) (f : CelSt → CelSt) : State := { s with cel := f s.cel }
def State.updThm (s : State) (f : ThmSt → ThmSt) : State := { s with thm := f s.thm }
def State.updLnk (s : State) (f : LnkSt → LnkSt) : State := { s with lnk := f s.lnk }
def State.updAdc (s : State) (f : AdcSt → AdcSt) : State := { s with adc := f s.adc }
def State.updPhu (s : State) (f : PhuSt → PhuSt) : State := { s with phu := f s.phu }
def State.updTwu (s : State) (f : TwuSt → TwuSt) : State := { s with twu := f s.twu }
def State.updBank (s : State) (f : MemSt → MemSt) : State := { s with bank := f s.bank }
def State.updNvm (s : State) (f : NvmSt → NvmSt) : State := { s with nvm := f s.nvm }
def State.updBst (s : State) (f : BstSt → BstSt) : State := { s with bst := f s.bst }
def State.updAge (s : State) (f : AgeSt → AgeSt) : State := { s with age := f s.age }
def State.updEth (s : State) (f : EthSt → EthSt) : State := { s with eth := f s.eth }
def State.updThb (s : State) (f : ThbSt → ThbSt) : State := { s with thb := f s.thb }
def State.updHoop (s : State) (f : HoopSt → HoopSt) : State := { s with hoop := f s.hoop }
def State.updPrk (s : State) (f : PrkSt → PrkSt) : State := { s with prk := f s.prk }
def State.updNtm (s : State) (f : NtmSt → NtmSt) : State := { s with ntm := f s.ntm }

end Sys2Proof.Machine
end

