-- ==== Sys2Proof/Machine/Ops.lean ====
section
/-!
DEFINITION. The named operations over the state that every meaning uses: sparse tables, registers and their fields,
R41 counters, memory bytes, the agenda of scheduled events, what leaves the device, free values, and little-endian
byte lists.
-/

namespace Sys2Proof.Machine

/-! ### Sparse tables -/

/-- The value at key `a`; an unlisted key reads as `d a`. -/
def Sparse.get {α : Type} (d : Nat → α) : List (Nat × α) → Nat → α
  | [], a => d a
  | (k, v) :: t, a => if k = a then v else Sparse.get d t a

/-- The table without an entry at key `a`. -/
def Sparse.erase {α : Type} (l : List (Nat × α)) (a : Nat) : List (Nat × α) := l.filter (fun e => e.1 != a)

/-- The table with the entry `(a, v)` put before the first greater key. -/
def Sparse.insert {α : Type} (a : Nat) (v : α) : List (Nat × α) → List (Nat × α)
  | [] => [(a, v)]
  | (k, w) :: t => if a < k then (a, v) :: (k, w) :: t else (k, w) :: Sparse.insert a v t

/-- The table with `v` at key `a`; the default value is not listed. -/
def Sparse.put {α : Type} [DecidableEq α] (d : Nat → α) (l : List (Nat × α)) (a : Nat) (v : α) : List (Nat × α) :=
  if v = d a then Sparse.erase l a else Sparse.insert a v (Sparse.erase l a)

/-- The canonical form: keys strictly rising, no entry equal to its default. -/
def Sparse.wf {α : Type} [DecidableEq α] (d : Nat → α) (l : List (Nat × α)) : Prop :=
  l.Pairwise (fun x y => x.1 < y.1) ∧ ∀ e ∈ l, e.2 ≠ d e.1

/-- The entry of an internal table. -/
def tget {α : Type} (d : α) (l : List (Nat × α)) (i : Nat) : α := Sparse.get (fun _ => d) l i

/-- The internal table with `v` as entry `i`. -/
def tput {α : Type} [DecidableEq α] (d : α) (l : List (Nat × α)) (i : Nat) (v : α) : List (Nat × α) :=
  Sparse.put (fun _ => d) l i v

/-! ### Time (R12, R15) -/

/-- Ticks in a microsecond. -/
def us (n : Nat) : Nat := n * 500

/-- Ticks in a millisecond. -/
def ms (n : Nat) : Nat := n * 500000

/-! ### Registers (R4, R5) -/

/-- The word a register holds; what nothing has written reads as its reset value. -/
def State.rd (s : State) (a : Nat) : Word := Sparse.get regReset s.regs a

/-- The word a register holds, as a number. -/
def State.rdN (s : State) (a : Nat) : Nat := (s.rd a).toNat

/-- The register file with `v` in the register at `a`. -/
def State.wr (s : State) (a : Nat) (v : Word) : State := { s with regs := Sparse.put regReset s.regs a v }

/-- The register file with the low 32 bits of `n` in the register at `a`. -/
def State.wrN (s : State) (a n : Nat) : State := s.wr a (BitVec.ofNat 32 n)

/-- A field's value. -/
def State.fld (s : State) (f : Fld) : Nat := bitsOf (s.rdN f.addr) f.lo f.width

/-- A one-bit field's value. -/
def State.bit (s : State) (f : Fld) : Bool := s.fld f == 1

/-- The state with a field changed and the register's other bits kept. -/
def State.setF (s : State) (f : Fld) (v : Nat) : State := s.wrN f.addr (putBits (s.rdN f.addr) f.lo f.width v)

/-- The state with a one-bit field changed. -/
def State.setB (s : State) (f : Fld) (b : Bool) : State := s.setF f (if b then 1 else 0)

/-- Bit `i` of a register. -/
def State.rbit (s : State) (a i : Nat) : Bool := bitOf (s.rdN a) i

/-- The state with bit `i` of a register set or cleared. -/
def State.setBit (s : State) (a i : Nat) (b : Bool) : State := s.wrN a (putBit (s.rdN a) i b)

/-- R10, R41: one more in a counter with COUNT in [30:0]; it saturates and sets SAT. -/
def State.count (s : State) (a : Nat) : State :=
  let c := bitsOf (s.rdN a) 0 31
  if c + 1 < 0x7FFFFFFF then s.wrN a (putBits (s.rdN a) 0 31 (c + 1)) else s.wrN a 0xFFFFFFFF

/-- `n` more in an R41 counter. -/
def State.countN (s : State) (a n : Nat) : State :=
  let c := bitsOf (s.rdN a) 0 31
  if n = 0 then s
  else if c + n < 0x7FFFFFFF then s.wrN a (putBits (s.rdN a) 0 31 (c + n)) else s.wrN a 0xFFFFFFFF

/-- One more in a 32-bit register that wraps. -/
def State.incr (s : State) (a : Nat) : State := s.wrN a (s.rdN a + 1)

/-! ### Lists -/

/-- The numbers below `n`, rising. -/
def upto (n : Nat) : List Nat := List.range n

/-- Applies an operation for every number below `n`, rising. -/
def forN (n : Nat) (f : Nat → State → State) (s : State) : State := (upto n).foldl (fun t i => f i t) s

/-- The numbers below `n` whose bit is set in `mask`. -/
def bitsIn (n mask : Nat) : List Nat := (upto n).filter (fun i => bitOf mask i)

/-- Applies an operation for every member of a list, in order. -/
def forL {α : Type} (l : List α) (f : α → State → State) (s : State) : State := l.foldl (fun t x => f x t) s

/-! ### Memory: bytes of the engine address map -/

/-- What a byte of memory that nothing has written reads as: 0 (DESIGN CHOICE, log entry 4). -/
def memReset (_ : Nat) : Byte := 0#8

/-- The byte at an engine address. -/
def State.memB (s : State) (a : Nat) : Byte := Sparse.get memReset s.mem a

/-- The state with one byte of memory changed. -/
def State.setMemB (s : State) (a : Nat) (b : Byte) : State := { s with mem := Sparse.put memReset s.mem a b }

/-- `n` bytes from an engine address. -/
def State.memBytes (s : State) (a : Nat) : Nat → List Byte
  | 0 => []
  | n + 1 => s.memB a :: s.memBytes (a + 1) n

/-- The state with a list of bytes put from an engine address on. -/
def State.pokeBytes (s : State) (a : Nat) : List Byte → State
  | [] => s
  | b :: t => (s.setMemB a b).pokeBytes (a + 1) t

/-! ### Banks and check bits (R388, R459, R467) -/

/-- R459. Base address and size of a bank. -/
def bankBase (n : Nat) : Nat :=
  if n < 16 then 0x10000000 + n * 0x40000 else if n < 20 then 0x20000000 + (n - 16) * 0x100000 else 0x60000000
def bankSize (n : Nat) : Nat := if n < 16 then 0x40000 else if n < 20 then 0x100000 else 0x200000

/-- R459. The bank of an engine address. -/
def bankOf (a : Nat) : Option Nat :=
  if 0x10000000 ≤ a ∧ a < 0x10400000 then some ((a - 0x10000000) / 0x40000)
  else if 0x20000000 ≤ a ∧ a < 0x20400000 then some (16 + (a - 0x20000000) / 0x100000)
  else if 0x60000000 ≤ a ∧ a < 0x60200000 then some 20
  else none

/-- R388. TARGET and UNIT of an address. -/
def eccTarget (a : Nat) : Nat × Nat :=
  match bankOf a with
  | some n => if n < 16 then (1, n) else if n < 20 then (2, n - 16) else (3, 0)
  | none =>
    if 0x30000000 ≤ a ∧ a < 0x30010000 then (5, 0)
    else if 0x30010000 ≤ a ∧ a < 0x30040000 then (6, 0)
    else if 0x50000000 ≤ a ∧ a < 0x50800000 then (0xA, 0)
    else if 0x70000000 ≤ a ∧ a < 0x70010000 then (4, 0)
    else (0, 0)

/-- The state with the wrong bits of a word changed. -/
def State.setWrong (s : State) (a k : Nat) : State := { s with flips := tput 0 s.flips (a / 4 * 4) k }

/-- R388. An armed injection meets this write. -/
def State.eccHit (s : State) (a : Nat) : Bool :=
  s.bit FLT_ECCINJ_ARM && eccTarget a == (s.fld FLT_ECCINJ_TARGET, s.fld FLT_ECCINJ_UNIT)

/-- R388. A write to a memory outside the address space disarms an injection into it: a Pricking page (TARGET 7), the slot
context store of an engine (8), the receive buffer of a lane (0x10) or the source table of FLT (0x11). No rule says what a
read of their wrong check bits does, so nothing else follows. -/
def State.eccMeet (s : State) (target unit : Nat) : State :=
  if s.bit FLT_ECCINJ_ARM && (target, unit) == (s.fld FLT_ECCINJ_TARGET, s.fld FLT_ECCINJ_UNIT) then s.setB FLT_ECCINJ_ARM false
  else s

/-- R388, R467. A write of `n` bytes makes the check bits of its words right, or wrong in its first word as injected. -/
def State.eccStore (s : State) (a n : Nat) : State :=
  if n = 0 then s
  else
    let s := if s.flips.isEmpty then s
      else { s with flips := s.flips.filter (fun e => decide (e.1 + 4 ≤ a) || decide (a + n ≤ e.1)) }
    if s.eccHit a then (s.setWrong a (bitsIn 8 (s.fld FLT_ECCINJ_MASK)).length).setB FLT_ECCINJ_ARM false else s

/-- The state with a list of bytes stored from an engine address on, with their check bits. -/
def State.setMemBytes (s : State) (a : Nat) (bs : List Byte) : State := (s.pokeBytes a bs).eccStore a bs.length

/-- R9: the number a little-endian byte list spells. -/
def leNat : List Byte → Nat
  | [] => 0
  | b :: t => b.toNat + 256 * leNat t

/-- R9: the `k` low bytes of a number, lowest first. -/
def leBytes (n : Nat) : Nat → List Byte
  | 0 => []
  | k + 1 => BitVec.ofNat 8 n :: leBytes (n / 256) k

/-- The little-endian number in `n` bytes from an engine address. -/
def State.memN (s : State) (a n : Nat) : Nat := leNat (s.memBytes a n)

/-- The state with the low `k` bytes of `v` stored from an engine address on. -/
def State.setMemN (s : State) (a k v : Nat) : State := s.setMemBytes a (leBytes v k)

/-- R467. Wrong bits in the 32-bit word that holds an address. -/
def State.wrongBits (s : State) (a : Nat) : Nat := tget 0 s.flips (a / 4 * 4)

/-- R467. Whether a read of `n` words from an address finds an uncorrectable error. -/
def State.uncorr (s : State) (a n : Nat) : Bool := (List.range n).any (fun i => decide (2 ≤ s.wrongBits (a + 4 * i)))

/-! ### What leaves the device, free values, the agenda -/

/-- The state with one more thing that left the device, the newest first. -/
def State.emit (s : State) (o : Out) : State := { s with out := o :: s.out }

/-- A fresh free value for a value the spec leaves open, below `n`; the counter of free values advances. -/
def State.free (s : State) (n : Nat) : Nat × State :=
  ((Config.freeValue s.freeCtr).toNat % n, { s with freeCtr := s.freeCtr + 1 })

/-- Schedules a command of the device's own at an absolute tick. -/
def State.schedAt (s : State) (t : Nat) (c : Instr) : State := { s with agenda := s.agenda ++ [(t, c)] }

/-- Schedules a command of the device's own `d` ticks from now. -/
def State.sched (s : State) (d : Nat) (c : Instr) : State := s.schedAt (s.tick + d) c

/-- Takes every scheduled command that `p` names off the agenda. -/
def State.unsched (s : State) (p : Instr → Bool) : State := { s with agenda := s.agenda.filter (fun e => !p e.2) }

/-- Schedules a command of the device's own anew, `d` ticks from now. -/
def State.timer (s : State) (d : Nat) (c : Instr) : State := (s.unsched (· == c)).sched d c

end Sys2Proof.Machine
end

