-- ==== Sys2Proof/Machine/Legs.lean ====
section
/-!
DEFINITION. The gate outputs of a leg: turning a side off, turning a side on after dead time and handshake, and the safe
state of a leg (R344–R358).
-/

namespace Sys2Proof.Machine

/-- The internal state of leg `n`. -/
def State.leg (s : State) (n : Nat) : LegSt := tget {} s.legs n

/-- The state with leg `n`'s internal state changed. -/
def State.updLeg (s : State) (n : Nat) (f : LegSt → LegSt) : State :=
  { s with legs := tput {} s.legs n (f (s.leg n)) }

/-- A number as a leg index. -/
def legIx (n : Nat) : Fin 12 := ⟨n % 12, Nat.mod_lt _ (by decide)⟩

/-- R347. The leg states of PWM_STATUSn.STATE. -/
def legOff : Nat := 0
def legArmed : Nat := 1
def legRun : Nat := 2
def legStopping : Nat := 3
def legLatched : Nat := 4

/-- Whether a side of leg `n` is commanded on. -/
def State.sideOn (s : State) (n : Nat) (high : Bool) : Bool :=
  if high then s.bit (PWM_STATUS_GH n) else s.bit (PWM_STATUS_GL n)

/-- R344, R368. The filtered gate-off acknowledge of a side. -/
def State.gateFb (s : State) (n : Nat) (high : Bool) : Bool := s.rbit PWM_FBSTAT (if high then n else 12 + n)

/-- R368, R532. A gate pin takes a level at time `t` (250 ps units); while EXTEST is active it is held low. -/
def State.setPin (s : State) (n : Nat) (high level : Bool) (t : Nat) : State :=
  if s.bst.tap = some .extest then s
  else (s.setBit PWM_OUTSTAT (if high then n else 12 + n) level).emit (.gate n high level t)

/-- Commands a side of leg `n` to a level at time `t`; after the pad hold of R525 the pins stay. -/
def State.setSide (s : State) (n : Nat) (high level : Bool) (t : Nat) : State :=
  if s.selv.padHold then s
  else (s.setB (if high then PWM_STATUS_GH n else PWM_STATUS_GL n) level).setPin n high level t

/-- Which scheduled steps belong to the dead time of leg `n`. -/
def isDeadTimeEnd (n : Nat) : Instr → Bool
  | .deadTimeEnd k => k.val == n
  | _ => false

/-- Which scheduled steps are the acknowledge timer of a side of leg `n`. -/
def isAckTimeout (n : Nat) (high : Bool) : Instr → Bool
  | .ackTimeout k h => k.val == n && h == high
  | _ => false

/-- Which scheduled steps are the end of DSAT blanking of leg `n`. -/
def isDsatBlankEnd (n : Nat) : Instr → Bool
  | .dsatBlankEnd k => k.val == n
  | _ => false

/-- Which scheduled steps belong to a Picot refresh of leg `n` (R352, R353). -/
def isPicot (n : Nat) : Instr → Bool
  | .picotPulseEnd k => k.val == n
  | .picotSupplyCheck k => k.val == n
  | _ => false

/-- Which scheduled steps are the ideal transitions and period boundaries of leg `n`. -/
def isPeriod (n : Nat) : Instr → Bool
  | .pwmPeriodBoundary k => k.val == n
  | .pwmTransition k _ => k.val == n
  | _ => false

/-- R351. Starts the acknowledge timer of a side. -/
def State.startAck (s : State) (n : Nat) (high : Bool) : State :=
  (s.unsched (isAckTimeout n high)).sched (s.rdN SELV_ACK_TMO) (.ackTimeout (legIx n) high)

/-- R350, R351. Turns a side off at time `t`: the dead time starts, and with HSK = 1 the acknowledge timer. -/
def State.turnOff (s : State) (n : Nat) (high : Bool) (t : Nat) : State :=
  if s.sideOn n high then
    let s := s.setSide n high false t
    let s := if high then s.updLeg n (fun l => { l with hiSince := none }) else s
    let s := s.updLeg n (fun l => { l with dtEnd := t + 8 * s.fld (PWM_CFG_DT n) })
    let s := if s.fld (PWM_CFG_DT n) = 0 then s
      else ((s.setB (PWM_STATUS_DTRUN n) true).unsched (isDeadTimeEnd n)).sched (s.fld (PWM_CFG_DT n)) (.deadTimeEnd (legIx n))
    if s.bit (PWM_CFG_HSK n) then s.startAck n high else s
  else s

/-- R355. Starts the DSAT blanking of leg `n`: BLANK × 20 ns from a turn-on command. -/
def State.startBlank (s : State) (n : Nat) : State :=
  ((s.updLeg n (fun l => { l with blank := true })).unsched (isDsatBlankEnd n)).sched
    (s.fld (SELV_LCFG_BLANK n) * 10) (.dsatBlankEnd (legIx n))

/-- R350. Turns on the side that waits, once no dead time runs, the opposite side is not commanded on and, with the
handshake, the opposite side's acknowledge shows 1. A high side that turns on while its supply input is asserted requests a
refresh (R353). -/
def State.tryTurnOn (s : State) (n : Nat) (t : Nat) : State :=
  let go (high : Bool) : State :=
    if s.sideOn n (!high) || s.bit (PWM_STATUS_DTRUN n) || (s.bit (PWM_CFG_HSK n) && !s.gateFb n (!high)) then s
    else
      let s := s.updLeg n (fun l => { l with want := .none })
      if s.sideOn n high then s
      else
        let s := ((s.setSide n high true t).startBlank n).updLeg n (fun l => { l with onSub := t % 8 })
        if high then
          s.updLeg n (fun l => { l with hiSince := some s.tick, picotReq := l.picotReq || (l.bsuv && s.bit (PWM_CFG_BOOT n)) })
        else s
  match (s.leg n).want with
  | .none => s
  | .high => if (s.leg n).supplyWait then s else go true
  | .low => go false

/-- R357. The leg takes its safe state from its commanded state: all-off, or active short (low side on). A leg with an
acknowledge fault goes to all-off. A Picot refresh in progress ends. -/
def State.legSafe (s : State) (n : Nat) : State :=
  let s := ((s.unsched (isPicot n)).setB (PWM_STATUS_PICOT n) false).updLeg n (fun l => { l with supplyWait := false })
  let short := s.bit (PWM_CFG_SAFE n) && !(s.leg n).ackOff
  let t := s.tick * 8
  let s := if s.sideOn n true then s.turnOff n true t
    else if s.sideOn n false && !short then s.turnOff n false t
    else s
  if short then
    if s.sideOn n false then s.updLeg n (fun l => { l with want := .none })
    else
      let s := s.updLeg n (fun l => { l with want := .low })
      let s := if s.bit (PWM_CFG_HSK n) && !s.gateFb n true then s.startAck n true else s
      s.tryTurnOn n t
  else s.updLeg n (fun l => { l with want := .none })

/-- R351, R359. The condition of an acknowledge source ends when every side commanded off shows its acknowledge. -/
def State.ackLiveUpdate (s : State) (n : Nat) : State :=
  let okSide (high : Bool) : Bool := s.sideOn n high || s.gateFb n high
  if okSide true && okSide false then
    s.setBit (if 36 + n < 32 then SELV_LIVE0 else SELV_LIVE1) (36 + n - 32) false
  else s

/-- R347. The leg stops being driven by PWM: no boundary or transition of its period follows. -/
def State.legHalt (s : State) (n : Nat) : State :=
  (s.unsched (isPeriod n)).updLeg n (fun l => { l with starting := false, picotReq := false })

end Sys2Proof.Machine
end

