-- ==== Sys2Proof/Machine/Faults.lean ====
section
/-!
DEFINITION. Fault collection and Selvage decisions as shared operations: `raise` takes an event of a source through
classification, first-fault capture and its reactions in the order of R378; `selvLatch` sets the latches of a Selvage
decision (R356–R360). Selvage's own events and an overflow of the event FIFO are events of FLT in turn.
-/

namespace Sys2Proof.Machine

/-- An event on its way into FLT. -/
structure Ev where
  src : Nat
  inst : Nat
  detail : Nat
  inj : Bool := false
deriving DecidableEq, Repr

/-! ### Derived status -/

/-- R32. ENERG_OK from its conditions. -/
def State.updEnerg (s : State) : State :=
  s.setB GLB_STATUS_ENERG_OK
    (s.bit GLB_STATUS_READY && s.bit GLB_STATUS_TBLOCK && s.bit GLB_STATUS_LANES_OK && s.bit GLB_STATUS_H0LOCK &&
      (s.bit GLB_STATUS_NTMLOCK || s.bit GLB_CTRL_NTM_OPT) && !s.bit GLB_STATUS_SAFE)

/-- R360. GLB_STATUS.SAFE while the STACK or BRK latch is set. -/
def State.updSafe (s : State) : State :=
  (s.setB GLB_STATUS_SAFE (s.bit SELV_STATUS_STACK || s.bit SELV_STATUS_BRK)).updEnerg

/-- R416. A standby unit suppresses some actions. -/
def State.standby (s : State) : Bool := s.fld GLB_STATUS_ROLE == 2

/-! ### MSI-X (R492) -/

/-- R492. Sends a message of a vector: only with MSI-X enabled; a masked vector's pending bit sets instead. -/
def State.msix (s : State) (vec : Nat) : State :=
  if s.bit HIF_STATUS_MSIXEN then
    if s.hif.msixUnmasked.getLsbD vec then s.emit (.msix vec)
    else s.updHif (fun h => { h with msixPend := h.msixPend ||| BitVec.twoPow 64 vec })
  else s

/-! ### Lanes -/

/-- The internal state of a lane. -/
def State.lane (s : State) (l : Nat) : LaneSt := tget {} s.lnk.lanes l

/-- The state with a lane's internal state changed. -/
def State.updLane (s : State) (l : Nat) (f : LaneSt → LaneSt) : State :=
  s.updLnk (fun k => { k with lanes := tput {} k.lanes l (f (tget {} k.lanes l)) })

/-- R263. Ticks of a character on a lane. -/
def State.charTicks (s : State) (l : Nat) : Nat := 4 / 2 ^ min 2 (s.fld (LNK_CTRL_RATE l))

/-! ### Fast trip (R244, R276, R402) -/

/-- R268, R276. A lane in WAIT, ALIGN, TRAIN or LINK can carry the fast trip ordered set. -/
def State.laneTrips (s : State) (l : Nat) : Bool :=
  s.bit (LNK_CTRL_EN l) &&
    (if l < 24 then s.bit (CEL_CHCFG_EN l) else s.fld RDN_STATUS_STATE != 0) &&
    (let st := s.fld (LNK_STATUS_STATE l)
     decide (1 ≤ st) && decide (st ≤ 4))

/-- R244, R276. The fast trip ordered set leaves on a lane: three characters, then an idle ordered set. A frame in progress ends
there; a TRAIN frame so cut short does not count as sent. -/
def State.tripOn (s : State) (l : Nat) : State :=
  (s.updLane l (fun t => { t with
    txFree := s.tick + 5 * s.charTicks l
    readyCnt := if s.tick < t.txFree then t.readyCnt - 1 else t.readyCnt })).emit (.fastTrip l)

/-- R244. The fast trip ordered set leaves on every lane that can carry it. -/
def State.sendFastTrip (s : State) : State := forL ((upto 26).filter s.laneTrips) (fun l t => t.tripOn l) s

/-! ### Selvage (R354–R360) -/

/-- R371. The leg of a source; 15 for a source without a leg. -/
def selvLegOf (src : Nat) : Nat := if 12 ≤ src ∧ src < 60 then (src - 12) % 12 else 15

/-- R359. The order of sources that latch in one tick: those without a leg by index, then leg by leg. -/
def selvOrder (src : Nat) : Nat := if selvLegOf src = 15 then src else 64 + selvLegOf src * 64 + src

/-- SELV_CAUSE bit of a source. -/
def State.setSelvCause (s : State) (src : Nat) : State :=
  s.setBit (if src < 32 then SELV_CAUSE0 else SELV_CAUSE1) (src % 32) true

/-- SELV_LIVE bit of a source. -/
def State.setSelvLive (s : State) (src : Nat) (b : Bool) : State :=
  s.setBit (if src < 32 then SELV_LIVE0 else SELV_LIVE1) (src % 32) b

/-- SELV_LIVE bit of a source. -/
def State.selvLive (s : State) (src : Nat) : Bool :=
  s.rbit (if src < 32 then SELV_LIVE0 else SELV_LIVE1) (src % 32)

/-- R359. First-source capture of a decision at this tick. -/
def State.selvFirst (s : State) (src : Nat) : State :=
  let put (t : State) (simul : Bool) : State :=
    t.wrN SELV_FIRST (2 ^ 31 + (if simul then 2 ^ 30 else 0) + src * 2 ^ 16 + selvLegOf src)
  if s.bit SELV_FIRST_VALID then
    if s.selv.firstTick = some s.tick then
      let cur := s.fld SELV_FIRST_SRC
      if cur = src then s
      else if selvOrder src < selvOrder cur then put s true
      else s.setB SELV_FIRST_SIMUL true
    else s
  else
    ((((put s false).wrN SELV_FIRSTTS_LO s.tick).wrN SELV_FIRSTTS_HI (s.tick / 2 ^ 32)).updSelv
      (fun v => { v with firstTick := some s.tick }))

/-- R357, R359. A leg latch sets: LTS, EN cleared, STATE LATCHED, safe state. -/
def State.latchLeg (s : State) (n : Nat) : State :=
  let s := s.setBit SELV_STATUS n true
  let s := s.wrN (SELV_LTS n) s.tick
  let s := s.setB (PWM_CTRL_EN n) false
  let s := (s.setF (PWM_STATUS_STATE n) legLatched).setB (PWM_STATUS_PEND n) false
  (s.legHalt n).legSafe n

/-- R360. The BRK latch sets and BRK_TRIP_N is asserted for at least SELV_BRKMIN. -/
def State.latchBrk (s : State) : State :=
  let s := (s.setB SELV_STATUS_BRK true).setB SELV_STATUS_BRKPIN true
  let d := ms (s.rdN SELV_BRKMIN)
  (s.updSelv (fun v => { v with brkEnd := s.tick + d })).timer d .brkMinExpire

/-- R374. The instance of a Selvage event: the leg of a leg source, 0x80 plus the index of a source without a leg. -/
def selvInst (src : Nat) : Nat := if selvLegOf src = 15 then 0x80 + src else selvLegOf src

/-- R356–R360. A decision of source `src` at this tick that names the leg latches in `legs`, STACK and BRK. All its
latches set in this tick; after the pad hold of R525 no decision is evaluated. The second component lists the events it
raises (R369). -/
def State.selvLatch (s : State) (src legs : Nat) (stack brk : Bool) : State × List Ev :=
  if s.selv.padHold then (s, []) else
  let s := (s.setSelvCause src).selvFirst src
  let s := if 36 ≤ src ∧ src < 48 then s.updLeg (src - 36) (fun l => { l with ackOff := true }) else s
  let newLegs := (bitsIn 12 legs).filter (fun n => !s.rbit SELV_STATUS n)
  let newStack := stack && !s.bit SELV_STATUS_STACK
  let newBrk := brk && !s.bit SELV_STATUS_BRK
  let s := forL newLegs (fun n t => t.latchLeg n) s
  let s := if 36 ≤ src ∧ src < 48 ∧ s.rbit SELV_STATUS (src - 36) then s.legSafe (src - 36) else s
  let s := if newStack then ((s.setB SELV_STATUS_STACK true).count CEL_TRIPTX).sendFastTrip else s
  let s := if newBrk then s.latchBrk else s
  let s := s.updSafe
  let bits := (if newLegs.isEmpty then [] else [0]) ++ (if newStack then [1] else []) ++ (if newBrk then [2] else []) ++
    (if 36 ≤ src ∧ src < 48 then [3] else []) ++ (if 48 ≤ src ∧ src < 60 then [4] else [])
  let s := forL bits (fun b t => t.setBit SELV_EVT b true) s
  (s, bits.map (fun b => { src := 0xB4 + b, inst := selvInst src, detail := 0 }))

/-- R356. What a latching source of R354 sets: leg latches, STACK, BRK. -/
def State.selvActs (s : State) (src : Nat) : Nat × Bool × Bool :=
  if src < 12 then (s.fld (SELV_XCFG_LEGS src), s.bit (SELV_XCFG_STACK src), s.bit (SELV_XCFG_BRK src))
  else if src < 60 then
    let n := selvLegOf src
    (s.fld (SELV_LCFG_GRP n) ||| 2 ^ n, s.bit (SELV_LCFG_STACK n), s.bit (SELV_LCFG_BRK n))
  else if src = 60 then
    if s.bit FLT_SAFEHOLD_ALL then (0xFFF, true, true) else (s.fld FLT_SAFEHOLD_LEGS, s.bit FLT_SAFEHOLD_STACK, false)
  else if src = 62 then (0xFFF, true, true)
  else (0, false, false)

/-- R356. Whether a source is enabled to latch. -/
def State.selvEnabled (s : State) (src : Nat) : Bool :=
  if src < 12 then s.bit (SELV_XCFG_EN src)
  else if src < 24 then s.bit (SELV_LCFG_DSATEN (src - 12))
  else if src < 36 then s.bit (SELV_LCFG_FOCEN (src - 24))
  else if src < 48 then true
  else if src < 60 then s.bit (SELV_LCFG_BSUVEN (src - 48))
  else src != 63

/-! ### FLT (R373–R391) -/

/-- R374. The condition sources. -/
def fltIsCondition (src : Nat) : Bool := src == 0x00 || src == 0x01 || src == 0x04 || src == 0x05 || src == 0x8B

/-- R374. Source IDs that the table lists. -/
def fltListed (n : Nat) : Bool :=
  decide (n ≤ 0x07) || (decide (0x10 ≤ n) && decide (n ≤ 0x58)) || n == 0x5C || n == 0x5D ||
    (decide (0x60 ≤ n) && decide (n ≤ 0x73)) || (decide (0x75 ≤ n) && decide (n ≤ 0x7A)) ||
    (decide (0x80 ≤ n) && decide (n ≤ 0x99)) || (decide (0xA0 ≤ n) && decide (n ≤ 0xA6)) ||
    (decide (0xA8 ≤ n) && decide (n ≤ 0xB0)) || (decide (0xB4 ≤ n) && decide (n ≤ 0xBA)) ||
    (decide (0xC0 ≤ n) && decide (n ≤ 0xFE))

/-- R374, R380. Whether the event's INST is a cell ID. -/
def fltInstIsCell (src inst : Nat) : Bool :=
  decide (inst ≤ 0xBF) &&
    ((decide (0x68 ≤ src) && decide (src ≤ 0x73)) || src == 0x81 || src == 0x83 || src == 0x84 || src == 0x8B ||
      src == 0xC8 || (decide (0xD4 ≤ src) && decide (src ≤ 0xD6)))

/-- The bit of a source in a bank of eight 32-bit registers. -/
def State.srcBit (s : State) (reg : Nat → Nat) (src : Nat) : Bool := s.rbit (reg (src / 32)) (src % 32)

/-- The state with the bit of a source in a bank of eight registers changed. -/
def State.setSrcBit (s : State) (reg : Nat → Nat) (src : Nat) (b : Bool) : State :=
  s.setBit (reg (src / 32)) (src % 32) b

/-- R15. The fault clock edge at or after this tick. -/
def State.faultEdge (s : State) : Nat := s.tick + s.tick % 2

/-- R396. FIFOLVL and LOGBUSY follow the FIFO. -/
def State.updFifo (s : State) : State :=
  (s.setF FLT_STATUS_FIFOLVL s.flt.fifo.length).setB FLT_STATUS_LOGBUSY (!s.flt.fifo.isEmpty)

/-- R384, R525. The level of ERR_N, which the pad hold freezes. -/
def State.setErrPin (s : State) (b : Bool) : State := if s.selv.padHold then s else s.setB FLT_STATUS_ERRPIN b

/-- R384. ERR_N is asserted; the pin follows HOLD after the minimum pulse. -/
def State.assertErr (s : State) : State :=
  let d := us (s.rdN FLT_ERRPIN_MINW)
  (((s.setErrPin true).updFlt (fun f => { f with minEnd := s.tick + d })).unsched
    (fun c => c == .errpinMinwExpire)).sched d .errpinMinwExpire

/-- R391. A record enters the FIFO; at a full FIFO it is lost and counted, and an overflow episode raises source 0xFE,
whose own record is held aside. -/
def State.pushRec (s : State) (r : FltRec) : State × List Ev :=
  if s.flt.fifo.length < 512 then
    let r := if r.update then r else { r with recid := s.rdN FLT_NEXTID }
    let s := if r.update then s else s.incr FLT_NEXTID
    ((s.updFlt (fun f => { f with fifo := f.fifo ++ [r] })).updFifo, [])
  else if r.src = 0xFE then (s.updFlt (fun f => { f with aside := some r }), [])
  else
    let s := s.count FLT_LOST
    if s.flt.overflow then (s, [])
    else (s.updFlt (fun f => { f with overflow := true }), [{ src := 0xFE, inst := 0xFF, detail := 0 }])

/-- R375. Class, escalation, reactions, and whether the event opens a window or escalates, with the window count. -/
structure Classified where
  cls : Nat
  esc : Bool
  react : Nat
  opening : Bool
  reaching : Bool
  cnt : Nat
deriving DecidableEq, Repr

/-- R375, R376. The classification of the next event of a source. -/
def State.classify (s : State) (src : Nat) : Classified :=
  let base := s.fld (FLT_SCFG_CLASS src)
  let counting := s.bit (FLT_SCFG_MODE src)
  let win := tget none s.flt.windows src
  let cnt := (match win with | some w => w.2 | none => 0) + 1
  let was := s.srcBit FLT_ESC src
  let reaching := counting && cnt == s.fld (FLT_SCFG_N src) && !was
  let esc := was || reaching
  let cls := if esc && counting then min 2 (base + 1) else base
  let react := if esc then s.fld (FLT_SREACT_EREACT src) else s.fld (FLT_SREACT_REACT src)
  { cls, esc, react := if cls = 2 then react ||| 5 else react, opening := counting && win.isNone, reaching
    cnt := if counting then cnt else 0 }

/-- R375. Opens or counts the window of a counting source and records its escalation. -/
def State.fltWindow (s : State) (src : Nat) (k : Classified) : State :=
  let s := if s.bit (FLT_SCFG_MODE src) then
      let close := match tget none s.flt.windows src with
        | some w => w.1
        | none => s.tick + ms (s.fld (FLT_SCFG_W src))
      let s := if k.opening then s.schedAt close (.faultWindowClose ⟨src % 256, Nat.mod_lt _ (by decide)⟩) else s
      s.updFlt (fun f => { f with windows := tput none f.windows src (some (close, k.cnt)) })
    else s
  if k.reaching then s.setSrcBit FLT_ESC src true else s

/-- R382, R390. The records of a source in a fault clock that another source's event turns out to lead: co-first, not
first. -/
def State.recCofirst (s : State) (edge src : Nat) : State :=
  let upd (r : FltRec) : FltRec :=
    if r.src = src ∧ r.settick = edge ∧ !r.update then { r with first := false, cofirst := true } else r
  s.updFlt (fun f => { f with
    fifo := f.fifo.map upd
    aside := f.aside.map upd
    live := f.live.map (fun x => { x with record := upd x.record }) })

/-- R382. First and co-first capture of an event sampled at fault clock edge `edge`. The second component says whether
the event is first and whether it is co-first. -/
def State.fltFirst (s : State) (edge : Nat) (e : Ev) (cls : Nat) : State × Bool × Bool :=
  let put (t : State) (cof : Bool) : State :=
    t.wrN FLT_FIRST (2 ^ 31 + (if cof then 2 ^ 30 else 0) + cls * 2 ^ 24 + e.inst % 256 * 2 ^ 16 + e.src)
  if s.bit FLT_FIRST_VALID then
    if s.rdN FLT_FIRSTTS_LO = edge % 2 ^ 32 ∧ s.rdN FLT_FIRSTTS_HI = edge / 2 ^ 32 % 2 ^ 32 ∧ s.flt.edge = edge ∧
        (s.flt.edgeEvs.any (fun x => x.src == s.fld FLT_FIRST_SRC)) then
      let cur := s.fld FLT_FIRST_SRC
      let curCls := s.fld FLT_FIRST_CLASS
      if curCls < cls ∨ (curCls = cls ∧ e.src < cur) then
        (((put s true).setSrcBit FLT_COFIRST cur true).recCofirst edge cur, true, false)
      else ((s.setB FLT_FIRST_COF true).setSrcBit FLT_COFIRST e.src true, false, true)
    else (s, false, false)
  else (((put s false).wrN FLT_FIRSTTS_LO edge).wrN FLT_FIRSTTS_HI (edge / 2 ^ 32), true, false)

/-- R380. The cell of a CELL_BYPASS reaction; 256 when the reaction does not apply. -/
def State.bypassCell (s : State) (e : Ev) : Nat :=
  let c := s.fld (FLT_STGT_CELL e.src)
  if c ≤ 0xBF then c else if fltInstIsCell e.src e.inst then e.inst else 256

/-- R427. TAKEOVER_REQ in an active unit with a partner that is able: YIELD is sent on the Shuttle link and the unit becomes
standby at the end of the tick; otherwise RDN_EVT.HOFAIL. In a single unit the request is recorded and has no other effect
(R378). The second component lists the events raised. -/
def State.takeover (s : State) : State × List Ev :=
  let s := s.updFlt (fun f => { f with takeoverReq := true })
  if s.fld RDN_STATUS_STATE = 4 then
    if s.fld RDN_PSTAT_HSTAT % 32 = 0x1C then (s.updRdn (fun r => { r with hcmd := 6, yielding := true }), [])
    else (s.setB RDN_EVT_HOFAIL true, [{ src := 0xF7, inst := 0xFF, detail := 0 }])
  else (s, [])

/-- R373, R380. The cell bypassed for the instance of an event follows its INST to a lower instance. -/
def State.cbypMove (s : State) (e : Ev) : State :=
  match s.flt.edgeEvs.find? (fun x => x.src == e.src) with
  | none => s
  | some x =>
    let cell := s.bypassCell e
    if cell < 192 ∧ e.inst < x.inst ∧ bitOf (s.classify e.src).react 3 ∧ s.fld (FLT_STGT_CELL e.src) = 0xFE then
      let s := if x.cbyp < 192 then s.setBit (FLT_CBYP (x.cbyp / 32)) (x.cbyp % 32) false else s
      let fresh := if s.rbit (FLT_CBYP (cell / 32)) (cell % 32) then 256 else cell
      (s.setBit (FLT_CBYP (cell / 32)) (cell % 32) true).updFlt (fun f => { f with
        edgeEvs := f.edgeEvs.map (fun y => if y.src = e.src then { y with cbyp := fresh } else y) })
    else s

/-- R373. A further instance of a source in the same fault clock: one event, the lowest instance, MULTI. -/
def State.fltMerge (s : State) (edge : Nat) (e : Ev) : State :=
  let s := s.cbypMove e
  let upd (r : FltRec) : FltRec :=
    if r.src = e.src ∧ r.settick = edge ∧ !r.update then { r with inst := min r.inst e.inst, multi := r.multi || r.inst != e.inst }
    else r
  let s := s.updFlt (fun f => { f with
    edgeEvs := f.edgeEvs.map (fun x => if x.src = e.src then { x with inst := min x.inst e.inst } else x)
    fifo := f.fifo.map upd
    aside := f.aside.map upd
    live := f.live.map (fun x => { x with record := upd x.record }) })
  if s.bit FLT_FIRST_VALID && s.fld FLT_FIRST_SRC == e.src && s.rdN FLT_FIRSTTS_LO == edge % 2 ^ 32 then
    s.setF FLT_FIRST_INST (min (s.fld FLT_FIRST_INST) e.inst)
  else s

/-- R383. A condition source becomes live. -/
def State.fltLive (s : State) (e : Ev) (react cell : Nat) (r : FltRec) (logged : Bool) : State :=
  if fltIsCondition e.src then
    (s.setSrcBit FLT_LIVE e.src true).updFlt (fun f => { f with
      live := ⟨e.src, e.inst, react, cell, r, logged, e.inj⟩ :: f.live.filter (fun x => !(x.src == e.src && x.inst == e.inst)) })
  else s

/-- R377, R378. The safe-state requests of an event: FLT_SAFEHOLD holds them, and Selvage takes them as source 60. -/
def State.fltSafe (s : State) (src react : Nat) : State × List Ev :=
  let legs := if bitOf react 5 then s.fld (FLT_STGT_LEGS src) else 0
  let stack := bitOf react 4
  let all := bitOf react 6
  if legs = 0 ∧ !stack ∧ !all then (s, [])
  else
    let s := s.setF FLT_SAFEHOLD_LEGS (s.fld FLT_SAFEHOLD_LEGS ||| legs)
    let s := if stack then s.setB FLT_SAFEHOLD_STACK true else s
    let s := if all then s.setB FLT_SAFEHOLD_ALL true else s
    let s := s.setSelvLive 60 true
    if all then s.selvLatch 60 0xFFF true true else s.selvLatch 60 legs stack false

/-- R384. ERR_N and AUTOHOLD of an event. -/
def State.fltErr (s : State) (cls react : Nat) : State :=
  let s := if bitOf react 2 then s.assertErr else s
  if bitOf (s.fld FLT_CTRL_AUTOHOLD) cls then (s.setB FLT_ERRPIN_HOLD_HOLD true).setErrPin true else s

/-- R377. The MSI-X message of an event: at most one per vector and fault clock. -/
def State.fltIrq (s : State) (cls react : Nat) : State :=
  if bitOf react 1 then
    let vec := if cls = 0 then s.fld FLT_IRQVEC_VECC else if cls = 1 then s.fld FLT_IRQVEC_VECU else s.fld FLT_IRQVEC_VECF
    if s.flt.edgeVecs.contains vec then s
    else (s.msix vec).updFlt (fun f => { f with edgeVecs := vec :: f.edgeVecs })
  else s

/-- R390. The record of an event, with network time and state at the event. -/
def State.fltRecord (s : State) (edge : Nat) (e : Ev) (k : Classified) (react : Nat) (first cofirst : Bool) : FltRec :=
  { recid := 0, src := e.src, cls := k.cls, esc := k.esc, first, cofirst, multi := false
    cleared := !fltIsCondition e.src, inj := e.inj, inst := e.inst % 256, react, settick := edge
    sec := s.ntm.sec % 2 ^ 32
    ns := s.ntm.ns + (if s.fld NTM_STATUS_STATE = 2 then 2 ^ 30 else 0) + (if s.fld NTM_STATUS_STATE = 3 then 2 ^ 31 else 0)
    clrtick := if fltIsCondition e.src then 0 else edge % 2 ^ 48
    detail := if s.bit (FLT_SCFG_MODE e.src) then min k.cnt 255 else e.detail % 256, update := false }

/-- R378. An event outside the open edge: its counter, its bit of FLT_CAUSE and, of class FATAL, the fatal list. -/
def State.fltMark (s : State) (src cls : Nat) : State :=
  let s := (s.count (FLT_SCNT src)).setSrcBit FLT_CAUSE src true
  if cls = 2 then
    (s.updFlt (fun f => { f with fatal := if f.fatal.contains src then f.fatal else src :: f.fatal })).setB FLT_STATUS_FATAL true
  else s

/-- R378. The reactions of an event, its record and the watchdog reset. The second component lists the events that it
raises in turn. -/
def State.fltAct (s : State) (e : Ev) (cls react : Nat) (r : FltRec) (logged : Bool) : State × List Ev :=
  let ev1 := s.fltSafe e.src react
  let s := ev1.1.fltErr cls react
  let ev2 := if bitOf react 7 then s.takeover else (s, [])
  let s := ev2.1.fltIrq cls react
  let ev3 := if logged then s.pushRec r else (s, [])
  let s := if e.src = 0x02 ∨ e.src = 0x03 then
      (ev3.1.updFlt (fun f => { f with wdogDue := true })).sched 0 .thimbleWatchdogReset
    else ev3.1
  (s, ev1.2 ++ ev2.2 ++ ev3.2)

/-- R378. An event of a source with no other event in the open edge. -/
def State.fltNew (s : State) (edge : Nat) (e : Ev) : State × List Ev :=
  let k := s.classify e.src
  let s := s.fltWindow e.src k
  let cell := if bitOf k.react 3 then s.bypassCell e else 256
  let react := if bitOf k.react 3 && cell == 256 then k.react - 8 else k.react
  let f := (s.fltMark e.src k.cls).fltFirst edge e k.cls
  let cbyp := if cell < 192 ∧ !s.rbit (FLT_CBYP (cell / 32)) (cell % 32) then cell else 256
  let s := f.1.updFlt (fun g => { g with edgeEvs := ⟨e.src, k.cls, e.inst, cbyp⟩ :: g.edgeEvs })
  let s := if cell < 192 then s.setBit (FLT_CBYP (cell / 32)) (cell % 32) true else s
  let r := s.fltRecord edge e k react f.2.1 f.2.2
  let thin := s.bit (FLT_SCFG_MODE e.src) && s.bit (FLT_SCFG_LOGMODE e.src) && !(k.opening || k.reaching)
  let logged := bitOf react 0 && !thin
  (s.fltLive e react cell { r with recid := s.rdN FLT_NEXTID } logged).fltAct e k.cls react r logged

/-- R378. One event through FLT, in the order of R378. The second component lists the events that its reactions raise. -/
def State.fltStep (e : Ev) (s : State) : State × List Ev :=
  if !fltListed e.src then (s, [])
  else
    let edge := s.faultEdge
    let s := if s.flt.edge = edge then s else s.updFlt (fun f => { f with edge := edge, edgeEvs := [], edgeVecs := [] })
    if s.flt.edgeEvs.any (fun x => x.src == e.src) then
      let k := s.classify e.src
      let s := s.fltMerge edge e
      (s.fltLive e k.react (s.bypassCell e) (s.fltRecord edge e k k.react false false) false, [])
    else s.fltNew edge e

/-- R15, R378. An event enters FLT `d` ticks from now, as a FAULT_EVENT. -/
def State.fltLater (d : Nat) (e : Ev) (s : State) : State :=
  let s := if e.inj then s.updFlt (fun f => { f with injWait := (e.src, e.inst) :: f.injWait }) else s
  s.sched d (.faultEvent ⟨e.src % 256, Nat.mod_lt _ (by decide)⟩ ⟨e.inst % 256, Nat.mod_lt _ (by decide)⟩ (BitVec.ofNat 8 e.detail))

/-- R378. FLT samples an event at this tick, an edge of the fault clock; the events that its reactions raise are sampled
at the next edge. -/
def State.fltSample (e : Ev) (s : State) : State :=
  let r := State.fltStep e s
  forL r.2 (State.fltLater 2) r.1

/-- R15, R378. An event of a listed source: it is sampled at the fault clock edge at or after this tick. -/
def State.raiseEv (e : Ev) (s : State) : State :=
  if !fltListed e.src then s else if s.tick % 2 = 0 then State.fltSample e s else State.fltLater 1 e s

/-- An event of a source, with its instance and the DETAIL code of its record. -/
def State.raiseD (s : State) (src inst detail : Nat) : State := State.raiseEv { src, inst, detail } s

/-- An event of a source. -/
def State.raise (s : State) (src inst : Nat) : State := s.raiseD src inst 0

/-- Sets a sticky event bit and raises its source: block base plus bit (R374). -/
def State.evt (s : State) (f : Fld) (base inst : Nat) : State := (s.setB f true).raise (base + f.lo) inst

/-- R28. Bits [19:12] of the BAR0 offset of every block. -/
def blockPages : List Nat :=
  [0x00, 0x01, 0x02, 0x04, 0x05, 0x06, 0x07, 0x08, 0x0A, 0x0B, 0x0C, 0x10, 0x18, 0x20, 0x22, 0x23, 0x24, 0x25, 0x26, 0x28, 0x29,
   0x2A, 0x2B, 0x2C, 0x2D]

/-- R374. Bits [19:12] of the BAR0 offset of the block that an address lies in. -/
def blockPage (a : Nat) : Nat := blockPages.foldl (fun p b => if b ≤ a / 4096 then b else p) 0

/-- R374. A refused access or configuration write without an event bit of its own: source 0x07 with bits [19:12] of the
BAR0 offset of the block, or 0xFE for an access through the mirror. -/
def State.refuse (s : State) (m : Master) (a : Nat) : State :=
  s.raise 0x07 (match m with | .eng _ _ => 0xFE | _ => blockPage a)

/-- A Selvage decision and the events it raises. -/
def State.selvTrip (s : State) (src legs : Nat) (stack brk : Bool) : State :=
  let r := s.selvLatch src legs stack brk
  forL r.2 State.raiseEv r.1

/-- R354, R356. A source whose condition holds latches if it is enabled. -/
def State.selvDecide (s : State) (src : Nat) : State :=
  if s.selvEnabled src then
    let a := s.selvActs src
    s.selvTrip src a.1 a.2.1 a.2.2
  else s

/-- R383, R390. FLT samples the end of a condition: its LIVE bit clears when no instance is left, and its record is
rewritten. -/
def State.fltEndNow (s : State) (src inst : Nat) : State :=
  match s.flt.live.find? (fun x => x.src == src && x.inst == inst) with
  | none => s
  | some c =>
    let s := s.updFlt (fun f => { f with live := f.live.filter (fun x => !(x.src == src && x.inst == inst)) })
    let s := if s.flt.live.any (fun x => x.src == src) then s else s.setSrcBit FLT_LIVE src false
    if c.logged then
      let edge := s.faultEdge
      let clr := if edge - c.record.settick < 2 ^ 48 then edge % 2 ^ 48 else 2 ^ 48 - 1
      let r := s.pushRec { c.record with cleared := true, clrtick := clr, update := true }
      forL r.2 (State.fltLater 2) r.1
    else s

/-- R15, R383. A condition ends; FLT samples it at the fault clock edge at or after this tick. -/
def State.fltEnd (s : State) (src inst : Nat) : State :=
  if s.tick % 2 = 0 then s.fltEndNow src inst
  else s.sched 1 (.faultConditionEnd ⟨src % 256, Nat.mod_lt _ (by decide)⟩ ⟨inst % 256, Nat.mod_lt _ (by decide)⟩)

end Sys2Proof.Machine
end

