-- ==== Sys2Proof/Machine/Rings.lean ====
section
/-!
DEFINITION. Descriptor rings as shared operations: indices and fullness (R494, R496), records into buffer rings (R497),
interrupt hold-off (R498), completion entries (R500), and the start and end of a command (R501). Also the gate that a
host register access passes (R509, R518).
-/

namespace Sys2Proof.Machine

/-! ### Host gate -/

/-- R509, R518, R525. Whether a host write of BAR0 is taken: not before READY, while a long operation runs, or in the state
SHUTDOWN. -/
def State.hostWriteOk (s : State) : Bool :=
  s.bit GLB_STATUS_READY && !s.bit GLB_STATUS_BUSY && !s.bit BST_STATUS_SHUTDOWN

/-- R522. Whether a host write of GLB_LONGOP, GLB_LONGARG or GLB_RESET is taken: in ROM loader mode too. -/
def State.loaderWriteOk (s : State) : Bool :=
  s.hostWriteOk || (s.bit BST_STATUS_NOIMG && !s.bit GLB_STATUS_BUSY)

/-- A register write of a master, passed through the host gate. -/
def State.gate (s : State) (m : Master) (op : State → State) : State :=
  if m = .host then
    if s.hostWriteOk then op s
    else if s.bit GLB_STATUS_BUSY then s.count GLB_REJECT
    else s
  else op s

/-- R522. The gate of the registers that ROM loader mode serves. -/
def State.loaderGate (s : State) (m : Master) (op : State → State) : State :=
  if m = .host then
    if s.loaderWriteOk then op s
    else if s.bit GLB_STATUS_BUSY then s.count GLB_REJECT
    else s
  else op s

/-- R535. The unit is not in Quiet, nor on its way into or out of it. -/
def State.awake (s : State) : Bool := s.fld BST_QSTAT_STATE == 0

/-- R528. A write that starts a function which is off in Quiet is ignored there, as an event of source 0x07. -/
def State.startGate (s : State) (m : Master) (a : Nat) (op : State → State) : State := if s.awake then op s else s.refuse m a

/-! ### Ring indices -/

/-- The internal state of a ring. -/
def State.ring (s : State) (r : Nat) : RingSt := tget {} s.hif.rings r

/-- The state with a ring's internal state changed. -/
def State.updRing (s : State) (r : Nat) (f : RingSt → RingSt) : State :=
  s.updHif (fun h => { h with rings := tput {} h.rings r (f (tget {} h.rings r)) })

/-- R495. Ring states. -/
def ringOff : Nat := 0
def ringRun : Nat := 1
def ringStopping : Nat := 2
def ringDisabled : Nat := 3
def ringError : Nat := 4

/-- R494. SIZE of a ring. -/
def State.ringSize (s : State) (r : Nat) : Nat := 2 ^ s.fld (HIF_RCFG_LOG2SZ r)

/-- R494. DEV and HOST of a ring. -/
def State.ringDev (s : State) (r : Nat) : Nat := s.fld (HIF_RIDX_DEV r)
def State.ringHost (s : State) (r : Nat) : Nat := s.fld (HIF_RIDX_HOST r)

/-- R493. Rings whose slots the host consumes as entries: completions, and mailboxes from the device. -/
def State.ringIsEntry (s : State) (r : Nat) : Bool :=
  (decide (8 ≤ r) && decide (r ≤ 15)) || (decide (28 ≤ r) && s.bit (HIF_RCFG_DIR r))

/-- R496. The ring has no slot for the device to write or fetch. -/
def State.ringFull (s : State) (r : Nat) : Bool :=
  if s.ringIsEntry r then (s.ringDev r + 65536 - s.ringHost r) % 65536 == s.ringSize r
  else s.ringHost r == s.ringDev r

/-- R489. A ring moves data only while it is RUN and Bus Master Enable is set. -/
def State.ringLive (s : State) (r : Nat) : Bool := s.fld (HIF_RSTAT_STATE r) == ringRun && s.bit HIF_STATUS_BME

/-- R494. PHASE of index `i`. -/
def State.ringPhase (s : State) (r i : Nat) : Nat := 1 - i / s.ringSize r % 2

/-- The device index moves on by one. -/
def State.ringAdvance (s : State) (r : Nat) : State := s.setF (HIF_RIDX_DEV r) ((s.ringDev r + 1) % 65536)

/-- A number as a ring index. -/
def ringIx (r : Nat) : Fin 32 := ⟨r % 32, Nat.mod_lt _ (by decide)⟩

/-- R498. The device signals a slot it wrote: at once, or at the end of a hold-off that runs. -/
def State.ringSignal (s : State) (r : Nat) : State :=
  if s.bit (HIF_RCFG_IRQEN r) then
    let imod := s.fld (HIF_RCFG_IMOD r)
    if imod = 0 then s.msix (s.fld (HIF_RCFG_VEC r))
    else if s.tick < (s.ring r).holdEnd then s.updRing r (fun q => { q with irqPend := true })
    else ((s.msix (s.fld (HIF_RCFG_VEC r))).updRing r (fun q => { q with holdEnd := s.tick + us imod })).sched
      (us imod) (.irqHoldoffEnd (ringIx r))
  else s

/-- R497. The device writes back one buffer slot: data, LEN, INFO (14 bytes), STATUS, FLAGS. -/
def State.ringSlot (s : State) (r : Nat) (b : Slot) (data info : List Byte) (status : Nat) (sop eop : Bool) : State :=
  let i := s.ringDev r
  let flags := s.ringPhase r i * 128 + (if eop then 2 else 0) + (if sop then 1 else 0)
  let tail := leBytes data.length 4 ++ (info ++ List.replicate 14 0#8).take 14 ++ [BitVec.ofNat 8 status, BitVec.ofNat 8 flags]
  ((((s.emit (.slot r i b.addr.toNat data tail)).ringAdvance r).updRing r (fun q => { q with bufs := q.bufs.drop 1 })).ringSignal r)

/-- R497. Writes a record over the posted buffers. A buffer below 64 bytes is skipped with BUFSMALL and HIF_EVT.DESCERR;
a record that finds no further buffer ends with TRUNC. Answers whether any of the record was written. -/
def State.ringChunks (r : Nat) (info : List Byte) : List Slot → List Byte → Bool → State → State × Bool
  | [], _, sop, s => (s, !sop)
  | b :: bs, data, sop, s =>
    if b.buflen.toNat < 64 then
      State.ringChunks r info bs data sop ((s.ringSlot r b [] [] 2 false false).evt HIF_EVT_DESCERR 0xF8 0xFF)
    else
      let rest := data.drop b.buflen.toNat
      let more := bs.any (fun x => decide (64 ≤ x.buflen.toNat))
      if rest.isEmpty then (s.ringSlot r b data info 0 sop true, true)
      else if more then State.ringChunks r info bs rest false (s.ringSlot r b (data.take b.buflen.toNat) info 0 sop false)
      else (s.ringSlot r b (data.take b.buflen.toNat) info 1 sop true, true)

/-- R496, R497. A record for a buffer ring: written, or dropped and counted in HIF_RDROPn. Answers whether it was
written. -/
def State.ringRecord (s : State) (r : Nat) (data info : List Byte) : State × Bool :=
  if s.ringLive r && !s.ringFull r then
    let w := State.ringChunks r info (s.ring r).bufs data true s
    if w.2 then w else (w.1.count (HIF_RDROP r), false)
  else (s.count (HIF_RDROP r), false)

/-- A record for a buffer ring whose drop only HIF_RDROPn counts. -/
def State.ringPut (s : State) (r : Nat) (data : List Byte) : State := (s.ringRecord r data []).1

/-- R494. The device writes a 32-byte entry into an entry ring, with PHASE in bit 7 of byte 31. -/
def State.ringEntry (s : State) (r : Nat) (e : List Byte) : State :=
  let i := s.ringDev r
  let e := (e ++ List.replicate 32 0#8).take 31 ++ [BitVec.ofNat 8 ((e.getD 31 0#8).toNat % 128 + s.ringPhase r i * 128)]
  (((s.emit (.slot r i 0 [] e)).ringAdvance r).ringSignal r)

/-! ### Commands (R499–R501) -/

/-- R500. The completion ring of a command ring. -/
def State.cqOf (s : State) (ring : Nat) : Nat := 8 + s.fld (HIF_RCFG_CQ ring)

/-- R495. A STOPPING ring with nothing in flight is DISABLED. -/
def State.ringStopCheck (s : State) (r : Nat) : State :=
  if s.fld (HIF_RSTAT_STATE r) = ringStopping ∧ s.fld (HIF_RSTAT_INFLT r) = 0 then s.setF (HIF_RSTAT_STATE r) ringDisabled
  else s

/-- R500. The completion entry of a finished command. -/
def doneBytes (d : Done) : List Byte :=
  leBytes d.tag 4 ++ leBytes d.ring 1 ++ leBytes d.status 1 ++ leBytes d.opc 2 ++ leBytes d.cidx 2 ++ leBytes 0 2 ++
    leBytes d.result 4 ++ leBytes 0 16

/-- R496, R500. Writes the oldest held completion of a completion ring, if the ring has room. -/
def State.completeOne (s : State) (cq : Nat) : State :=
  match s.hif.done.find? (fun d => s.cqOf d.ring == cq) with
  | none => s
  | some d =>
    if s.ringLive cq && !s.ringFull cq then
      let s := s.updHif (fun h => { h with done := h.done.erase d })
      let s := s.ringEntry cq (doneBytes d)
      (s.setF (HIF_RSTAT_INFLT d.ring) (s.fld (HIF_RSTAT_INFLT d.ring) - 1)).ringStopCheck d.ring
    else s

/-- R500. A command finishes: its completion entry is written when the completion ring has room. -/
def State.finish (s : State) (d : Done) : State :=
  (s.updHif (fun h => { h with done := h.done ++ [d] })).completeOne (s.cqOf d.ring)

/-- R499. The ring of a command. -/
def cmdRing : Instr → Option Nat
  | .nop r _ | .prkRead r _ _ _ _ | .prkWrite r _ _ _ _ | .prkInsert r _ _ _ | .prkDelete r _ _ _ _ | .prkClear r _ _ | .prkCommit r _ _
  | .prkSwap r _ _ | .cellMgmt r _ _ | .cellmapWrite r _ _ _ | .memRead r _ _ | .memWrite r _ _ _ => some r.val
  | _ => none

/-- R501. An earlier command of a ring waits to start. -/
def State.cmdAhead (s : State) (ring : Nat) : Bool :=
  s.agenda.any (fun e => cmdRing e.2 == some ring) || s.bank.waits.any (fun e => cmdRing e.2 == some ring)

/-- R501. Whether the next command of a ring can start: the ring is RUN and has one, no earlier one waits to start, no completion of
its completion ring waits for room, no command of this ring holds the edit port or waits for its swap, and with FENCE every earlier
command has completed. -/
def State.cmdReady (s : State) (ring : Nat) (d : Desc) : Bool :=
  s.ringLive ring && s.ringHost ring != s.ringDev ring && !s.cmdAhead ring &&
    !(s.hif.done.any (fun x => s.cqOf x.ring == s.cqOf ring)) &&
    !(s.hif.swapCmds.any (fun w => w.1 == ring)) && !(s.hif.portCmd.any (fun w => w.ring == ring)) &&
    (!d.fence || s.fld (HIF_RSTAT_INFLT ring) == 0)

/-- R501. The device fetches a command: DEV moves on and the command is in flight. -/
def State.cmdFetch (s : State) (ring : Nat) : State :=
  (s.ringAdvance ring).setF (HIF_RSTAT_INFLT ring) (s.fld (HIF_RSTAT_INFLT ring) + 1)

/-- R501. A command that cannot start yet waits in its ring, as long as the ring is RUN and has one. -/
def State.cmdLater (s : State) (ring : Nat) (c : Instr) : State :=
  if s.fld (HIF_RSTAT_STATE ring) == ringRun && s.ringHost ring != s.ringDev ring then s.sched 1 c else s

/-- A command `c` that runs to completion: `op` gives the state, STATUS and RESULT. -/
def State.runCmd (s : State) (ring : Nat) (d : Desc) (c : Instr) (op : State → State × Nat × Nat) : State :=
  if s.cmdReady ring d then
    let cidx := s.ringDev ring
    let r := op (s.cmdFetch ring)
    r.1.finish ⟨ring, d.tag.toNat, d.opc.toNat, cidx, r.2.1, r.2.2⟩
  else s.cmdLater ring c

end Sys2Proof.Machine
end

