-- ==== Sys2Proof/Machine/FltCmds.lean ====
section
/-!
DEFINITION. The commands of fault collection (R373–R396): events, windows, condition ends, the event log, the error pin,
releases and injection.
-/

namespace Sys2Proof.Machine

/-- R393. The register block of FLT, for refusals of source 0x07. -/
def fltBlock : Nat := FLT_CTRL

/-- R385. A refused release, injection or log clear: counted in FLT_RELREF and an event of source 0x07. -/
def State.fltRefuse (s : State) (m : Master) : State := (s.count FLT_RELREF).refuse m fltBlock

/-- R378, R387. An event comes to FLT; one that an injection left waiting for the edge is an injected one. -/
def State.faultArrive (s : State) (src inst detail : Nat) : State :=
  let s' := if s.flt.injWait.contains (src, inst) then s.updFlt (fun f => { f with injWait := f.injWait.erase (src, inst) }) else s
  State.raiseEv { src, inst, detail, inj := s.flt.injWait.contains (src, inst) } s'

/-- R378. FAULT_EVENT: FLT samples a source event, classifies it and applies its reactions in order. -/
def execFaultEvent (src inst : Fin 256) (detail : Byte) (s : State) : Host.Outcome State Fault Refusal :=
  .next (s.faultArrive src.val inst.val detail.toNat)

/-- R375. The window of a counting source closes and its count restarts. -/
def State.closeWindow (s : State) (src : Nat) : State :=
  s.updFlt (fun f => { f with windows := tput none f.windows src none })

/-- R375. FAULT_WINDOW_CLOSE. -/
def execFaultWindowClose (src : Fin 256) (s : State) : Host.Outcome State Fault Refusal :=
  .next (s.closeWindow src.val)

/-- R446. The fixed thermal comparator has decided: the halt follows, or has come. -/
def State.thermalDecided (s : State) : Bool := s.thm.decided

/-- R475. No MRAM line starts after the thermal decision or while VDD (rail 0) or VDDMR (rail 5) is out of range; when that
ends, a queued line starts. -/
def State.haltUpdate (s : State) : State :=
  let h := s.thermalDecided || s.flt.live.any (fun c => c.src == 0x04 && (c.inst == 0 || c.inst == 5) && !c.inj)
  let s := s.setB NVM_STATUS_HALT h
  if h then s else s.updNvm (fun v => { v with started := v.port.isSome })

/-- R390. FAULT_CONDITION_END. -/
def execFaultConditionEnd (src inst : Fin 256) (s : State) : Host.Outcome State Fault Refusal :=
  .next (if src.val = 0x04 then (s.fltEnd src.val inst.val).haltUpdate else s.fltEnd src.val inst.val)

/-- R390. The FLAGS byte of a record. -/
def FltRec.flags (r : FltRec) : Nat :=
  r.cls % 4 + (if r.esc then 4 else 0) + (if r.first then 8 else 0) + (if r.cofirst then 16 else 0) +
    (if r.multi then 32 else 0) + (if r.cleared then 64 else 0) + (if r.inj then 128 else 0)

/-- R390. The 32 bytes of a record. -/
def FltRec.bytes (r : FltRec) : List Byte :=
  leBytes r.recid 4 ++ leBytes r.src 1 ++ leBytes r.flags 1 ++ leBytes r.inst 1 ++ leBytes r.react 1 ++
    leBytes r.settick 8 ++ leBytes r.sec 4 ++ leBytes r.ns 4 ++ leBytes r.clrtick 6 ++ leBytes r.detail 1 ++ leBytes 0xC3 1

/-- R473. The event log region of MRAM in the engine address map. -/
def fltLogBase : Nat := 0x50300000

/-- R389. The slot of the next new record: the pinned page until it holds 256, then the wrap area, whose oldest slot is
overwritten once it is full. -/
def State.logSlot (s : State) : State × Nat :=
  let pin := s.fld FLT_LOGSTAT_PINCNT
  if pin < 256 then (s.setF FLT_LOGSTAT_PINCNT (pin + 1), pin)
  else
    let w := s.fld FLT_LOGSTAT_WRIDX
    let s := s.setF FLT_LOGSTAT_WRIDX ((w + 1) % 65280)
    if s.flt.wrapCnt < 65280 then (s.updFlt (fun f => { f with wrapCnt := f.wrapCnt + 1 }), 256 + w)
    else (s.count FLT_LOG_WRAP, 256 + w)

/-- R392. With STREAM = 1 a committed record is copied to ring 18; a full ring drops the copy. -/
def State.streamRec (s : State) (b : List Byte) : State :=
  if s.bit FLT_CTRL_STREAM then
    let w := s.ringRecord 18 b []
    if w.2 then w.1 else w.1.count FLT_STRDROP
  else s

/-- R389, R390. Commits one record: a new record takes the next slot; a clear update rewrites its line if the slot still
holds the record. -/
def State.commitRec (s : State) (r : FltRec) : State :=
  if r.update then
    match s.flt.slots.find? (fun e => e.2 == r.recid) with
    | some e => ((s.setMemBytes (fltLogBase + e.1 * 32) r.bytes).incr NVM_WRLINES).streamRec r.bytes
    | none => s
  else
    let p := s.logSlot
    let s := (p.1.setMemBytes (fltLogBase + p.2 * 32) r.bytes).incr NVM_WRLINES
    let s := s.updFlt (fun f => { f with slots := (p.2, r.recid) :: f.slots.filter (fun e => e.1 != p.2) })
    s.streamRec r.bytes

/-- R391. The record held aside enters the FIFO at its first free place; an overflow episode ends at an empty FIFO. -/
def State.fifoAfter (s : State) : State :=
  let s := match s.flt.aside with
    | some r =>
      let r := { r with recid := s.rdN FLT_NEXTID }
      (s.incr FLT_NEXTID).updFlt (fun f => { f with aside := none, fifo := f.fifo ++ [r] })
    | none => if s.flt.fifo.isEmpty then s.updFlt (fun f => { f with overflow := false }) else s
  s.updFifo

/-- R391. LOG_RECORD_COMMIT: Thimble drains the oldest entry of the FIFO. None starts while MRAM writes are halted (R475) or
Thimble restarts after a wipe (R480). -/
def execLogRecordCommit (s : State) : Host.Outcome State Fault Refusal :=
  .next (match s.flt.fifo with
    | [] => s
    | r :: t => if s.bit NVM_STATUS_HALT || s.bit SEC_STATUS_WIPING || s.bit SEC_STATUS_RESTART then s else ((s.updFlt (fun f => { f with fifo := t })).commitRec r).fifoAfter)

/-- R384. ERRPIN_MINW_EXPIRE: after the minimum pulse ERR_N follows HOLD. -/
def execErrpinMinwExpire (s : State) : Host.Outcome State Fault Refusal :=
  .next ((s.updFlt (fun f => { f with minEnd := 0 })).setErrPin (s.bit FLT_ERRPIN_HOLD_HOLD))

/-- R384. A write of HOLD: 1 asserts ERR_N; 0 releases it at the end of a running minimum pulse. -/
def State.writeHold (s : State) (b : Bool) : State :=
  let s := s.setB FLT_ERRPIN_HOLD_HOLD b
  if b then s.setErrPin true
  else if s.tick < s.flt.minEnd then s
  else s.setErrPin false

/-- R384. ERRPIN_HOLD_WRITE. -/
def execErrpinHoldWrite (m : Master) (hold : Bool) (s : State) : Host.Outcome State Fault Refusal :=
  .next (s.gate m (fun s => s.writeHold hold))

/-- R379, R385. FLT_RELEASE with SAFE: clears FLT_SAFEHOLD unless a live condition's last event applied LEG_SAFE,
STACK_BYPASS or ALL_SAFE; another KEY is refused. -/
def State.releaseSafe (s : State) (m : Master) (key : Nat) : State :=
  if key ≠ 0xF1E0 then s.fltRefuse m
  else if s.flt.live.any (fun c => bitOf c.react 4 || bitOf c.react 5 || bitOf c.react 6) then s.fltRefuse m
  else (s.wrN FLT_SAFEHOLD 0).setSelvLive 60 false

/-- R385. FLT_RELEASE_SAFE. -/
def execFltReleaseSafe (m : Master) (key : BitVec 16) (s : State) : Host.Outcome State Fault Refusal :=
  .next (s.gate m (fun s => s.releaseSafe m key.toNat))

/-- R385. A write of 1 to bits of FLT_CBYPk releases each bypass unless a live source bypasses that cell. -/
def State.releaseCell (s : State) (m : Master) (k mask : Nat) : State :=
  let want := (bitsIn 32 mask).filter (fun i => s.rbit (FLT_CBYP k) i)
  let held := want.filter (fun i => s.flt.live.any (fun c => bitOf c.react 3 && c.cell == 32 * k + i))
  let s := forL (want.filter (fun i => !held.contains i)) (fun i t => t.setBit (FLT_CBYP k) i false) s
  if held.isEmpty then s else s.fltRefuse m

/-- R385. CELL_BYPASS_RELEASE. -/
def execCellBypassRelease (m : Master) (k : Fin 6) (mask : Word) (s : State) : Host.Outcome State Fault Refusal :=
  .next (s.gate m (fun s => s.releaseCell m k.val mask.toNat))

/-- R375. A write of 1 to bits of FLT_ESCk ends the escalation, closes the window and clears the count. -/
def State.clearEsc (s : State) (k mask : Nat) : State :=
  forL (bitsIn 32 mask) (fun i t =>
    ((t.setBit (FLT_ESC k) i false).closeWindow (32 * k + i)).unsched
      (fun c => match c with | .faultWindowClose x => x.val == 32 * k + i | _ => false)) s

/-- R375. ESCALATION_CLEAR. -/
def execEscalationClear (m : Master) (k : Fin 8) (mask : Word) (s : State) : Host.Outcome State Fault Refusal :=
  .next (s.gate m (fun s => s.clearEsc k.val mask.toNat))

/-- R387. A write of FLT_INJ: an event at the output of the source's detector, or a condition held for DUR × 10 µs. -/
def State.inject (s : State) (m : Master) (w : Nat) : State :=
  let src := bitsOf w 0 8
  let inst := bitsOf w 16 8
  let dur := bitsOf w 24 8
  let k := s.classify src
  let heavy := k.cls == 2 || bitOf k.react 4 || bitOf k.react 5 || bitOf k.react 6 || bitOf k.react 7
  if s.bit FLT_LOCK_INJOFF || !fltListed src || (s.bit GLB_STATUS_CTRL_RUN && heavy) then s.fltRefuse m
  else
    let s := State.raiseEv { src, inst, detail := 0, inj := true } s
    if fltIsCondition src then
      if dur = 0 then s.fltEnd src inst
      else s.sched (us (10 * dur))
        (.injectConditionEnd ⟨src % 256, Nat.mod_lt _ (by decide)⟩ ⟨inst % 256, Nat.mod_lt _ (by decide)⟩)
    else s

/-- R387. FAULT_INJECT. -/
def execFaultInject (m : Master) (w : Word) (s : State) : Host.Outcome State Fault Refusal :=
  .next (s.gate m (fun s => s.inject m w.toNat))

/-- R387. INJECT_CONDITION_END: the injected condition ends. -/
def execInjectConditionEnd (src inst : Fin 256) (s : State) : Host.Outcome State Fault Refusal :=
  .next (if s.flt.live.any (fun c => c.src == src.val && c.inst == inst.val && c.inj) then s.fltEnd src.val inst.val else s)

/-- R388. The memories that FLT_ECCINJ.TARGET names. -/
def eccTargetOk (t : Nat) : Bool := (decide (1 ≤ t) && decide (t ≤ 0x0A)) || t == 0x10 || t == 0x11

/-- R388. A write of FLT_ECCINJ: stored, or refused for a reserved TARGET, and with ARM = 1 and several MASK bits while
CTRL_RUN is 1 or INJOFF is 1. -/
def State.armEcc (s : State) (m : Master) (w : Nat) : State :=
  let many := decide (1 < (bitsIn 8 (bitsOf w 0 8)).length)
  if !eccTargetOk (bitsOf w 16 8) || (bitOf w 31 && many && (s.bit GLB_STATUS_CTRL_RUN || s.bit FLT_LOCK_INJOFF)) then
    s.fltRefuse m
  else s.wrN FLT_ECCINJ (putBits w 24 7 0)

/-- R388. ECC_INJECT_ARM. -/
def execEccInjectArm (m : Master) (w : Word) (s : State) : Host.Outcome State Fault Refusal :=
  .next (s.gate m (fun s => s.armEcc m w.toNat))

/-- R389. A write of FLT_LOGCLR: with the KEY and GO = 1 the pinned page is empty for new records. -/
def State.logClear (s : State) (m : Master) (w : Nat) : State :=
  if bitsOf w 16 16 ≠ 0xF1E0 then s.fltRefuse m
  else if bitOf w 0 then s.setF FLT_LOGSTAT_PINCNT 0
  else s

/-- R389. LOG_CLEAR. -/
def execLogClear (m : Master) (w : Word) (s : State) : Host.Outcome State Fault Refusal :=
  .next (s.gate m (fun s => s.logClear m w.toNat))

end Sys2Proof.Machine
end

