-- ==== Sys2Proof/Machine/Hoop.lean ====
section
/-!
DEFINITION. The Hoop as shared operations: angles and steps of H0, H1 and T, the loop updates with their limits, the state
machines of H0 and H1, and what the Hoop does at a tick (R48–R61).
-/

namespace Sys2Proof.Machine

/-- R12. The step for a frequency in units of 0.01 Hz: round(f × 2^64 × 2 ns). -/
def stepOf (cHz : Nat) : Nat := (cHz * 2 ^ 65 + 50000000000) / 100000000000

/-- R61. A step as a frequency, unsigned Q16.16 Hz, to the nearest. -/
def stepFreq (step : Nat) : Nat := (step * 500000000 + 2 ^ 47) / 2 ^ 48

/-- A sticky event of the Hoop: sources 0x50–0x58 (R374). -/
def State.evtHoop (s : State) (f : Fld) : State := s.evt f 0x50 0xFF

/-- R11. The angle words of H0 and H1. -/
def State.h0Ang (s : State) : Nat := s.hoop.h0.acc / 2 ^ 32
def State.h1Ang (s : State) : Nat := s.hoop.h1.acc / 2 ^ 32

/-- R60. The T angle word: floor(ns × 2^32 / 10^9). -/
def State.tAng (s : State) : Nat := s.ntm.ns * 2 ^ 32 / 1000000000

def State.updH0 (s : State) (f : LoopSt → LoopSt) : State := s.updHoop (fun h => { h with h0 := f h.h0 })
def State.updH1 (s : State) (f : LoopSt → LoopSt) : State := s.updHoop (fun h => { h with h1 := f h.h1 })

/-- R53, R63. The states of H0 and of H1. -/
def h0Off : Nat := 0
def h0Acquire : Nat := 1
def h0Locked : Nat := 2
def h0Coast : Nat := 3
def h0Free : Nat := 4
def h1Off : Nat := 0
def h1Set : Nat := 1
def h1Acquire : Nat := 2
def h1Locked : Nat := 3

def State.h0State (s : State) : Nat := s.fld HOOP_STATUS_H0STATE

/-- R31, R53. H0 takes a state; GLB_STATUS.H0LOCK is set in LOCKED and FREE, and the consecutive counts start anew. -/
def State.h0Enter (s : State) (st : Nat) : State :=
  (((s.setF HOOP_STATUS_H0STATE st).setB GLB_STATUS_H0LOCK (st == h0Locked || st == h0Free)).updH0
    (fun l => { l with okCnt := 0, badCnt := 0 })).updEnerg

/-- R23. A frequency above GLB_CYCCFG.FMAX in operation is a class C event, once per rise above it. The table of R374 names
no source for it; the model takes 0x07 with the GLB block (log entry 12). -/
def State.fmaxWatch (s : State) : State :=
  let above := s.bit GLB_STATUS_CTRL_RUN && !s.bit HOOP_CTRL_H0DC &&
    decide (stepOf (s.fld GLB_CYCCFG_FMAX) < s.hoop.h0.step)
  let rise := above && !s.hoop.overFmax
  let s := s.updHoop (fun h => { h with overFmax := above })
  if rise then s.raise 0x07 0 else s

/-- R50, R58. The change that a slew limit of `hz` Hz/s permits in `dt` ticks. -/
def slewMax (hz dt : Nat) : Nat := hz * dt * 2 ^ 66 / 1000000000000000000

/-- R50, R58. A step limited to a range and to a change of `dmax` from `old`: the step, whether the range limit acts, and
whether the slew limit acts. -/
def limitStep (lo hi dmax old raw : Nat) : Nat × Bool × Bool :=
  let tgt := clampNat lo hi raw
  let new := clampNat (old - dmax) (old + dmax) tgt
  (new, tgt != raw && new == tgt, new != tgt)

/-- R52. Whether the primary source meets the magnitude, flag and imbalance conditions, given the consecutive counts. -/
def sourceOk (minmag flagCnt negCnt pos : Nat) : Bool :=
  decide (flagCnt < 3) && decide (minmag * 256 ≤ pos) && decide (negCnt < 16)

/-! ### H0 -/

/-- R49, R50, R58. One update of a loop with phase error `err`, at tick `now`: the loop law chooses a step, which the limits
bound; while a limit acts, the frequency state is held at the limited step. -/
def LoopSt.update (l : LoopSt) (bw lo hi slew now : Nat) (err : Int) : LoopSt × Bool × Bool :=
  let dt := now - l.lastUpd
  let k := limitStep lo hi (slewMax slew dt) l.step (Config.loopStep bw l.freq dt err)
  ({ l with step := k.1, lastUpd := now, freq := if k.2.1 || k.2.2 then k.1 else Config.loopFreq bw l.freq dt err }, k.2)

/-- R61. The rate of change of the step between two updates `dt` ticks apart, signed Q16.16 Hz/s. -/
def rocofOf (old new dt : Nat) : Int :=
  let d : Int := (2 ^ 48 * max dt 1 : Nat)
  (((new : Int) - old) * 250000000000000000 * 2 + d) / (2 * d)

/-- R55, R407. A filtered angle difference takes in part of the difference from a new measurement. -/
def filterDiff (old : Int) (new : Int) (dt : Nat) : Int :=
  let d := toSigned 32 (ofSigned 32 (new - old))
  let p := Config.filterPart dt d
  old + (if 0 ≤ d then max 0 (min d p) else min 0 (max d p))

/-- R55, R407. A register with a filtered difference takes in a new measurement. -/
def State.diffUpdate (s : State) (a : Nat) (new : Int) : State :=
  (s.wrN a (ofSigned 32 (filterDiff (toSigned 32 (s.rdN a)) new (s.tick - s.hoop.diffAt)))).updHoop (fun h => { h with diffAt := s.tick })

/-- R51. One detector update of H0: the phase error gives a step within the limits of R50. -/
def State.h0Loop (s : State) (err : Int) : State :=
  let s := s.wrN HOOP_H0PERR (ofSigned 32 err)
  let l := s.hoop.h0
  let u := l.update (s.fld HOOP_H0LOOP_BW) (stepOf 4000) (stepOf 7000) 20 s.tick err
  let k := u.2
  let s := s.updH0 (fun _ => u.1)
  let s := s.wrN HOOP_H0ROCOF (ofSigned 32 (rocofOf l.step u.1.step (s.tick - l.lastUpd)))
  let wasRange := s.bit HOOP_STATUS_RANGE
  let wasSlew := s.bit HOOP_STATUS_SLEW
  let s := (s.setB HOOP_STATUS_RANGE k.1).setB HOOP_STATUS_SLEW k.2
  let s := if k.1 && !wasRange then s.evtHoop HOOP_EVT_H0RANGE else s
  let s := if k.2 && !wasSlew then s.evtHoop HOOP_EVT_H0SLEW else s
  s.fmaxWatch

/-- R53. The lock thresholds after a detector update with phase error `err`. -/
def State.h0Lock (s : State) (err : Int) : State :=
  let thr := s.fld HOOP_H0LOOP_LOCKTHR * 65536
  let ok := decide (err.natAbs < thr)
  let bad := decide (4 * thr < err.natAbs)
  let s := s.updH0 (fun l => { l with okCnt := if ok then l.okCnt + 1 else 0, badCnt := if bad then l.badCnt + 1 else 0 })
  if s.h0State = h0Acquire ∧ 64 ≤ s.hoop.h0.okCnt ∧ s.bit HOOP_STATUS_RANGE = false then s.h0Enter h0Locked
  else if s.h0State = h0Locked ∧ 8 ≤ s.hoop.h0.badCnt then (s.h0Enter h0Acquire).evtHoop HOOP_EVT_H0LOCKLOSS
  else s

/-- R53. H0 in ACQUIRE or LOCKED coasts with its step frozen; `f` is the event of the source that failed. -/
def State.h0ToCoast (s : State) (f : Fld) : State :=
  if s.h0State = h0Acquire ∨ s.h0State = h0Locked then ((s.wrN HOOP_H0ROCOF 0).h0Enter h0Coast).evtHoop f else s

/-- R53. The loop starts from the present step. -/
def State.h0Again (s : State) : State := (s.h0Enter h0Acquire).updH0 (fun l => { l with lastUpd := s.tick, freq := l.step })

/-- R54, R55. H0 takes the backup: the filtered difference stays frozen from here on. -/
def State.h0Switch (s : State) : State := (s.setB HOOP_STATUS_H0SRC true).evtHoop HOOP_EVT_H0SWBK

/-- R54. BKFORCE selects the backup, provided it is valid. -/
def State.h0Force (s : State) : State :=
  if s.bit HOOP_CTRL_BKFORCE && s.bit HOOP_STATUS_BKOK && !s.bit HOOP_STATUS_H0SRC &&
      decide (1 ≤ s.h0State) && decide (s.h0State ≤ 3) then s.h0Switch
  else s

/-- R53. In COAST, a selected source that is valid again lets the loop resume from the frozen step. -/
def State.h0Resume (s : State) : State :=
  if s.h0State = h0Coast ∧ s.bit (if s.bit HOOP_STATUS_H0SRC then HOOP_STATUS_BKOK else HOOP_STATUS_PRIOK) = true then
    s.h0Again
  else s

/-- R51, R54, R64. What the validity of the primary source causes: `was` and `ok` are PRIOK before and after, `byFlag` that it
ended by flagged or negative-sequence updates. -/
def State.priChange (s : State) (was ok byFlag : Bool) : State :=
  if s.bit HOOP_STATUS_H0SRC then (if was && !ok then s.evtHoop HOOP_EVT_PRIFAIL else s)
  else if ok then s
  else if was && byFlag && s.bit HOOP_CTRL_BKEN && s.bit HOOP_STATUS_BKOK && decide (1 ≤ s.h0State) && decide (s.h0State ≤ 3) then
    (s.evtHoop HOOP_EVT_PRIFAIL).h0Switch
  else if s.h0State = h0Acquire ∨ s.h0State = h0Locked then s.h0ToCoast HOOP_EVT_PRIFAIL
  else if was then s.evtHoop HOOP_EVT_PRIFAIL
  else s

/-- R50, R61. An update of a good primary source runs the loop of H0; a flagged one leaves the step, so that its rate is 0. -/
def State.priLoop (s : State) (angle : Nat) (ok flag : Bool) : State :=
  if s.bit HOOP_STATUS_H0SRC || !(s.h0State == h0Acquire || s.h0State == h0Locked) then s
  else if flag then s.wrN HOOP_H0ROCOF 0
  else if ok then
    let err := toSigned 32 (angle + s.rdN HOOP_H0OFS + 2 ^ 33 - s.h0Ang - s.rdN RDN_H0DIFF)
    (s.h0Loop err).h0Lock err
  else s

/-- R51–R55. An update of the primary source: its measured positive-sequence angle, positive- and negative-sequence
magnitudes (units of 2^-16 of converter full scale), and whether an entry carries OVR, RECOV or REFNS. -/
def State.h0Primary (s : State) (angle pos neg : Nat) (flag : Bool) : State :=
  let s := s.updH0 (fun l => { l with flagCnt := if flag then l.flagCnt + 1 else 0,
                                      negCnt := if pos < 2 * neg then l.negCnt + 1 else 0 })
  let l := s.hoop.h0
  let ok := sourceOk (s.fld HOOP_H0LOOP_MINMAG) l.flagCnt l.negCnt pos
  let byFlag := decide (3 ≤ l.flagCnt) || decide (16 ≤ l.negCnt)
  let was := s.bit HOOP_STATUS_PRIOK
  let rel := toSigned 32 (angle + 2 ^ 32 - s.h0Ang)
  let s := (s.setB HOOP_STATUS_PRIOK ok).updHoop (fun h => { h with priRel := rel })
  (s.priChange was ok byFlag).h0Force.h0Resume.priLoop angle ok flag

/-- R407. Whether H0 follows the active unit of the pair. -/
def State.followH0 (s : State) : Bool := s.standby && s.bit RDN_CTRL_EN && s.bit RDN_CFG_H0FOLLOW

/-- R407. A standby that follows measures its primary source: its validity, and the filtered difference of its angle from
the followed one, which H0 holds. -/
def State.h0Measure (s : State) (angle pos neg : Nat) (flag : Bool) : State :=
  let s := s.updH0 (fun l => { l with flagCnt := if flag then l.flagCnt + 1 else 0,
                                      negCnt := if pos < 2 * neg then l.negCnt + 1 else 0 })
  let l := s.hoop.h0
  let ok := sourceOk (s.fld HOOP_H0LOOP_MINMAG) l.flagCnt l.negCnt pos
  let was := s.bit HOOP_STATUS_PRIOK
  let rel := toSigned 32 (angle + 2 ^ 32 - s.h0Ang)
  let s := (s.setB HOOP_STATUS_PRIOK ok).updHoop (fun h => { h with priRel := rel })
  let s := if was && !ok then s.evtHoop HOOP_EVT_PRIFAIL else s
  if ok && !flag then s.diffUpdate RDN_H0DIFF (toSigned 32 (angle + s.rdN HOOP_H0OFS + 2 ^ 33 - s.h0Ang)) else s

/-- R407. A Shuttle heartbeat gives the phase error of a standby that follows; `angle` is the active unit's H0 at this
tick. -/
def State.h0Follow (s : State) (angle : Nat) : State :=
  if s.followH0 then
    let s := if s.h0State = h0Coast then s.h0Again else s
    if s.h0State = h0Acquire ∨ s.h0State = h0Locked then
      let err := toSigned 32 (angle + 2 ^ 32 - s.h0Ang)
      (s.h0Loop err).h0Lock err
    else s
  else s

/-- R51, R52, R55. The update of the backup source once per control cycle. Its angle and its positive-sequence magnitude are
free values: the spec gives no formula for them. `cells` says whether each phase has an
admitted cell, `dcMean` the mean over the phases of the summed DC links. -/
def State.h0Backup (s : State) (cells : Bool) (dcMean : Nat) : State :=
  let ra := s.free (2 ^ 32)
  let rm := ra.2.free (2 ^ 32)
  let s := rm.2
  let ok := cells && decide (s.fld HOOP_H0LOOP_MINMAG * dcMean ≤ rm.1 * 256)
  let was := s.bit HOOP_STATUS_BKOK
  let s := s.setB HOOP_STATUS_BKOK ok
  let s :=
    if ok && s.bit HOOP_STATUS_PRIOK && !s.bit HOOP_STATUS_H0SRC then
      s.diffUpdate HOOP_H0BKDIFF (toSigned 32 (ra.1 + 2 ^ 32 - s.h0Ang) - s.hoop.priRel)
    else s
  let s :=
    if s.bit HOOP_STATUS_H0SRC && !ok then
      if s.h0State = h0Acquire ∨ s.h0State = h0Locked then s.h0ToCoast HOOP_EVT_BKFAIL
      else if was then s.evtHoop HOOP_EVT_BKFAIL
      else s
    else s
  let s := s.h0Force.h0Resume
  if s.bit HOOP_STATUS_H0SRC && ok && !s.followH0 &&
      (s.h0State == h0Acquire || s.h0State == h0Locked) then
    let err := toSigned 32 (ra.1 + 2 ^ 33 - s.rdN HOOP_H0BKDIFF - s.rdN HOOP_H0BKTRIM + s.rdN HOOP_H0OFS + 2 ^ 33 - s.h0Ang - s.rdN RDN_H0DIFF)
    (s.h0Loop err).h0Lock err
  else s

/-- R53. H0 starts from OFF at angle 0 with the step of HOOP_H0NOM, in AC mode inside the range of R50. -/
def State.h0Start (s : State) : State :=
  let dc := s.bit HOOP_CTRL_H0DC
  let st := stepOf (s.fld HOOP_H0NOM_NOM)
  let st := if dc then st else clampNat (stepOf 4000) (stepOf 7000) st
  (s.updH0 (fun l => { l with acc := 0, step := st, freq := st, lastUpd := s.tick, crossed := false })).h0Enter
    (if dc then h0Free else h0Acquire)

/-- R53. H0 returns to OFF: angle, step and HOOP_H0TURNS cleared. -/
def State.h0Stop (s : State) : State :=
  let s := (s.updH0 (fun l => { l with acc := 0, step := 0, crossed := false })).wrN HOOP_H0TURNS 0
  let s := (s.setB HOOP_STATUS_RANGE false).setB HOOP_STATUS_SLEW false
  (s.wrN HOOP_H0ROCOF 0).h0Enter h0Off

/-- R53. H0DC set while H0 runs: FREE at the virtual frequency. -/
def State.h0ToFree (s : State) : State :=
  let s := (s.setB HOOP_STATUS_RANGE false).setB HOOP_STATUS_SLEW false
  ((s.updH0 (fun l => { l with step := stepOf (s.fld HOOP_H0NOM_NOM) })).wrN HOOP_H0ROCOF 0).h0Enter h0Free

/-- R53. H0DC cleared in FREE: ACQUIRE from the present step. -/
def State.h0ToAcquire (s : State) : State := s.h0Again

/-- R56. PRIRET while the primary is valid. -/
def State.priReturn (s : State) : State :=
  if s.bit HOOP_STATUS_PRIOK then (s.setB HOOP_STATUS_H0SRC false).h0Resume else s

/-! ### H1 -/

/-- R58. The frequency limits of H1 TRACK. -/
def h1Lo : Nat := stepOf 1000
def h1Hi : Nat := stepOf 40000

/-- R58, R64. A new H1MODE takes effect; TRACK that was in LOCKED leaves it. -/
def State.h1ModeChange (s : State) (mode : Nat) : State :=
  let s := if s.fld HOOP_STATUS_H1STATE = h1Locked then s.evtHoop HOOP_EVT_H1LOCKLOSS else s
  let s := s.setB HOOP_STATUS_H1COAST false
  let s := s.updH1 (fun l => { l with okCnt := 0, badCnt := 0, lastUpd := s.tick })
  if mode = 1 then s.setF HOOP_STATUS_H1STATE h1Set
  else if mode = 2 then
    let st := clampNat h1Lo h1Hi (stepOf (s.fld HOOP_H1CFG_FSET))
    (s.updH1 (fun l => { l with step := st, freq := st })).setF HOOP_STATUS_H1STATE h1Acquire
  else (s.updH1 (fun l => { l with step := 0 })).setF HOOP_STATUS_H1STATE h1Off

/-- R58. An update of the H1 TRACK source: a loop like that of H0, over 10–400 Hz with a slew limit of 400 Hz/s. -/
def State.h1Track (s : State) (angle pos neg : Nat) (flag : Bool) : State :=
  if s.fld HOOP_CTRL_H1MODE ≠ 2 then s
  else
    let single := s.bit HOOP_H1SRC_SINGLE
    let s := s.updH1 (fun l => { l with flagCnt := if flag then l.flagCnt + 1 else 0,
                                        negCnt := if pos < 2 * neg ∧ !single then l.negCnt + 1 else 0 })
    let ok := sourceOk (s.fld HOOP_H0LOOP_MINMAG) s.hoop.h1.flagCnt s.hoop.h1.negCnt pos
    if !ok then
      let lost := s.fld HOOP_STATUS_H1STATE == h1Locked
      let s := ((s.setB HOOP_STATUS_H1COAST true).setF HOOP_STATUS_H1STATE h1Acquire).updH1
        (fun l => { l with okCnt := 0, badCnt := 0 })
      if lost then s.evtHoop HOOP_EVT_H1LOCKLOSS else s
    else
      let s := if s.bit HOOP_STATUS_H1COAST then
          (s.setB HOOP_STATUS_H1COAST false).updH1 (fun l => { l with lastUpd := s.tick, freq := l.step })
        else s
      if flag then s
      else
        let err := toSigned 32 (angle + 2 ^ 32 - s.h1Ang)
        let u := s.hoop.h1.update (s.fld HOOP_H0LOOP_BW) h1Lo h1Hi 400 s.tick err
        let thr := s.fld HOOP_H0LOOP_LOCKTHR * 65536
        let below := decide (err.natAbs < thr)
        let above := decide (4 * thr < err.natAbs)
        let s := s.updH1 (fun l => { u.1 with okCnt := if below then l.okCnt + 1 else 0, badCnt := if above then l.badCnt + 1 else 0 })
        if s.fld HOOP_STATUS_H1STATE = h1Acquire ∧ 64 ≤ s.hoop.h1.okCnt ∧ u.2.1 = false then s.setF HOOP_STATUS_H1STATE h1Locked
        else if s.fld HOOP_STATUS_H1STATE = h1Locked ∧ 8 ≤ s.hoop.h1.badCnt then
          (s.setF HOOP_STATUS_H1STATE h1Acquire).evtHoop HOOP_EVT_H1LOCKLOSS
        else s

/-- R58. One tick of the SET ramp: the step moves towards FSET at RAMP Hz/s, at once with RAMP = 0. -/
def State.h1Ramp (s : State) : State :=
  if s.fld HOOP_CTRL_H1MODE = 1 then
    let tgt := stepOf (s.fld HOOP_H1CFG_FSET)
    let cur := s.hoop.h1.step
    if cur = tgt then s
    else if s.fld HOOP_H1CFG_RAMP = 0 then s.updH1 (fun l => { l with step := tgt })
    else
      let f := s.hoop.rampFrac + s.fld HOOP_H1CFG_RAMP * 2 ^ 66
      let d := f / 1000000000000000000
      let s := s.updHoop (fun h => { h with rampFrac := f % 1000000000000000000 })
      s.updH1 (fun l => { l with step := if cur < tgt then min (cur + d) tgt else max (cur - d) tgt })
  else s

/-! ### The tick -/

/-- R48, R49. The accumulator advances by its step; a passing of zero is one from the upper half to the lower. -/
def LoopSt.advance (l : LoopSt) : LoopSt :=
  let a := (l.acc + l.step) % 2 ^ 64
  { l with acc := a, crossed := l.crossed || (decide (2 ^ 63 ≤ l.acc) && decide (a < 2 ^ 63)) }

/-- R48, R49. One tick of both accumulators. -/
def State.hoopTick (s : State) : State := (s.h1Ramp).updHoop (fun h => { h with h0 := h.h0.advance, h1 := h.h1.advance })

end Sys2Proof.Machine
end

