-- ==== Sys2Proof/Machine/Pricking.lean ====
section
/-!
DEFINITION. The Pricking scheduler as shared operations: entries and pages, edit operations, swaps, conversion passes,
the execution queue and its dispatch, and the treatment of network time steps (R68–R85).
-/

namespace Sys2Proof.Machine

/-! ### Entries (R68) -/

def entSrc (e : BitVec 128) : Nat := bitsOf e.toNat 126 2
def entAction (e : BitVec 128) : Nat := bitsOf e.toNat 120 6
def entAngle (e : BitVec 128) : Nat := bitsOf e.toNat 88 32
def entOffset (e : BitVec 128) : Int := toSigned 24 (bitsOf e.toNat 64 24)
def entTarget (e : BitVec 128) : Nat := bitsOf e.toNat 48 16
def entDiv (e : BitVec 128) : Nat := bitsOf e.toNat 32 16
def entArg (e : BitVec 128) : Nat := bitsOf e.toNat 0 32

/-- R72. Whether entry `a` sorts before or with `b`: by SRC, then ANGLE. -/
def entLe (a b : BitVec 128) : Bool :=
  decide (entSrc a * 2 ^ 32 + entAngle a ≤ entSrc b * 2 ^ 32 + entAngle b)

/-- R72, R73. An entry put after every entry that sorts before or with it; the index where it stands. -/
def entInsert (e : BitVec 128) : List (BitVec 128) → List (BitVec 128) × Nat
  | [] => ([e], 0)
  | x :: t => if entLe x e then let r := entInsert e t; (x :: r.1, r.2 + 1) else (e :: x :: t, 0)

/-- R72, R73. A page sorted; entries with equal keys keep their order. -/
def entSort (l : List (BitVec 128)) : List (BitVec 128) := l.foldl (fun acc e => (entInsert e acc).1) []

/-- R70. Whether an entry is a CYCLE_START. -/
def entIsCycle (e : BitVec 128) : Bool := entSrc e != 3 && entAction e == 0x01

/-! ### Pages (R71) -/

/-- R71. Pages of the current mode, and entries of a page. -/
def State.prkPages (s : State) : Nat := 2 ^ s.fld PRK_CTRL_MODE
def State.prkSize (s : State) : Nat := 16384 / s.prkPages

/-- R72. The entries of a page. -/
def State.prkPage (s : State) (p : Nat) : List (BitVec 128) :=
  (upto (s.fld (PRK_PG_COUNT p))).map (fun i => tget 0#128 s.prk.tab (p * s.prkSize + i))

/-- Stores a list in a table from an index on. -/
def tabStore (t : List (Nat × BitVec 128)) (i : Nat) : List (BitVec 128) → List (Nat × BitVec 128)
  | [] => t
  | e :: l => tabStore (tput 0#128 t i e) (i + 1) l

/-- The state with the entries of a page replaced, and its COUNT. -/
def State.setPage (s : State) (p : Nat) (l : List (BitVec 128)) : State :=
  let b := p * s.prkSize
  let size := s.prkSize
  (s.updPrk (fun k => { k with tab := tabStore (k.tab.filter (fun e => e.1 < b || b + size ≤ e.1)) b l })).setF (PRK_PG_COUNT p) l.length
    |>.eccMeet 7 p

/-- R71. The scheduler runs and this page is the active one. -/
def State.prkActive (s : State) (p : Nat) : Bool := s.bit PRK_CTRL_EN && s.fld PRK_STATUS_ACTIVE == p

/-- R74. Edit and swap status codes. -/
def prkOk : Nat := 0x00
def prkFull : Nat := 0x01
def prkActiveErr : Nat := 0x02
def prkIndex : Nat := 0x03
def prkInvalid : Nat := 0x04
def prkNotReady : Nat := 0x05
def prkMode : Nat := 0x07

/-! ### Swap (R76) -/

/-- R76. The swap registers follow the pending swap. -/
def State.updSwap (s : State) (w : Option (Nat × Nat)) : State :=
  let s := (s.updPrk (fun k => { k with swap := w })).setB PRK_STATUS_SWAP_PEND w.isSome
  match w with
  | some x => s.setF PRK_STATUS_SWAP_TGT x.1
  | none => s.setF PRK_STATUS_SWAP_TGT 0

/-- R502. The PRK_SWAP ring commands that wait end with a status and a result. -/
def State.swapCmdEnd (s : State) (status result : Nat) : State :=
  let done := s.hif.swapCmds
  let s := s.updHif (fun h => { h with swapCmds := [] })
  forL done (fun w t => t.finish ⟨w.1, w.2.1, w.2.2.1, w.2.2.2, status, result⟩) s

/-- R500, R502. The completion status of a command whose swap is cancelled. -/
def stAborted : Nat := 0x14

/-- R76. An edit that clears READY on the pending target cancels the swap. -/
def State.unready (s : State) (p : Nat) : State :=
  let s := s.setB (PRK_PG_READY p) false
  match s.prk.swap with
  | some w => if w.1 = p then (s.updSwap none).swapCmdEnd stAborted 0 else s
  | none => s

/-- R77. H0 starts at turn 0: a pending swap waits for its first zero, which comes one turn later. -/
def State.swapRestart (s : State) : State :=
  match s.prk.swap with
  | some w => s.updSwap (some (w.1, 1))
  | none => s

/-- R77. The turn at whose H0 angle zero a swap armed now takes effect: the next zero not yet converted. -/
def State.swapZero (s : State) : Nat :=
  let next := (s.rdN HOOP_H0TURNS + 1) % 2 ^ 32
  if 0 < toSigned 32 (s.prk.convTurn + 2 ^ 32 - s.rdN HOOP_H0TURNS) then (s.prk.convTurn + 1) % 2 ^ 32 else next

/-- R74, R76. A swap request: status, and the swap armed if it is accepted. The rules name no condition on PRK_CTRL.EN, so a
request is accepted with EN = 0 too (log entry 57). -/
def State.swapRequest (s : State) (p : Nat) : State × Nat :=
  if s.prkPages ≤ p then (s, prkMode)
  else if s.fld PRK_STATUS_ACTIVE = p then (s, prkActiveErr)
  else if !s.bit (PRK_PG_READY p) then (s, prkNotReady)
  else (s.updSwap (some (p, s.swapZero)), prkOk)

/-- R76, R89. A swap request: its status is in PRK_EDSTAT too. -/
def State.swapReq (s : State) (p : Nat) : State × Nat :=
  let r := s.swapRequest p
  (r.1.setF PRK_EDSTAT_STATUS r.2, r.2)

/-! ### Editing (R73, R74) -/

/-- R74. Whether COMMIT finds an entry invalid by itself. -/
def State.entInvalid (s : State) (e : BitVec 128) : Bool :=
  let a := entAction e
  let cell := entTarget e % 256
  entSrc e != 3 &&
    ((a == 0 || decide (0x0E < a)) ||
      (entSrc e == 2 && decide (1000000000 ≤ entAngle e)) ||
      (a == 0x01 && (entSrc e != 0 || entOffset e != 0 || decide (1 < entDiv e))) ||
      (a == 0x06 && entSrc e != 2) ||
      (a == 0x04 && ((decide (0xBF < cell) && decide (cell < 0xFE)) || (cell == 0xFE && decide (23 < bitsOf (entTarget e) 8 5)))) ||
      (a == 0x0D && decide (s.prkPages ≤ entTarget e % 4)))

/-- R74, R75. The CYCLE_START angles of a page. -/
def cycleAngles (l : List (BitVec 128)) : List Nat := (l.filter entIsCycle).map entAngle

/-- The first index at which a test holds. -/
def firstIdx (p : BitVec 128 → Bool) : List (BitVec 128) → Nat → Option Nat
  | [], _ => none
  | e :: t, i => if p e then some i else firstIdx p t (i + 1)

/-- R74. The index at which COMMIT finds the page invalid: the first invalid entry, and while CTRL_RUN is 1 the first
CYCLE_START that the active page lacks, or COUNT where the page lacks one of the active page. -/
def State.commitCheck (s : State) (l : List (BitVec 128)) : Option Nat :=
  match firstIdx s.entInvalid l 0 with
  | some i => some i
  | none =>
    if s.bit GLB_STATUS_CTRL_RUN then
      let act := cycleAngles (s.prkPage (s.fld PRK_STATUS_ACTIVE))
      match firstIdx (fun e => entIsCycle e && !act.contains (entAngle e)) l 0 with
      | some i => some i
      | none => if act.all (fun a => (cycleAngles l).contains a) then none else some l.length
    else none

/-- The result of an edit operation; `ticks` is its duration where R502 gives one. -/
structure EdRes where
  st : State
  status : Nat
  ticks : Nat := 0
  idx : Option Nat := none
  data : Option (BitVec 128) := none

/-- R73. An operation on an inactive page of the current mode. -/
def State.prkEdit (s : State) (p : Nat) (op : List (BitVec 128) → EdRes) : EdRes :=
  if s.prkPages ≤ p then { st := s, status := prkMode }
  else if s.prkActive p then { st := s, status := prkActiveErr }
  else op (s.prkPage p)

/-- R73. READ: an index from COUNT up to the page size reads 0 in all words. -/
def State.prkRead (s : State) (p i : Nat) : EdRes :=
  if s.prkPages ≤ p then { st := s, status := prkMode }
  else if s.prkSize ≤ i then { st := s, status := prkIndex }
  else { st := s, status := prkOk, data := some ((s.prkPage p).getD i 0#128) }

/-- R73. WRITE. -/
def State.prkWrite (s : State) (p i : Nat) (e : BitVec 128) : EdRes :=
  s.prkEdit p (fun l => if i < l.length then { st := (s.setPage p (l.set i e)).unready p, status := prkOk }
    else { st := s, status := prkIndex })

/-- R73. INSERT. -/
def State.prkInsert (s : State) (p : Nat) (e : BitVec 128) : EdRes :=
  s.prkEdit p (fun l =>
    if s.prkSize ≤ l.length then { st := s, status := prkFull }
    else
      let r := entInsert e l
      { st := (s.setPage p r.1).unready p, status := prkOk, idx := some r.2, ticks := 20 + (l.length - r.2) })

/-- R73. DELETE. -/
def State.prkDelete (s : State) (p i : Nat) : EdRes :=
  s.prkEdit p (fun l => if i < l.length then { st := (s.setPage p (l.eraseIdx i)).unready p, status := prkOk, ticks := 20 + (l.length - i - 1) }
    else { st := s, status := prkIndex })

/-- R73. CLEAR. -/
def State.prkClear (s : State) (p : Nat) : EdRes :=
  s.prkEdit p (fun _ => { st := (s.setPage p []).unready p, status := prkOk })

/-- R73, R74. COMMIT. One that fails clears READY of a page that had it, and cancels a swap to it (log entry 57). -/
def State.prkCommit (s : State) (p : Nat) : EdRes :=
  s.prkEdit p (fun l =>
    let l := entSort l
    let s := s.setPage p l
    match s.commitCheck l with
    | some i => { st := s.unready p, status := prkInvalid, idx := some i }
    | none => { st := s.setB (PRK_PG_READY p) true, status := prkOk })

/-- R73. EDDATA as an entry. -/
def State.edData (s : State) : BitVec 128 := s.rd (PRK_EDDATA 3) ++ s.rd (PRK_EDDATA 2) ++ s.rd (PRK_EDDATA 1) ++ s.rd (PRK_EDDATA 0)

/-- R73, R502. A command holds the edit port, with BUSY: for the ticks that R502 gives it, else until its completion comes. -/
def State.portHold (s : State) (status : Nat) (idx : Option Nat) (data : Option (BitVec 128)) (ticks : Nat) : State :=
  let s := (s.updPrk (fun k => { k with edit := some ⟨status, idx, data, s.tick + ticks⟩ })).setB PRK_EDSTAT_BUSY true
  if ticks = 0 then s else s.sched ticks .prkEditComplete

/-- R73. A command at the edit port: BUSY until it completes, or LOST while another executes. -/
def State.edPort (s : State) (op : State → EdRes) : State :=
  if s.bit PRK_EDSTAT_BUSY then s.setB PRK_EDSTAT_LOST true
  else
    let r := op s
    r.st.portHold r.status r.idx r.data r.ticks

/-- R500, R501. The ring's command that held the edit port completes with it. -/
def State.portDone (s : State) : State :=
  match s.hif.portCmd with
  | some x => (s.updHif (fun h => { h with portCmd := none })).finish x
  | none => s

/-- R73, R74. The command at the edit port completes. -/
def State.edComplete (s : State) : State :=
  match s.prk.edit with
  | none => s
  | some d =>
    if s.tick < d.due then s else
    let s := ((s.updPrk (fun k => { k with edit := none })).setB PRK_EDSTAT_BUSY false).setF PRK_EDSTAT_STATUS d.status
    let s := s.portDone
    let s := match d.idx with
      | some i => s.setF PRK_EDIDX_IDX i
      | none => s
    match d.data with
    | some e => forN 4 (fun k t => t.wrN (PRK_EDDATA k) (bitsOf e.toNat (32 * k) 32)) s
    | none => s

/-! ### Sources of angles (R60, R69, R78) -/

/-- The turn count, angle, modulus and step of a source: H0, H1, T. -/
def State.srcTurn (s : State) (src : Nat) : Nat :=
  if src = 0 then s.rdN HOOP_H0TURNS else if src = 1 then s.rdN HOOP_H1TURNS else s.ntm.sec
def State.srcAng (s : State) (src : Nat) : Nat := if src = 0 then s.h0Ang else if src = 1 then s.h1Ang else s.ntm.ns
def srcMod (src : Nat) : Nat := if src = 2 then 1000000000 else 2 ^ 32
def State.ntmInc (s : State) : Nat := bitsOf (s.rdN NTM_INC_HI) 0 2 * 2 ^ 32 + s.rdN NTM_INC_LO
def State.srcStep (s : State) (src : Nat) : Nat :=
  if src = 0 then (if s.bit HOOP_CTRL_H0EN then s.hoop.h0.step else 0) else if src = 1 then s.hoop.h1.step else s.ntmInc

/-- R69. A turn of a source relative to its present turn. -/
def State.relTurn (s : State) (src turn : Nat) : Int :=
  if src = 2 then (turn : Int) - s.ntm.sec else toSigned 32 (turn + 2 ^ 32 - s.srcTurn src)

/-- R11. How far a source is from an angle of a turn. -/
def State.srcDist (s : State) (src turn ang : Nat) : Int :=
  s.relTurn src turn * srcMod src + ang - s.srcAng src

/-- Rounds a quotient to the nearest integer. -/
def roundDiv (a : Int) (b : Nat) : Int := (2 * a + b) / (2 * b)

/-- R78. t_e of an entry at distance `d` from its source, seen at this tick. -/
def State.convTime (s : State) (src : Nat) (d off : Int) : Int :=
  s.tick + roundDiv (d * 2 ^ 33 + off * s.srcStep src) (2 * s.srcStep src)

/-! ### The queue (R78–R80) -/

/-- R87. QLEVEL follows the queue. -/
def State.setQueue (s : State) (q : List QAct) : State :=
  (s.updPrk (fun k => { k with queue := q })).setF PRK_STATUS_QLEVEL q.length

/-- The order of dispatch: t_e, then SRC, then page index (R81). -/
def qLt (a b : QAct) : Bool :=
  decide (a.at_ < b.at_) || (a.at_ == b.at_ && (decide (entSrc a.entry < entSrc b.entry) ||
    (entSrc a.entry == entSrc b.entry && decide (a.idx < b.idx))))

/-- The queue with an action in its place. -/
def qInsert (a : QAct) : List QAct → List QAct
  | [] => [a]
  | x :: t => if qLt a x then a :: x :: t else x :: qInsert a t

/-- R80. A late action: dispatched at once, counted in PRK_LATE, an event of source 0x5C. -/
def State.prkLate (s : State) (page : Nat) : State := (s.count PRK_LATE).raise 0x5C page

/-- How a conversion treats a time that is not ahead: late by R80, or in the interval of the last `skip` ticks that a time
step skipped (R83). -/
inductive ConvMode where
  | pass
  | step (skip : Nat)

/-- R78, R80, R83. Whether a converted time is dispatched at once, and whether it then counts as late. -/
def ConvMode.late (now : Nat) (t : Int) : ConvMode → Bool × Bool
  | .pass => (decide (t < now + 50), true)
  | .step skip => (decide (t ≤ now), decide (t ≤ (now : Int) - skip))

/-- R77. An entry of H0 in a turn has been converted. -/
def State.convSeen (s : State) (src turn : Nat) : State :=
  if src = 0 ∧ 0 < toSigned 32 (turn + 2 ^ 32 - s.prk.convTurn) then s.updPrk (fun k => { k with convTurn := turn }) else s

/-- R78, R80. Converts one entry into the queue, unless the DIV test skips it. The Bool is false where the queue is full. -/
def State.convOne (s : State) (mode : ConvMode) (page idx turn : Nat) (e : BitVec 128) : State × Bool :=
  if 2 ≤ entDiv e ∧ turn % entDiv e ≠ 0 then (s, true)
  else if 1024 ≤ s.prk.queue.length then (s, false)
  else
    let src := entSrc e
    let d := s.srcDist src turn (entAngle e)
    let t := s.convTime src d (entOffset e)
    let late := mode.late s.tick t
    let te := if late.1 then s.tick else t.toNat
    let s := if late.1 then (if late.2 then s.prkLate page else s.count PRK_STEPEVT) else s
    ((s.convSeen src turn).setQueue (qInsert ⟨e, page, idx, turn, t, te, decide (d ≤ 0), false⟩ s.prk.queue), true)

/-- The entries of a source in a page, with their indices. -/
def srcEntries (src : Nat) (l : List (BitVec 128)) : List (Nat × BitVec 128) :=
  ((upto l.length).zip l).filter (fun e => entSrc e.2 == src)

/-- A candidate of a walk: turn, page, index, entry. -/
structure Cand where
  turn : Nat
  page : Nat
  idx : Nat
  entry : BitVec 128

/-- The entries of a page not yet converted whose ANGLE lies within `lim` of the source's angle. -/
def State.walkCands (s : State) (src page : Nat) (lim : Int) : List Cand :=
  let w := tget {} s.prk.walks src
  let l := srcEntries src (s.prkPage page)
  let from_ := s.relTurn src w.turn
  let to_ := (s.srcAng src + lim) / srcMod src
  (upto (to_ - from_ + 1).toNat).flatMap (fun k =>
    let turn := if src = 2 then w.turn + k else (w.turn + k) % 2 ^ 32
    (l.filter (fun e =>
      (k != 0 || decide (w.ang < entAngle e.2) || (w.ang == entAngle e.2 && decide (w.next ≤ e.1))) &&
        decide (s.srcDist src turn (entAngle e.2) ≤ lim))).map (fun e => ⟨turn, page, e.1, e.2⟩))

/-- The walk of a source has come to a place. -/
def State.setWalk (s : State) (src : Nat) (w : Walk) : State :=
  s.updPrk (fun k => { k with walks := tput {} k.walks src w })

/-- R80. Converts candidates in order; at a full queue the walk rests at the first that is not converted. -/
def State.convList (mode : ConvMode) : List Cand → State → State × Bool
  | [], s => (s, true)
  | c :: t, s =>
    let r := s.convOne mode c.page c.idx c.turn c.entry
    if r.2 then State.convList mode t r.1
    else (r.1.setWalk (entSrc c.entry) ⟨c.turn, entAngle c.entry, c.idx⟩, false)

/-- The place `d` ahead of a source: everything up to it is converted. -/
def State.walkAt (s : State) (src : Nat) (d : Int) : Walk :=
  let p := (s.srcAng src : Int) + d
  let r := p / srcMod src
  let turn := ((s.srcTurn src : Int) + r) % (if src = 2 then 2 ^ 48 else 2 ^ 32)
  ⟨turn.toNat, (p % srcMod src).toNat, 16384⟩

/-- R78. The walk of a source after a pass that converted everything up to a place: it never moves back. -/
def State.walkOn (s : State) (src : Nat) (w : Walk) : Walk :=
  let cur := tget {} s.prk.walks src
  let place (x : Walk) : Int := (s.relTurn src x.turn * srcMod src + x.ang) * 2 ^ 15 + x.next
  if place w < place cur then cur else w

/-- R71. The walk of a source starts at the first entry after its current angle. -/
def State.walkHere (s : State) (src : Nat) : State := s.setWalk src (s.walkAt src 0)

/-- R78. The distance a source moves in `ticks`. -/
def State.srcAhead (s : State) (src ticks : Nat) : Int := s.srcStep src * ticks / 2 ^ 32

/-- R77, R78. Converts one source: with a swap pending, entries of H0 from the zero on come from the new page, and entries
of H1 and T whose time is at or after that zero. -/
def State.convSrc (s : State) (lh src : Nat) : State × Bool :=
  if s.srcStep src = 0 then (s, true)
  else
    let lim := s.srcAhead src lh
    let act := s.fld PRK_STATUS_ACTIVE
    let cands := match s.prk.swap with
      | none => s.walkCands src act lim
      | some (new, z) =>
        if src = 0 then
          (s.walkCands 0 act lim).filter (fun c => decide (s.relTurn 0 c.turn < s.relTurn 0 z)) ++
            (s.walkCands 0 new lim).filter (fun c => decide (s.relTurn 0 z ≤ s.relTurn 0 c.turn))
        else if s.srcStep 0 = 0 then s.walkCands src act lim
        else
          let tz := s.convTime 0 (s.srcDist 0 z 0) 0
          let time (c : Cand) : Int := s.convTime src (s.srcDist src c.turn (entAngle c.entry)) (entOffset c.entry)
          (s.walkCands src act lim).filter (fun c => decide (time c < tz)) ++
            (s.walkCands src new lim).filter (fun c => decide (tz ≤ time c))
    let w := s.walkOn src (s.walkAt src lim)
    let r := State.convList .pass cands s
    if r.2 then (r.1.setWalk src w, true) else r

/-- R11, R79. The turn in which a held action's ANGLE comes: the one whose distance, read as a signed angle, is meant. -/
def State.heldTurn (s : State) (a : QAct) : Nat :=
  let src := entSrc a.entry
  let p : Int := s.srcAng src + toSigned 32 (entAngle a.entry + 2 ^ 32 - s.srcAng src % 2 ^ 32)
  (((s.srcTurn src : Int) + p / 2 ^ 32) % 2 ^ 32).toNat

/-- R79. One queued action at a pass: it may be crossed, held, or converted again. The actions of H0 that are queued when
H0 returns to OFF are held like those of H1 at step 0 (log entry 57). -/
def State.reconv (s : State) (a : QAct) : QAct × Bool :=
  let src := entSrc a.entry
  let a := if a.held && src != 2 && s.srcStep src != 0 then { a with turn := s.heldTurn a } else a
  let d := s.srcDist src a.turn (entAngle a.entry)
  if a.crossed then (a, false)
  else if s.srcStep src = 0 then ({ a with held := true }, false)
  else if !a.held && decide (d ≤ 0) then ({ a with crossed := true }, false)
  else if a.held || decide (s.tick + 1000 < a.te) then
    let t := s.convTime src d (entOffset a.entry)
    let late := decide (t < s.tick + 50)
    ({ a with at_ := t, te := if late then s.tick else t.toNat, held := false, crossed := decide (d ≤ 0) }, late)
  else (a, false)

/-- R79. Every queued action at a pass. -/
def State.reconvAll (s : State) : State :=
  let rs := s.prk.queue.map s.reconv
  let s := forL (rs.filter (·.2)) (fun r t => t.prkLate r.1.page) s
  s.setQueue (rs.foldl (fun q r => qInsert r.1 q) [])

/-- R78. A conversion pass, with a control cycle of `t` ticks. -/
def State.prkPass (s : State) (t : Nat) : State :=
  if s.bit PRK_CTRL_EN then
    let lh := max (us (s.fld PRK_HORIZON_HORIZON)) (t + us 4)
    let s := s.reconvAll
    let r := s.convSrc lh 0
    let s := if s.srcStep 0 = 0 || !r.2 then r.1
      else r.1.updPrk (fun k => { k with convTurn := (s.walkAt 0 (s.srcAhead 0 lh)).turn })
    let r := if r.2 then (let q := s.convSrc lh 1; if q.2 then q.1.convSrc lh 2 else q) else (s, false)
    if r.2 then r.1 else (r.1.count PRK_QFULL).raise 0x5D (r.1.fld PRK_STATUS_ACTIVE)
  else s

/-! ### Dispatch (R70, R81) -/

/-- R70. The step that an action is dispatched as. -/
def QAct.instr (a : QAct) : Option Instr :=
  let t := entTarget a.entry
  let g := entArg a.entry
  let page : Fin 4 := ⟨a.page % 4, Nat.mod_lt _ (by decide)⟩
  match entAction a.entry with
  | 0x01 => some .cycleStart
  | 0x02 => some (.adcSeqTrig (BitVec.ofNat 2 t))
  | 0x03 => some (.taskWake (BitVec.ofNat 16 t) (BitVec.ofNat 32 g))
  | 0x04 => some (.cellSnapshot (BitVec.ofNat 16 t) (BitVec.ofNat 7 g))
  | 0x05 => some (.twArm (BitVec.ofNat 4 t) (BitVec.ofNat 32 g))
  | 0x06 => some (.phuAlign (BitVec.ofNat 12 t))
  | 0x07 => some (.ageProbe (BitVec.ofNat 16 t) (BitVec.ofNat 32 g))
  | 0x08 => some (.rotatePoint (BitVec.ofNat 3 t))
  | 0x09 => some (.pwmCommit (BitVec.ofNat 12 t))
  | 0x0A => some (.gpioSet ⟨t % 16, Nat.mod_lt _ (by decide)⟩)
  | 0x0B => some (.gpioClr ⟨t % 16, Nat.mod_lt _ (by decide)⟩)
  | 0x0C => some (.mark page (BitVec.ofNat 14 a.idx) (BitVec.ofNat 32 g))
  | 0x0D => some (.pageSwap ⟨t % 4, Nat.mod_lt _ (by decide)⟩)
  | 0x0E => some .handoverPoint
  | _ => none

/-- R79. At step 0 an action whose angle has not been crossed is held; a crossing is seen at once. -/
def State.qSee (s : State) (a : QAct) : QAct :=
  let src := entSrc a.entry
  if a.crossed then a
  else if s.srcStep src = 0 then { a with held := true }
  else if !a.held && decide (s.srcDist src a.turn (entAngle a.entry) ≤ 0) then { a with crossed := true }
  else a

/-- R81. Whether an action can be dispatched at this tick, spacing apart. -/
def State.qDue (s : State) (a : QAct) : Bool := decide (a.te ≤ s.tick) && !a.held

/-- R81. Whether the spacing of 4 ticks permits a dispatch. -/
def State.dispFree (s : State) : Bool :=
  match s.prk.lastDisp with
  | none => true
  | some t => decide (t + 4 ≤ s.tick)

/-- R91. DLYMAX after a dispatch that was held `d` ticks. -/
def State.holdSeen (s : State) (d : Nat) : State :=
  if s.fld PRK_DLYMAX_MAX < d then s.setF PRK_DLYMAX_MAX (min d 65535) else s

/-- R81. What Pricking dispatches at this tick: every CYCLE_START that is due, and at most one other action. -/
def State.prkDispatch (s : State) : State × List Instr :=
  if s.prk.queue.isEmpty then (s, [])
  else
    let q := s.prk.queue.map s.qSee
    let cyc := q.filter (fun a => s.qDue a && entIsCycle a.entry)
    let q := q.filter (fun a => !(s.qDue a && entIsCycle a.entry))
    match if s.dispFree then q.find? s.qDue else none with
    | none => ((if q = s.prk.queue then s else s.setQueue q), cyc.filterMap QAct.instr)
    | some a =>
      let s := (s.setQueue (q.erase a)).updPrk (fun k => { k with lastDisp := some s.tick })
      (s.holdSeen (s.tick - a.te), cyc.filterMap QAct.instr ++ [a].filterMap QAct.instr)

/-! ### Start, stop and reset (R71, R85) -/

/-- R78. PASSMODE, and the next pass 20.0 µs on while control cycles do not run. -/
def State.passTimer (s : State) : State := (s.unsched (· == .prickingPass)).sched 10000 .prickingPass

/-- The length of a pass period without control cycles (R78). -/
def passTicks : Nat := 10000

/-- R71. The scheduler starts on page INIT, with every walk at the first entry after its source's angle. -/
def State.prkStart (s : State) : State :=
  let s := (s.setB PRK_CTRL_EN true).setF PRK_STATUS_ACTIVE (s.fld PRK_CTRL_INIT)
  let s := (s.setB PRK_STATUS_RUNNING true).setB PRK_STATUS_PASSMODE (!s.bit GLB_STATUS_CTRL_RUN)
  let s := s.updPrk (fun k => { k with convTurn := s.rdN HOOP_H0TURNS })
  (((s.walkHere 0).walkHere 1).walkHere 2).passTimer.prkPass passTicks

/-- R71. The scheduler stops: queue emptied, swap cancelled, walks discarded. -/
def State.prkStop (s : State) : State :=
  let s := ((s.setB PRK_CTRL_EN false).setB PRK_STATUS_RUNNING false).setB PRK_STATUS_PASSMODE false
  let s := (((s.setQueue []).updSwap none).unsched (· == .prickingPass)).swapCmdEnd stAborted 0
  s.updPrk (fun k => { k with walks := [], lastDisp := none })

/-- R85. A warm or watchdog reset: queue emptied, swap cancelled; with EN = 1 the scheduler resumes at once. -/
def State.prkWarm (s : State) : State :=
  let s := ((s.setQueue []).updSwap none).swapCmdEnd stAborted 0
  let s := s.updPrk (fun k => { k with walks := [], lastDisp := none, convTurn := s.rdN HOOP_H0TURNS })
  if s.bit PRK_CTRL_EN then
    ((((s.walkHere 0).walkHere 1).walkHere 2).setB PRK_STATUS_PASSMODE true).passTimer.prkPass passTicks
  else s

/-- R77. The pending swap takes effect: the new page is active, the old one editable. -/
def State.swapEffect (s : State) : State :=
  match s.prk.swap with
  | none => s
  | some (p, z) =>
    if s.rdN HOOP_H0TURNS = z then
      let s := (s.setF PRK_STATUS_ACTIVE p).incr PRK_SWAPCNT
      (s.updSwap none).swapCmdEnd prkOk (s.rdN PRK_SWAPCNT)
    else s

/-- R59. H1 actions whose angle is not crossed leave the queue, and the walk of H1 restarts. -/
def State.prkH1Restart (s : State) : State :=
  (s.setQueue (s.prk.queue.filter (fun a => !(entSrc a.entry == 1 && !(s.qSee a).crossed)))).walkHere 1

/-! ### Network time steps (R83) -/

/-- R83. The T entries not yet converted whose ANGLE lies within `lim` of the new time. -/
def State.skipCands (s : State) (lim : Int) : List Cand := s.walkCands 2 (s.fld PRK_STATUS_ACTIVE) lim

/-- R83. How far ahead of the new time the ANGLE of an entry may lie whose instant was skipped: a negative OFFSET takes it
back. -/
def State.skipReach (s : State) : Int :=
  ((s.skipCands 8388608).filter (fun c =>
    decide (s.convTime 2 (s.srcDist 2 c.turn (entAngle c.entry)) (entOffset c.entry) ≤ s.tick))).foldl
      (fun m c => max m (s.srcDist 2 c.turn (entAngle c.entry))) 0

/-- R83, R96. T entries after a step of the network clock from (`sec`, `ns`, `frac`), which is read before the step. The
exact difference decides. -/
def State.prkTimeStep (s : State) (sec ns frac : Nat) : State :=
  if s.bit PRK_CTRL_EN then
    let d : Int := (((s.ntm.sec : Int) - sec) * 1000000000 + s.ntm.ns - ns) * 2 ^ 32 + s.ntm.frac - frac
    let seen := s.prk.queue.map (fun a =>
      if entSrc a.entry == 2 && !a.crossed &&
          decide (((a.turn : Int) - sec) * 1000000000 + entAngle a.entry - ns ≤ 0) then { a with crossed := true } else a)
    if 1000000000 * 2 ^ 32 ≤ d.natAbs then
      ((s.setQueue (seen.filter (fun a => entSrc a.entry != 2 || a.crossed))).walkHere 2).count PRK_STEPEVT
    else
      let rs := seen.map (fun a =>
        if entSrc a.entry == 2 && !a.crossed then
          let dist := s.srcDist 2 a.turn (entAngle a.entry)
          let t := s.convTime 2 dist (entOffset a.entry)
          if t ≤ s.tick then ({ a with at_ := t, te := s.tick, crossed := true }, true) else ({ a with at_ := t, te := t.toNat }, false)
        else (a, false))
      let s := s.countN PRK_STEPEVT (rs.filter (·.2)).length
      let s := s.setQueue (rs.foldl (fun q r => qInsert r.1 q) [])
      if 0 < d then
        let r := State.convList (.step (d / 2 ^ 33 + 1).toNat) (s.skipCands (max 0 s.skipReach)) s
        if r.2 then r.1.setWalk 2 (s.walkOn 2 (s.walkAt 2 (max 0 s.skipReach)))
        else (r.1.count PRK_QFULL).raise 0x5D (r.1.fld PRK_STATUS_ACTIVE)
      else s
  else s

end Sys2Proof.Machine
end

