-- ==== Sys2Proof/Machine/Cells.lean ====
section
/-!
DEFINITION. The cell table and the cells' phases as shared operations (R170, R209, R238, R254–R257), the latch of the
Stitch references (R164–R169), and the window of an edge set with the projection of H0 angles to cell time (R161, R183).
-/

namespace Sys2Proof.Machine

/-! ### The cell table (R254–R257) -/

/-- R254. The upstream and the downstream image of a cell. -/
def cellUp (id : Nat) : Nat := 0x30000000 + id * 0x80
def cellDn (id : Nat) : Nat := 0x30000040 + id * 0x80

/-- R257. The cell map entry of a cell. -/
def cellMap (id : Nat) : Nat := 0x30008000 + id * 0x20

/-- A field of the upstream image: offset and length in bytes. -/
def State.up (s : State) (id off n : Nat) : Nat := s.memN (cellUp id + off) n

/-- The state with a field of the upstream image written. -/
def State.setUp (s : State) (id off n v : Nat) : State := s.setMemN (cellUp id + off) n v

/-- R238. The codes of CSTAT. -/
def csAbsent : Nat := 0
def csFound : Nat := 1
def csHeld : Nat := 2
def csAdmitted : Nat := 3
def csExcess : Nat := 4
def csLost : Nat := 5
def csBypassed : Nat := 6
def csUnmapped : Nat := 7

/-- R255. CSTAT of a cell. -/
def State.cstat (s : State) (id : Nat) : Nat := s.up id 0x3C 1
def State.admitted (s : State) (id : Nat) : Bool := s.cstat id == csAdmitted

/-- R192. The phase of a cell's chain; 3 for none. -/
def State.phaseOf (s : State) (id : Nat) : Nat :=
  let c := id / 8
  if c < 16 then bitsOf (s.rdN STCH_CHPH0) (2 * c) 2 else bitsOf (s.rdN STCH_CHPH1) (2 * (c - 16)) 2

/-- R170. Whether a cell participates in the modulation of phase `p`. -/
def State.participates (s : State) (p id : Nat) : Bool :=
  s.rbit STCH_CTRL p && s.phaseOf id == p && s.admitted id && s.rbit (STCH_CELLEN (id / 32)) (id % 32) &&
    !s.rbit (FLT_CBYP (id / 32)) (id % 32) && !s.bit SELV_STATUS_STACK

/-- R170. The participating cells of a phase, by rising ID. -/
def State.members (s : State) (p : Nat) : List Nat := (upto 192).filter (s.participates p)

/-! ### Reference tables (R164–R169) -/

/-- R164. The cell reference record, the phase reference record and the cell configuration word, and the latched copies. -/
def cellRef (id : Nat) : Nat := 0x30010000 + id * 0x10
def phaseRef (p : Nat) : Nat := 0x30010C00 + p * 0x10
def cellCfg (id : Nat) : Nat := 0x30011000 + id * 4
def cellLat (id : Nat) : Nat := 0x30012000 + id * 0x10
def phaseLat (p : Nat) : Nat := 0x30012C00 + p * 0x10

/-- R168, R169. The latch of one pair; `inst` is the cell, or 0xFF. -/
def State.latchPair (s : State) (src dst inst : Nat) : State :=
  if s.uncorr src 2 then (s.count STCH_DISCARD).evt STCH_EVT_DISCARD 0x68 inst
  else
    let w0 := s.memN src 4
    let w1 := s.memN (src + 4) 4
    if w0 / 2 ^ 28 = w1 / 2 ^ 28 then
      if w0 / 2 ^ 28 = s.memN dst 4 / 2 ^ 28 then s else (s.setMemN dst 4 w0).setMemN (dst + 4) 4 w1
    else (s.count STCH_SPLIT).evt STCH_EVT_UPD_SPLIT 0x68 inst

/-- R168. The latch of every pair at REFS_DUE. -/
def State.latchRefs (s : State) : State :=
  let s := forN 192 (fun i t => (t.latchPair (cellRef i) (cellLat i) i).latchPair (cellRef i + 8) (cellLat i + 8) i) s
  forN 3 (fun p t => t.latchPair (phaseRef p) (phaseLat p) 0xFF) s

/-- R165. VREF and DABPS of the latched reference pair, HA and HPSI of the latched hold pair. -/
def State.vref (s : State) (id : Nat) : Int := toSigned 16 (s.memN (cellLat id) 2)
def State.dabps (s : State) (id : Nat) : Int := toSigned 16 (s.memN (cellLat id + 4) 2)
def State.holdAmp (s : State) (id : Nat) : Nat := s.memN (cellLat id + 8) 2
def State.holdPsi (s : State) (id : Nat) : Nat := bitsOf (s.memN (cellLat id + 12) 4) 12 16

/-- R166. LREF, LSLOPE, MI and PHOFS of the latched phase pair. -/
def State.lref (s : State) (p : Nat) : Int := toSigned 28 (s.memN (phaseLat p) 4)
def State.lslope (s : State) (p : Nat) : Int := toSigned 28 (s.memN (phaseLat p + 4) 4)
def State.modIdx (s : State) (p : Nat) : Nat := s.memN (phaseLat p) 2
def State.phofs (s : State) (p : Nat) : Nat := s.memN (phaseLat p + 4) 4 % 2 ^ 28 * 16

/-- R406. RDN_CTOFS in units of 2^-16 tick. -/
def State.ctofs (s : State) : Int :=
  toSigned 64 (s.rdN RDN_CTOFS_HI * 2 ^ 32 + s.rdN RDN_CTOFS_LO) * 65536 + (s.rdN RDN_CTOFS_FR % 65536 : Nat)

/-- R157, R406. Cell time in units of 2^-16 tick, `d` ticks from now. -/
def State.cellTimeAt (s : State) (d : Nat) : Int := ((s.tick + d) * 65536 : Nat) + s.ctofs

/-- R167. TRIM of a cell, in EU. -/
def State.trim (s : State) (id : Nat) : Int := toSigned 16 (s.memN (cellCfg id) 2)

/-! ### Windows and projection (R161, R183) -/

/-- R77. The page from which the entries of an H0 turn come. -/
def State.cyclePage (s : State) (turn : Nat) : Nat :=
  match s.prk.swap with
  | some (p, z) => if s.relTurn 0 z ≤ s.relTurn 0 turn then p else s.fld PRK_STATUS_ACTIVE
  | none => s.fld PRK_STATUS_ACTIVE

/-- The CYCLE_START angles of an H0 turn. -/
def State.turnAngles (s : State) (turn : Nat) : List Nat := cycleAngles (s.prkPage (s.cyclePage (turn % 2 ^ 32)))

/-- The smallest member of a list. -/
def minList (d : Nat) (l : List Nat) : Nat := l.foldl min d

/-- The next CYCLE_START angle after an absolute H0 angle (turn × 2^32 + angle word). -/
def State.nextCycle (s : State) (a : Nat) : Nat :=
  let turn := a / 2 ^ 32
  match (s.turnAngles turn).filter (fun x => decide (a % 2 ^ 32 < x)) with
  | x :: t => turn * 2 ^ 32 + minList x t
  | [] => (turn + 1) * 2 ^ 32 + minList (2 ^ 32 - 1) (s.turnAngles (turn + 1))

/-- The window of an edge set. Times are cell time in sixteenths of an EU (a tick is 128 of them, a nanosecond 64);
angles are absolute H0 angles. -/
structure Window where
  /-- R157, R406. The instant of the latch in cell time, H0's angle and step there. -/
  now : Rat
  u0 : Nat
  step : Nat
  /-- The angles and the instants of the start W and of the end, both rounded to the tick of cell time, and the exact length. -/
  thW : Nat
  thE : Nat
  w : Int
  wEnd : Int
  len : Rat
  /-- R157. The cell-time second in which SYNC leaves. -/
  sec : Nat
  /-- R159. GLB_CYCCNT modulo 16. -/
  dph : Nat
  /-- R182. MINPW. -/
  minpw : Int
deriving DecidableEq, Repr

/-- R60. A difference of absolute angles where HOOP_H0TURNS may have wrapped between them. -/
def wrapAng (d : Rat) : Rat :=
  if d < -((2 ^ 63 : Nat) : Rat) then d + ((2 ^ 64 : Nat) : Rat) else if ((2 ^ 63 : Nat) : Rat) < d then d - ((2 ^ 64 : Nat) : Rat) else d

/-- R183. The instant at which H0 passes an angle, from angle and step at the latch. -/
def Window.proj (w : Window) (th : Rat) : Rat := w.now + wrapAng (th - (w.u0 : Nat)) * ((2 ^ 39 : Nat) : Rat) / (w.step : Nat)

/-- The angle that H0 passes at an instant. -/
def Window.unproj (w : Window) (x : Rat) : Rat := (w.u0 : Nat) + (x - w.now) * (w.step : Nat) / ((2 ^ 39 : Nat) : Rat)

/-- R159. Rounds to the nearest integer, a half upwards. -/
def roundR (x : Rat) : Int := (x + 1 / 2).floor

/-- Rounds to the nearest tick. -/
def roundTick (x : Rat) : Int := roundR (x / 128) * 128

/-- R18, R21. Ticks from REFS_DUE to DOWN departure. -/
def downLead : Nat := 1500

/-- R161. The window of the set that a latch at this tick computes. -/
def State.window (s : State) : Window :=
  let u0 := s.rdN HOOP_H0TURNS * 2 ^ 32 + s.h0Ang
  let th1 := s.nextCycle u0
  let thW := if s.bit GLB_CYCCFG_PIPE then s.nextCycle th1 else th1
  let thE := s.nextCycle thW
  let w0 : Window :=
    { now := ((s.cellTimeAt 0 : Int) : Rat) / 512, u0 := u0, step := s.hoop.h0.step, thW := thW, thE := thE, w := 0, wEnd := 0
      len := ((thE - thW : Nat) : Rat) * ((2 ^ 39 : Nat) : Rat) / (s.hoop.h0.step : Nat)
      sec := (s.cellTimeAt downLead).toNat / (65536 * 500000000), dph := s.rdN GLB_CYCCNT % 16
      minpw := (min 10000 (bitsOf (s.rdN STCH_MINPW) 0 16)) * 64 }
  { w0 with w := roundTick (w0.proj (thW : Nat)), wEnd := roundTick (w0.proj (thE : Nat)) }

end Sys2Proof.Machine
end

