-- ==== Sys2Proof/Machine/Tatting.lean ====
section
/-!
DEFINITION. The Tatting sorter: keys, held keys, the order of each phase, the PSC offsets, and their publication
(R193–R208).
-/

namespace Sys2Proof.Machine

def State.tatPhase (s : State) (p : Nat) : TatPhase := tget {} s.tat.phases p
def State.updTatPhase (s : State) (p : Nat) (f : TatPhase → TatPhase) : State :=
  s.updTat (fun t => { t with phases := tput {} t.phases p (f (tget {} t.phases p)) })
def State.tatCell (s : State) (id : Nat) : TatCell := tget {} s.tat.cells id
def State.updTatCell (s : State) (id : Nat) (f : TatCell → TatCell) : State :=
  s.updTat (fun t => { t with cells := tput {} t.cells id (f (tget {} t.cells id)) })

/-- The sign of an integer as −1, 0 or 1. -/
def sgn (x : Int) : Int := if x < 0 then -1 else if 0 < x then 1 else 0

/-- R180. φ at an H0 angle, for a phase offset. -/
def phiOf (th ofs : Nat) : Nat := (th % 2 ^ 32 + 2 ^ 32 - ofs % 2 ^ 32) % 2 ^ 32

/-- R194. The current sample of a phase; none where the SAR entry carries RECOV or REFNS. -/
def State.phaseCurrent (s : State) (p : Nat) : Option Int :=
  if s.bit (TAT_ISRC_SAR p) then
    let r := s.rdN (if s.bit (TAT_ISRC_CONV p) then ADC_SEQ1_RES (s.fld (TAT_ISRC_ENT p)) else ADC_SEQ0_RES (s.fld (TAT_ISRC_ENT p)))
    if bitOf r 29 || bitOf r 28 then none else some (toSigned 16 r)
  else some (toSigned 16 (s.rdN (TAT_IPH p)))

/-- R194. The sign factor s of a phase for a window that starts at H0 angle `thW`; none where it keeps its value. -/
def State.signOf (s : State) (p thW : Nat) : Option Int :=
  (s.phaseCurrent p).map (fun i =>
    let sg := if i.natAbs < s.fld (TAT_ISRC_IDB p) then 0 else sgn i
    let mode := s.fld (STCH_PHCFG_MODE p)
    if mode = 1 then sg * sgn (s.lref p)
    else if mode = 2 then
      let q := tget {} s.stitch.phases p
      sg * (if phiOf thW (if q.we.isNone then s.phofs p else q.phofs) < 2 ^ 31 then 1 else -1)
    else sg)

/-- A natural number as a rational. -/
def rat (n : Nat) : Rat := n

/-- R195. The voltage error e of a cell, saturated to ±1. -/
def State.vErr (s : State) (p id : Nat) : Rat :=
  let vnom := rat (s.fld (TAT_VNOM_VNOM p))
  let e := (rat (s.up id 8 2) - vnom * (1 - rat (min 100 (s.tatCell id).derate) / 1000)) / vnom
  if e < -1 then -1 else if 1 < e then 1 else e

/-- R195. The part of key and balance value that heat and life form. -/
def State.heatLife (s : State) (p id : Nat) : Rat :=
  let c := s.tatCell id
  let wt := rat (s.fld (TAT_WEIGHT_WT p)) / 4096 + rat (s.fld THM_STATUS_STEP * s.fld (TAT_PHCFG_WTB p)) / 16
  let wtEff := if 65535 / 4096 < wt then 65535 / 4096 else wt
  wtEff * (1 - rat c.head / 4096) + rat (s.fld (TAT_WEIGHT_WA p)) / 4096 * (rat c.life / 4096)

/-- R195. K and B of a cell, in units of 2^-16. -/
def State.keyOf (s : State) (p : Nat) (sign : Int) (id : Nat) : Int := roundR ((sign * s.vErr p id + s.heatLife p id) * 65536)
def State.balOf (s : State) (p id : Nat) : Int := roundR ((s.vErr p id + s.heatLife p id) * 65536)

/-- R201. Whether the image of a cell has not been refreshed for VSTALE cycles. -/
def State.isStale (s : State) (p id : Nat) : Bool := decide (s.fld (TAT_PHCFG_VSTALE p) ≤ s.up id 0x36 1)

/-- R202. Whether a cell is a reserve cell. -/
def State.isReserve (s : State) (id : Nat) : Bool := s.rbit (TAT_RSV (id / 32)) (id % 32)

/-- R196. The held key and dwell count of a cell at a latch. -/
def State.holdKey (s : State) (p : Nat) (sign : Int) (signChanged : Bool) (old : List Nat) (id : Nat) : State :=
  let k := s.keyOf p sign id
  let c := s.tatCell id
  let new := !old.contains id
  if new || signChanged then s.updTatCell id (fun c => { c with key := k, dwell := if new then 0 else c.dwell })
  else if 0 < c.dwell then s.updTatCell id (fun c => { c with dwell := c.dwell - 1 })
  else if s.fld (TAT_HYST_HYST p) ≤ (k - c.key).natAbs then
    s.updTatCell id (fun c => { c with key := k, dwell := s.fld (TAT_HYST_DWELL p) })
  else s

/-- R201, R203. Stale cells and cells to be retired. -/
def State.tatWatch (s : State) (p id : Nat) : State :=
  let st := s.isStale p id
  let was := (s.tatCell id).stale
  let s := s.updTatCell id (fun c => { c with stale := st })
  let s := if st && !was then (s.count TAT_STALE).evt TAT_EVT_STALE 0x70 id else s
  let c := s.tatCell id
  if c.head < s.fld TAT_RETCFG_RETHEAD ∨ s.fld TAT_RETCFG_RETLIFE < c.life then
    if s.rbit (TAT_RET (id / 32)) (id % 32) then s.setB TAT_EVT_RETIRE true
    else (s.setBit (TAT_RET (id / 32)) (id % 32) true).evt TAT_EVT_RETIRE 0x70 id
  else s

/-- The place of a cell in an order; the length of the order for a cell that is not in it. -/
def placeIn (l : List Nat) (id : Nat) : Nat := l.idxOf id

/-- R197. Group, held key, place in the published order, cell ID. -/
def State.rankKey (s : State) (p : Nat) (order : List Nat) (id : Nat) : Nat × Int × Nat × Nat :=
  let c := s.tatCell id
  (if c.stale then 2 else if s.fld (STCH_PHCFG_MODE p) != 0 && s.isReserve id then 1 else 0, c.key, placeIn order id, id)

/-- The order of rank keys. -/
def rankLt (a b : Nat × Int × Nat × Nat) : Bool :=
  decide (a.1 < b.1) || (a.1 == b.1 && (decide (a.2.1 < b.2.1) || (a.2.1 == b.2.1 &&
    (decide (a.2.2.1 < b.2.2.1) || (a.2.2.1 == b.2.2.1 && decide (a.2.2.2 < b.2.2.2))))))

/-- Inserts a rank key into a sorted list. -/
def rankInsert (a : Nat × Int × Nat × Nat) : List (Nat × Int × Nat × Nat) → List (Nat × Int × Nat × Nat)
  | [] => [a]
  | b :: t => if rankLt b a then b :: rankInsert a t else a :: b :: t

/-- R197. The candidate order. -/
def State.rankCells (s : State) (p : Nat) (order members : List Nat) : List Nat :=
  (((members.map (s.rankKey p order)).foldl (fun acc a => rankInsert a acc) []).map (fun a => a.2.2.2))

/-- R200. Rounds to the nearest integer, a half away from zero. -/
def roundAway (x : Rat) : Int := if x < 0 then -(roundR (-x)) else roundR x

/-- R200. The offset of a cell, given the mean B of the cells that are not stale. -/
def State.setOfs (s : State) (p : Nat) (sign : Int) (mean : Rat) (id : Nat) : State :=
  if (s.tatCell id).stale then s.updTatCell id (fun c => { c with ofs := 0 })
  else
    let lim : Int := (s.fld (TAT_GAIN_OFSLIM p) : Nat)
    let raw := roundAway (-(rat (s.fld (TAT_GAIN_GAIN p)) / 4096 * sign * ((s.balOf p id : Rat) - mean)) / 2)
    let o := clampInt (-lim) lim raw
    let s := s.updTatCell id (fun c => { c with ofs := o })
    if o = raw then s else (s.count TAT_CLAMP).evt TAT_EVT_CLAMP 0x70 id

/-- R200. The offsets of a phase in PSC at a latch that publishes. -/
def State.setOffsets (s : State) (p : Nat) (sign : Int) (members : List Nat) : State :=
  let fresh := members.filter (fun id => !(s.tatCell id).stale)
  let sum : Int := (fresh.map (s.balOf p)).foldl (· + ·) 0
  forL members (fun id t => t.setOfs p sign ((sum : Rat) / rat fresh.length) id) s

/-- R193–R200. The latch of one phase; `members` are its participating cells. -/
def State.tatPhaseLatch (s : State) (p thW : Nat) : State :=
  let ph := s.tatPhase p
  let members := s.members p
  let gone := ph.members.filter (fun id => !members.contains id)
  let s := forL gone (fun id t => t.updTatCell id (fun c => { c with ofs := 0, stale := false })) s
  if s.rbit STCH_CTRL p then
    let sg := s.signOf p thW
    let sign := sg.getD ph.sign
    let s := if sg.isSome then s else (s.count TAT_ISRCBAD).evt TAT_EVT_ISRC 0x70 0xFF
    let changed := sign != ph.sign
    let s := forL members (fun id t => (t.holdKey p sign changed ph.members id).tatWatch p id) s
    let publish := !s.bit (TAT_PHCFG_ROTGATE p) || ph.rotate || members != ph.members || changed || ph.first
    let order := if publish then s.rankCells p ph.order members else ph.order
    let s := s.updTatPhase p (fun _ => { sign, order, first := false, rotate := false, members })
    let s := s.updTat (fun t => { t with pub := putBit t.pub p publish })
    if publish then
      if s.fld (STCH_PHCFG_MODE p) = 0 then s.setOffsets p sign members
      else forL members (fun id t => t.updTatCell id (fun c => { c with ofs := 0 })) s
    else s
  else (s.updTatPhase p (fun ph => { ph with members := [], rotate := false, order := [], sign := 0 })).updTat
    (fun t => { t with pub := putBit t.pub p false })

/-- R208. TAT_CINk shows the inputs sampled at the latch. -/
def State.tatSample (s : State) : State :=
  forN 192 (fun id t =>
    let c := t.tatCell id
    t.wrN (TAT_CIN id) (c.derate * 2 ^ 24 + c.life * 2 ^ 12 + c.head)) s

/-- R193. The latch of Tatting at REFS_DUE. -/
def State.tatLatch (s : State) (thW : Nat) : State := forN 3 (fun p t => t.tatPhaseLatch p thW) s.tatSample

/-- R198. A phase's PHEN bit is set: its held keys, dwell counts and published order are cleared. -/
def State.tatClear (s : State) (p : Nat) : State :=
  (forL ((upto 192).filter (fun id => s.phaseOf id == p)) (fun id t => t.updTatCell id (fun c => { c with key := 0, dwell := 0, ofs := 0 })) s).updTatPhase
    p (fun _ => {})

/-- R208. The published position of a cell; 0xFF for none. -/
def State.pubPos (s : State) (id : Nat) : Nat :=
  let p := s.phaseOf id
  let ph := s.tatPhase p
  if p < 3 ∧ ph.order.contains id = true then placeIn ph.order id else 0xFF

/-- R205. LAST and MAX of TAT_CALC: ranking is published 100 ticks after REFS_DUE. -/
def tatTicks : Nat := 100

/-- R199, R206, R208. Publication: status, positions, held keys, dwell counts and offsets. -/
def State.tatPublish (s : State) : State :=
  let s := (s.setF TAT_STATUS_PUB s.tat.pub).setF TAT_STATUS_RANK (s.rdN STCH_CTRL % 8)
  let s := s.setF TAT_STATUS_SIGN0 (ofSigned 2 (s.tatPhase 0).sign)
  let s := s.setF TAT_STATUS_SIGN1 (ofSigned 2 (s.tatPhase 1).sign)
  let s := s.setF TAT_STATUS_SIGN2 (ofSigned 2 (s.tatPhase 2).sign)
  let s := (s.setF TAT_CALC_LAST tatTicks).setF TAT_CALC_MAX (max tatTicks (s.fld TAT_CALC_MAX))
  forN 192 (fun id t =>
    let c := t.tatCell id
    (t.wrN (TAT_KEY id) (t.pubPos id * 2 ^ 24 + ofSigned 24 c.key)).wrN (TAT_OFS id) (c.dwell * 2 ^ 16 + ofSigned 16 c.ofs)) s

/-- R70, R198, R416. ROTATE_POINT. -/
def execRotatePoint (phases : BitVec 3) (s : State) : Host.Outcome State Fault Refusal :=
  .next (if s.standby then s
    else forL (bitsIn 3 phases.toNat) (fun p t => t.updTatPhase p (fun ph => { ph with rotate := true })) s)

end Sys2Proof.Machine
end

