-- ==== Sys2Proof/Machine/Stitch.lean ====
section
/-!
DEFINITION. The Stitch engine: fixed edges and their limits (R160, R163, R182), the phase-shifted carrier (R172–R176),
nearest-level control (R177, R178), angle patterns (R179, R180), the edge sets in the downstream images (R162, R256), and
the commands of the computation (R161, R173, R185–R188).
-/

namespace Sys2Proof.Machine

def State.stCell (s : State) (id : Nat) : StCell := tget {} s.stitch.cells id
def State.updStCell (s : State) (id : Nat) (f : StCell → StCell) : State :=
  s.updStitch (fun t => { t with cells := tput {} t.cells id (f (tget {} t.cells id)) })
def State.stPhase (s : State) (p : Nat) : StPhase := tget {} s.stitch.phases p
def State.updStPhase (s : State) (p : Nat) (f : StPhase → StPhase) : State :=
  s.updStitch (fun t => { t with phases := tput {} t.phases p (f (tget {} t.phases p)) })

/-! ### Edges (R163, R182) -/

/-- R182. A new edge of a cell at an instant, moved to MINPW after the previous edge of its leg. -/
def State.pushEdge (s : State) (w : Window) (id : Nat) (x : Rat) (legB lvl : Bool) (dph : Nat) : State :=
  let c := s.stCell id
  let t := roundR x
  let last := if legB then c.lastB else c.lastA
  let moved := match last with
    | some l => decide (t < l + w.minpw)
    | none => false
  let t' := match last with
    | some l => max t (l + w.minpw)
    | none => t
  let s := s.updStCell id (fun c => { c with
    edges := c.edges ++ [⟨t', legB, lvl, dph % 16⟩]
    lastA := if legB then c.lastA else some t'
    lastB := if legB then some t' else c.lastB })
  if moved then (s.count STCH_MINPWDLY).evt STCH_EVT_MINPW 0x68 id else s

/-- R158, R162. Earlier edges first, leg A before leg B at equal time. -/
def edgeInsert (e : Edge) : List Edge → List Edge
  | [] => [e]
  | x :: t => if e.time < x.time ∨ (e.time = x.time ∧ e.legB = false ∧ x.legB = true) then e :: x :: t else x :: edgeInsert e t

/-- A level applied to the leg states of a cell. -/
def StCell.setLeg (c : StCell) (legB lvl : Bool) : StCell := if legB then { c with legB := lvl } else { c with legA := lvl }

/-- R163. The edges of a cell in order; those before W are applied to its legs. -/
def StCell.settle (c : StCell) (w : Window) : StCell :=
  let es := c.edges.foldl (fun acc e => edgeInsert e acc) []
  { (es.filter (fun e => decide (e.time < w.w))).foldl (fun c e => c.setLeg e.legB e.lvl) c with
    edges := es.filter (fun e => decide (w.w ≤ e.time)) }

/-- R182. The instant of the last edge of a leg: that of its last pending edge, else the one kept. -/
def lastEdge (es : List Edge) (legB : Bool) (old : Option Int) : Option Int :=
  match (es.filter (fun e => e.legB == legB)).getLast? with
  | some e => some e.time
  | none => old

/-- R163, R182. The edges of a cell from W on: those before W are applied to the legs; beyond the first four, those before
the next window start are moved to it. -/
def State.settleEdges (s : State) (w : Window) (id : Nat) : State :=
  let c := (s.stCell id).settle w
  let extra := c.edges.drop 4
  let n := (extra.filter (fun e => decide (e.time < w.wEnd))).length
  let es := c.edges.take 4 ++ extra.map (fun e => if e.time < w.wEnd then { e with time := w.wEnd } else e)
  let s := s.updStCell id (fun _ => { c with edges := es, lastA := lastEdge es false c.lastA, lastB := lastEdge es true c.lastB })
  forN n (fun _ t => (t.count STCH_EDGEOVF).evt STCH_EVT_EDGEOVF 0x68 id) s

/-- R163. A cell's edges from W on are dropped, those before it applied to its legs. -/
def StCell.cut (c : StCell) (w : Window) : StCell :=
  let es := (c.edges.foldl (fun acc e => edgeInsert e acc) []).filter (fun e => decide (e.time < w.w))
  let old (l : Option Int) : Option Int := if l.any (fun t => decide (t < w.w)) then l else none
  { c.settle w with edges := [], lastA := lastEdge es false (old c.lastA), lastB := lastEdge es true (old c.lastB) }

/-- R178. The leg edges of a cell that goes to another state at an instant. -/
def State.setCellSt (s : State) (w : Window) (id : Nat) (x : Rat) (new : Int) : State :=
  let old := (s.stCell id).st
  if old = new then s
  else
    let s := s.updStCell id (fun c => { c with st := new })
    let s := if old = 1 then s.pushEdge w id x false false w.dph else s
    let s := if old = -1 then s.pushEdge w id x true false w.dph else s
    if new = 1 then s.pushEdge w id x false true w.dph
    else if new = -1 then s.pushEdge w id x true true w.dph
    else s

/-- R162, R178. A cell takes part in a mode from W on. After bypass its legs are low. Out of another mode it goes on from the legs that
it has at W; both high, as in PSC, go low. -/
def State.enterMode (s : State) (w : Window) (id m : Nat) : State :=
  let c := s.stCell id
  if c.mode = m then s
  else if c.mode = 3 then s.updStCell id (fun c => { c with mode := m, legA := false, legB := false, edges := [] })
  else
    let d := c.cut w
    let s := s.updStCell id (fun _ => { d with
      mode := m, run := .stopped, pat := [], st := if d.legA == d.legB then 0 else if d.legA then 1 else -1 })
    if d.legA && d.legB then (s.pushEdge w id (w.w : Int) false false w.dph).pushEdge w id (w.w : Int) true false w.dph
    else if m = 0 then s.setCellSt w id (w.w : Int) 0
    else s

/-! ### The phase-shifted carrier (R172–R176) -/

/-- R172. Whether a phase's carrier is free, its period in ticks, and the angle of half a carrier period. -/
def State.carFree (s : State) (p : Nat) : Bool := s.bit (STCH_CAR_FREE p)
def State.carPer (s : State) (p : Nat) : Nat := bitsOf (s.rdN (STCH_CARPER p)) 0 22
def State.halfAng (s : State) (p : Nat) : Rat := ((2 ^ 31 : Nat) : Rat) / rat (max 1 (s.fld (STCH_CAR_RATIO p)))

/-- R172. The delay of position `k` of `n`, as a fraction of a carrier period. -/
def posDelay (k n : Nat) : Rat := rat k / rat (2 * n)

/-- R172. The nominal carrier period in sixteenths of an EU. -/
def State.nomPeriod (s : State) (w : Window) (p : Nat) : Rat :=
  if s.carFree p then rat (s.carPer p * 128) else w.proj (rat w.u0 + 2 * s.halfAng p) - w.now

/-- R172, R174. The first valley of position `k` of `n` at or after an instant: instant and angle. -/
def State.firstValley (s : State) (w : Window) (p k n : Nat) (from_ : Rat) : Rat × Rat :=
  if s.carFree p then
    let per := rat (s.carPer p * 128)
    let o : Rat := ((s.stPhase p).we.getD w.w : Int) + posDelay k n * per
    let x := o + (((from_ - o) / per).ceil : Int) * per
    ((roundTick x : Int), 0)
  else
    let per := 2 * s.halfAng p
    let o := rat (s.rdN (STCH_CAROFS p)) + posDelay k n * per
    let th := o + (((w.unproj from_ - o) / per).ceil : Int) * per
    (w.proj th, th)

/-- R174, R183. The boundary half a carrier period after (`x`, `th`). -/
def State.nextHalf (s : State) (w : Window) (p : Nat) (c : StCell) : Rat × Rat :=
  if s.carFree p then
    if c.rise then ((roundTick (c.next + rat (s.carPer p * 64)) : Int), 0)
    else
      let v := s.firstValley w p c.pos c.npos (c.next + rat (s.carPer p * 32))
      (v.1, 0)
  else (w.proj (c.ang + s.halfAng p), c.ang + s.halfAng p)

/-- R174. The reference of a half-period of length `h`, in units of 2^-15, clamped to ±(1 − MINPW / H). -/
def State.pscRef (s : State) (w : Window) (id : Nat) (raw : Int) (h : Rat) : Rat × State :=
  let lim := 32768 * (1 - (w.minpw : Rat) / h)
  let lim := if lim < 0 then 0 else lim
  let x : Rat := raw
  if lim < x then (lim, (s.count STCH_CLAMP).evt STCH_EVT_CLAMP 0x68 id)
  else if x < -lim then (-lim, (s.count STCH_CLAMP).evt STCH_EVT_CLAMP 0x68 id)
  else (x, s)

/-- R175. The two edges of a half-period that begins at `b` and ends at `e`. -/
def State.halfEdges (s : State) (w : Window) (p id : Nat) (rise : Bool) (b e : Rat) : State :=
  let c := s.stCell id
  let raw := if s.bit (STCH_PHCFG_DUPD p) || rise then s.vref id + (s.tatCell id).ofs else c.ref
  let s := if rise then s.updStCell id (fun c => { c with ref := raw }) else s
  let r := s.pscRef w id raw (e - b)
  let first := b + (1 - r.1 / 32768) * (e - b) / 2
  let second := b + (1 + r.1 / 32768) * (e - b) / 2
  if rise then ((r.2.pushEdge w id second false false c.cnt).pushEdge w id first true false c.cnt)
  else ((r.2.pushEdge w id first false true c.cnt).pushEdge w id second true true c.cnt)

/-- R174–R176. One boundary of a cell's carrier, at the instant `next`. -/
def State.pscBoundary (s : State) (w : Window) (p id : Nat) : State :=
  let c := s.stCell id
  let b := c.next
  if c.rise then
    let s := s.updStCell id (fun c => { c with valley := b })
    if c.run = .leaving then
      ((s.pushEdge w id b false false c.cnt).pushEdge w id b true false c.cnt).updStCell id (fun c => { c with run := .stopped })
    else if posDelay c.pos c.npos ≠ posDelay c.toPos c.toN then
      let v := s.firstValley w p c.toPos c.toN (b + s.nomPeriod w p)
      let mid := (b + v.1) / 2
      let s := s.halfEdges w p id true b mid
      (s.updStCell id (fun c => { c with pos := c.toPos, npos := c.toN, next := mid, rise := false, trans := some v })).updStPhase p
        (fun q => { q with respEnd := if q.respEnd < v.1 then v.1 else q.respEnd })
    else
      let v := s.nextHalf w p c
      (s.halfEdges w p id true b v.1).updStCell id (fun c => { c with pos := c.toPos, npos := c.toN, next := v.1, ang := v.2, rise := false })
  else
    let v := match c.trans with
      | some v => v
      | none => s.nextHalf w p c
    (s.halfEdges w p id false b v.1).updStCell id (fun c =>
      { c with next := v.1, ang := v.2, rise := true, trans := none, cnt := c.cnt + 1 })

/-- R175. Every boundary of a cell that lies in the window. The fuel bounds their number. -/
def State.pscRun (w : Window) (p id : Nat) : Nat → State → State
  | 0, s => s
  | n + 1, s =>
    let c := s.stCell id
    if (c.run = .running ∨ c.run = .leaving) ∧ c.next < (w.wEnd : Int) then State.pscRun w p id n (s.pscBoundary w p id) else s

/-- R176. A cell that waits enters at the first valley of its position at or after W. -/
def State.pscEnter (s : State) (w : Window) (p id : Nat) : State :=
  let c := s.stCell id
  if c.run = .entering then
    let v := s.firstValley w p c.toPos c.toN (w.w : Int)
    if v.1 < (w.wEnd : Int) then
      let s := s.updStCell id (fun c => { c with run := .running, pos := c.toPos, npos := c.toN, next := v.1, ang := v.2,
                                                 rise := true, trans := none, cnt := 0 })
      (s.pushEdge w id v.1 false true 0).pushEdge w id v.1 true true 0
    else s
  else s

/-- R172, R176. The positions of the participating cells of a phase at a latch, and what each cell is to do. -/
def State.pscAssign (s : State) (p : Nat) (members : List Nat) : State :=
  forL members (fun id t => t.updStCell id (fun c =>
    let c := { c with toPos := placeIn members id, toN := members.length, mode := 0, ph := p }
    match c.run with
    | .stopped => { c with run := .entering, st := 0, pat := [] }
    | .leaving => { c with run := .running }
    | _ => c)) s

/-- R176. A cell that no longer participates: a waiting cell stops, a running cell leaves at its next valley. -/
def State.pscLeave (s : State) (id : Nat) : State :=
  s.updStCell id (fun c =>
    match c.run with
    | .entering => { c with run := .stopped, mode := 3 }
    | .running => { c with run := .leaving }
    | .leaving => c
    | .stopped => { c with mode := 3 })

/-- R176. Whether a running cell of a phase is to move to another position. -/
def State.moving (s : State) (id : Nat) : Bool :=
  let c := s.stCell id
  c.run == .running && posDelay c.pos c.npos != posDelay c.toPos c.toN

/-- R172–R176. The latch of a phase in PSC. A change of the set of participating cells is counted; their first set is none. -/
def State.pscPhase (s : State) (w : Window) (p : Nat) (members : List Nat) : State :=
  let old := (s.stPhase p).members
  let s := (forL members (fun id t => t.enterMode w id 0) s).pscAssign p members
  let s := if members != old && !old.isEmpty && !members.isEmpty then (s.count STCH_RESPREAD).evt STCH_EVT_RESPREAD 0x68 0xFF else s
  forL members (fun id t => State.pscRun w p id 16 (t.pscEnter w p id)) s

/-! ### Levels (R177, R178) -/

/-- R178. The cells of a phase take the states of level `n` at an instant. -/
def State.applyLevel (s : State) (w : Window) (order : List Nat) (x : Rat) (n : Int) : State :=
  forL ((upto order.length).zip order) (fun e t => t.setCellSt w e.2 x (if e.1 < n.natAbs then sgn n else 0)) s

/-- R177. The level that n reaches at one instant with reference `ref` (2^-16 levels) where no limit holds it. -/
def levelFree (h ref n : Int) : Int :=
  if n * 65536 + 32768 + h ≤ ref then (ref - 32768 - h) / 65536 + 1
  else if ref ≤ n * 65536 - 32768 - h then -((-ref - 32768 - h) / 65536 + 1)
  else n

/-- R177. The level changes after W: the fractions of the window at which a step is due and the level it leads to, were there no
limit. -/
def levelSteps (h lref slope : Int) : Nat → Int → List (Rat × Int)
  | 0, _ => []
  | k + 1, n =>
    let up := decide (0 < slope)
    let thr := if up then n * 65536 + 32768 + h else n * 65536 - 32768 - h
    let x : Rat := ((thr - lref : Int) : Rat) / (slope : Rat)
    if slope = 0 ∨ ¬(0 < x ∧ x < 1) then []
    else
      let n' := if up then n + 1 else n - 1
      (x, n') :: levelSteps h lref slope k n'

/-- R177, R178. The latch of a phase in NLC. The steps that ±N prevents are counted: those that the reference calls for at W, and
those within the window. -/
def State.nlcPhase (s : State) (w : Window) (p : Nat) (members : List Nat) : State :=
  let order := (s.tatPhase p).order
  let lim : Int := (members.length : Nat)
  let h : Int := (s.fld (STCH_PHCFG_NLCHYST p) * 256 : Nat)
  let free := levelFree h (s.lref p) (clampInt (-lim) lim (s.stPhase p).level)
  let n := clampInt (-lim) lim free
  let s := forL members (fun id t => t.enterMode w id 1) s
  let s := s.applyLevel w order (w.w : Int) n
  let steps := levelSteps h (s.lref p) (s.lslope p) 4096 (if 0 < s.lslope p then max n free else min n free)
  let done := steps.filter (fun e => decide (e.2.natAbs ≤ members.length))
  let s := forL done (fun e t => t.applyLevel w order ((w.w : Rat) + e.1 * w.len) e.2) s
  let s := s.updStPhase p (fun q => { q with level := (done.getLast?.map (fun e => e.2)).getD n })
  let lost := (free - n).natAbs + (steps.length - done.length)
  if lost = 0 then s else (s.countN STCH_CLAMP lost).evt STCH_EVT_CLAMP 0x68 0xFF

/-! ### Patterns (R179, R180) -/

/-- R180. The angles of a pattern are valid: rising, above 0, below a quarter turn. -/
def anglesOk : Nat → List Nat → Bool
  | _, [] => true
  | lo, a :: t => decide (lo < a) && decide (a < 0x10000) && anglesOk a t

/-- R179, R180. The pattern entry `i`: its angles in units of 2^-18 turn; none where it is invalid. -/
def State.patEntry (s : State) (i : Nat) : Option (List Nat) :=
  let base := 0x30020000 + i % 4096 * 0x20
  let nang := s.memN base 2 / 4096
  let as := (upto nang).map (fun k => s.memN (base + 2 + 2 * k) 2)
  if s.uncorr base 8 || !anglesOk 0 as then none else some as

/-- R180. The entry of a position at the modulation index and configuration of the latch. -/
def State.patIndex (s : State) (p pos : Nat) : Nat :=
  let rows := max 1 (s.fld (STCH_PATCFG_ROWS p))
  let slots := s.fld (STCH_PATCFG_SLOTSM1 p) + 1
  s.fld (STCH_PATCFG_BASE p) + min (s.modIdx p * rows / 65536) (rows - 1) * slots + pos

/-- R180. A cell adopts its pattern at a half-turn point; an invalid entry leaves the previous one in force. -/
def State.patAdopt (s : State) (p id : Nat) : State :=
  let pos := placeIn (s.tatPhase p).order id
  if s.fld (STCH_PATCFG_SLOTSM1 p) < pos then s.updStCell id (fun c => { c with pat := [] })
  else
    match s.patEntry (s.patIndex p pos) with
    | some as => s.updStCell id (fun c => { c with pat := as })
    | none => s.evt STCH_EVT_PATINV 0x68 id

/-- R180. The state of a pattern at φ (2^-32 turn). -/
def patState (as : List Nat) (phi : Nat) : Int :=
  let h := phi % 2 ^ 31
  let odd := if h < 2 ^ 30 then (as.filter (fun a => decide (a * 2 ^ 14 ≤ h))).length % 2
    else (as.filter (fun a => decide (a * 2 ^ 14 ≤ 2 ^ 31 - h))).length % 2
  if odd = 0 then 0 else if phi % 2 ^ 32 < 2 ^ 31 then 1 else -1

/-- R180. The instants at which a pattern can change in the half turn after a half-turn point, as distances from it: at αi,
and just after 0.5 − αi. -/
def patSteps (as : List Nat) : List Nat := as.map (fun a => a * 2 ^ 14) ++ as.reverse.map (fun a => 2 ^ 31 - a * 2 ^ 14)

/-- R180. The state just after a change at distance `d` from a half-turn point. -/
def patAfter (as : List Nat) (neg : Bool) (d : Nat) : Int :=
  let odd := if d < 2 ^ 30 then (as.filter (fun a => decide (a * 2 ^ 14 ≤ d))).length % 2
    else (as.filter (fun a => decide (a * 2 ^ 14 < 2 ^ 31 - d))).length % 2
  if odd = 0 then 0 else if neg then -1 else 1

/-- R180. The changes of a cell's pattern at angles in [`lo`, `hi`), in the half turn that `lo` lies in. -/
def State.patPiece (s : State) (w : Window) (p lo hi id : Nat) : State :=
  let ofs := (s.stPhase p).phofs
  let phi := phiOf lo ofs
  let half : Int := (lo : Int) - (phi % 2 ^ 31 : Nat)
  let neg := decide (2 ^ 31 ≤ phi)
  forL (patSteps (s.stCell id).pat) (fun d t =>
    if lo ≤ half + d ∧ half + d < hi then t.setCellSt w id (w.proj ((half + d : Int) : Rat)) (patAfter (t.stCell id).pat neg d) else t) s

/-- R180. The pieces of a window in PAT: at each half-turn point PHOFS and the patterns are adopted. -/
def State.patRun (w : Window) (p : Nat) (members : List Nat) : Nat → Nat → State → State
  | 0, _, s => s
  | k + 1, lo, s =>
    let phi := phiOf lo (s.stPhase p).phofs
    let s :=
      if phi % 2 ^ 31 = 0 then
        let s := s.updStPhase p (fun q => { q with phofs := s.phofs p })
        let s := forL members (fun id t => t.patAdopt p id) s
        let phi' := phiOf lo (s.phofs p)
        forL members (fun id t => t.setCellSt w id (w.proj (rat lo)) (patState (t.stCell id).pat phi')) s
      else s
    let phi := phiOf lo (s.stPhase p).phofs
    let hi := min w.thE (lo + (2 ^ 31 - phi % 2 ^ 31))
    let s := forL members (fun id t => t.patPiece w p lo hi id) s
    if hi < w.thE then State.patRun w p members k hi s else s

/-- R179, R180. The latch of a phase in PAT. -/
def State.patPhase (s : State) (w : Window) (p : Nat) (members : List Nat) : State :=
  let s := forL members (fun id t => t.enterMode w id 2) s
  State.patRun w p members 8 w.thW s

/-! ### Edge sets (R162, R256) -/

/-- R157, R158. An instant as TIME and DFRAC relative to the start of the epoch second. -/
def Window.rel (w : Window) (x : Int) : Int := x - (w.sec * 64000000000 : Nat)

/-- R158, R160. The edge word of an edge. -/
def edgeWord (w : Window) (trim : Int) (e : Edge) : Nat :=
  let x := ofSigned 36 (w.rel e.time + trim * 16)
  x / 16 * 2 ^ 32 + x % 16 * 2 ^ 28 + e.dph * 2 ^ 24 + (if e.legB then 2 ^ 23 else 0) + (if e.lvl then 2 ^ 22 else 0)

/-- R162. CARPER and CARVAL of a cell in PSC. -/
def State.carFields (s : State) (w : Window) (p id : Nat) : Nat × Nat :=
  let c := s.stCell id
  let per := roundR (s.nomPeriod w p / 16)
  let val := if c.run = .entering then (s.firstValley w p c.toPos c.toN (w.w : Int)).1
    else if (w.w : Int) ≤ c.valley then c.valley
    else if c.rise then c.next
    else match c.trans with
      | some v => v.1
      | none => (s.nextHalf w p c).1
  (ofSigned 32 per, ofSigned 32 (w.rel (roundR val) / 16))

/-- R162, R181, R256. The 64 bytes that Stitch and the controller write of a cell's downstream image; PRB, CMD and AUX are
left to DOWN departure. -/
def State.setImage (s : State) (w : Window) (p id : Nat) : List Byte :=
  let c := s.stCell id
  let byp := decide (c.mode = 3)
  let es := c.edges.take 4
  let lim : Int := if p < 3 then (min 32767 (s.fld (STCH_PHCFG_DABLIM p)) : Nat) else 0
  let dab := if byp then 0 else clampInt (-lim) lim (s.dabps id)
  let car := if c.mode = 0 then s.carFields w p id else (0, 0)
  let b1 := c.mode + (if c.legA then 8 else 0) + (if c.legB then 4 else 0) + es.length * 16
  leBytes (w.sec % 256) 1 ++ leBytes b1 1 ++ leBytes (ofSigned 16 dab) 2 ++ leBytes (ofSigned 32 (w.rel w.w / 16)) 4 ++
    leBytes (s.holdAmp id) 2 ++ leBytes (s.holdPsi id) 2 ++ leBytes car.1 4 ++ leBytes car.2 4 ++
    (es.flatMap (fun e => leBytes (edgeWord w (s.trim id) e) 8)) ++ List.replicate (8 * (4 - es.length)) 0#8

/-- R162, R170, R176. Cells that take no part in a phase's sets: bypass without edges after NLC and PAT, START being the legs as
they were until W; the carrier's end in PSC. -/
def State.stitchLeave (s : State) (w : Window) (id : Nat) : State :=
  let c := s.stCell id
  if c.run = .stopped then
    s.updStCell id (fun c =>
      let d := if c.mode = 3 then { c with legA := false, legB := false, edges := [] } else c.cut w
      { d with mode := 3, st := 0, pat := [] })
  else State.pscRun w c.ph id 16 (s.pscLeave id)

/-- R162–R182. The sets of a phase. -/
def State.stitchPhase (s : State) (w : Window) (p : Nat) : State :=
  let members := if s.rbit STCH_CTRL p then s.members p else []
  let mode := s.fld (STCH_PHCFG_MODE p)
  let left := (upto 192).filter (fun id => s.phaseOf id == p && !members.contains id && s.stCell id != {})
  let s := forL left (fun id t => t.stitchLeave w id) s
  let s := if s.rbit STCH_CTRL p && (s.stPhase p).we.isNone then
      s.updStPhase p (fun q => { q with we := some w.w, phofs := s.phofs p })
    else s
  let s := if s.rbit STCH_CTRL p = false then s
    else if mode = 0 then s.pscPhase w p members
    else if mode = 1 then s.nlcPhase w p members
    else s.patPhase w p members
  let s := forL (members ++ left) (fun id t => t.settleEdges w id) s
  let s := s.updStPhase p (fun q => { q with members })
  s.setF ⟨STCH_NACT, 8 * p, 8⟩ members.length

/-- R189. PHRUN after a latch. -/
def State.stitchStatus (s : State) : State :=
  forN 3 (fun p t => t.setBit STCH_STATUS p
    (t.rbit STCH_CTRL p || (upto 192).any (fun id => t.phaseOf id == p && (t.stCell id).run == .leaving))) s

/-! ### Takeover (R186, R411, R414) -/

/-- R186, R411. A cell taken over in PSC: its carrier runs at its position, from the half-period that is in progress at W on. -/
def State.pscAdopt (s : State) (w : Window) (p id : Nat) : State :=
  let l := (s.stPhase p).members
  let v := s.firstValley w p (placeIn l id) l.length (w.w : Int)
  let back (k : Rat) : Rat × Rat :=
    if s.carFree p then ((roundTick (v.1 - k * rat (s.carPer p * 64)) : Int), 0) else (w.proj (v.2 - k * s.halfAng p), v.2 - k * s.halfAng p)
  let rise := decide ((w.w : Int) < (back 1).1)
  let b := if rise then back 2 else back 1
  s.updStCell id (fun _ => {
    mode := 0, ph := p, run := .running, pos := placeIn l id, npos := l.length, toPos := placeIn l id, toN := l.length
    next := b.1, ang := b.2, rise, legA := rise, legB := rise, ref := s.vref id + (s.tatCell id).ofs })

/-- R178, R186. A cell taken over in NLC or PAT: its state at W, and the legs that it means. -/
def State.stAdopt (s : State) (id mode : Nat) (st : Int) (pat : List Nat) : State :=
  s.updStCell id (fun _ => { mode, st, pat, legA := decide (st = 1), legB := decide (st = -1) })

/-- R186, R411, R414. A phase taken over runs on at the first latch: its carrier, its level, or its patterns. -/
def State.stitchAdopt (s : State) (w : Window) (p : Nat) : State :=
  let q := s.stPhase p
  if q.taken then
    let s := s.updStPhase p (fun q => { q with taken := false, phofs := s.phofs p })
    if s.fld (STCH_PHCFG_MODE p) = 0 then forL q.members (fun id t => t.pscAdopt w p id) s
    else if s.fld (STCH_PHCFG_MODE p) = 1 then
      forL q.members (fun id t =>
        t.stAdopt id 1 (if placeIn (t.tatPhase p).order id < q.level.natAbs then sgn q.level else 0) []) s
    else
      forL q.members (fun id t =>
        let t := t.patAdopt p id
        let as := (t.stCell id).pat
        t.stAdopt id 2 (patState as (phiOf w.thW (t.phofs p))) as) s
  else s

/-! ### The latch -/

/-- R176, R189. Whether a re-spread of a phase is in progress: a cell is still to move, or the last transitional period has not ended. -/
def State.respreads (s : State) (p : Nat) : Bool :=
  (s.stPhase p).members.any s.moving || decide (((s.cellTimeAt 0 : Int) : Rat) / 512 < (s.stPhase p).respEnd)

/-- R185. The ticks that a phase's pipeline takes for a cell: 8 of set-up and one per edge. -/
def State.cellTicks (s : State) (id : Nat) : Nat := 8 + min 4 (s.stCell id).edges.length

/-- R185. The ticks from REFS_DUE at which a pipeline completes the sets of its cells, by rising ID, from `t` on. -/
def pipeTimes (cost : Nat → Nat) (t : Nat) : List Nat → List (Nat × Nat)
  | [] => []
  | id :: rest => (id, t + cost id) :: pipeTimes cost (t + cost id) rest

/-- R185. The ticks from REFS_DUE at which the sets of the admitted cells are complete. A cell of no phase passes no pipeline. -/
def State.setTimes (s : State) : List (Nat × Nat) :=
  let ids := (upto 192).filter s.admitted
  (upto 3).flatMap (fun p => pipeTimes s.cellTicks tatTicks (ids.filter (fun id => s.phaseOf id == p))) ++
    (ids.filter (fun id => decide (3 ≤ s.phaseOf id))).map (fun id => (id, tatTicks))

/-- R319. The edges of the sets of a latch, with those of earlier sets that are less than 1 µs old. -/
def State.placedEdges (s : State) (ids : List Nat) : List (Nat × Int) :=
  let now : Int := s.cellTimeAt 0 / 8192
  s.stitch.placed.filter (fun x => decide (now - 4000 ≤ x.2)) ++
    ids.flatMap (fun id => ((s.stCell id).edges.take 4).map (fun x => (s.phaseOf id, x.time / 16 + s.trim id)))

/-- R185. The next STITCH_COMPUTE_DONE: the instant at which the first of the sets that are being computed is complete. -/
def State.stitchNext (s : State) : State :=
  match s.stitch.images with
  | [] => s
  | e :: t => (s.unsched (· == .stitchComputeDone)).schedAt (t.foldl (fun m x => min m x.2.1) e.2.1) .stitchComputeDone

/-- R161, R170, R199. REFS_DUE in a unit that runs control cycles: references latched, Tatting ranks, and Stitch computes its sets,
which are complete one after the other (R185). -/
def State.stitchLatch (s : State) : State :=
  let s := s.latchRefs
  let w := s.window
  let s := s.tatLatch w.thW
  let s := forN 3 (fun p t => t.stitchPhase w p) s
  let apart := (upto 192).filter (fun id => decide (3 ≤ s.phaseOf id) && s.stCell id != {})
  let s := forL apart (fun id t => (t.stitchLeave w id).settleEdges w id) s
  let s := s.stitchStatus
  let times := s.setTimes
  let s := s.updStitch (fun t => { t with
    images := times.map (fun e => (e.1, s.tick + e.2, s.setImage w (s.phaseOf e.1) e.1)), placed := s.placedEdges (times.map (·.1)) })
  let d := times.foldl (fun m e => max m e.2) tatTicks
  let s := s.setF STCH_CALC_LAST d
  let s := if s.fld STCH_CALC_MAX < d then s.setF STCH_CALC_MAX (min d 32767) else s
  ((s.setB STCH_STATUS_BUSY (!times.isEmpty)).sched tatTicks .tattingPublish).stitchNext

/-- R185, R256. The sets that are complete by now are written to the downstream images and are the cells' last sets. -/
def State.stitchWrite (s : State) : State :=
  let due := s.stitch.images.filter (fun e => decide (e.2.1 ≤ s.tick))
  let rest := s.stitch.images.filter (fun e => decide (s.tick < e.2.1))
  let s := forL due (fun e t =>
    ((t.setMemBytes (cellDn e.1) (e.2.2.take 20)).setMemBytes (cellDn e.1 + 0x20) (e.2.2.drop 20)).updStitch (fun x =>
      { x with sets := tput [] x.sets e.1 e.2.2 })) s
  ((s.updStitch (fun t => { t with images := rest })).setB STCH_STATUS_BUSY (!rest.isEmpty)).stitchNext

/-! ### Phase enables and checks (R173, R188) -/

/-- R57, R173. The lowest frequency of the checks in 0.01 Hz: 40 Hz, in DC mode the virtual frequency. -/
def State.lowFreq (s : State) : Nat := if s.bit HOOP_CTRL_H0DC then s.rdN HOOP_H0NOM % 2 ^ 16 else 4000

/-- R173, R23. The highest frequency of the checks: FMAX, in DC mode the virtual frequency. -/
def State.highFreq (s : State) : Nat := if s.bit HOOP_CTRL_H0DC then s.rdN HOOP_H0NOM % 2 ^ 16 else s.fld GLB_CYCCFG_FMAX

/-- R173. C: the CYCLE_START entries of the active page. -/
def State.cycles (s : State) : Nat := (cycleAngles (s.prkPage (s.fld PRK_STATUS_ACTIVE))).length

/-- R173. The flags of STCH_CFGERR that the check of a phase gives. -/
def State.phaseCheck (s : State) (p : Nat) : Nat :=
  let mode := s.fld (STCH_PHCFG_MODE p)
  let ratio := s.fld (STCH_CAR_RATIO p)
  let psc := mode == 0 && !s.carFree p
  let low := psc && decide (ratio * s.lowFreq < 20000)
  let high := psc && decide (2000000 < ratio * s.highFreq)
  let cyc := psc && decide (s.cycles < 2 * ratio)
  let per := s.carPer p
  -- twice the control cycle length 1 / (C × f), in ticks: per × C × f / 100 < 2 × 500,000,000
  let free := mode == 0 && s.carFree p &&
    (decide (per < 25000) || decide (2500000 < per) || decide (per * s.cycles * s.lowFreq < 100000000000))
  (if low then 1 else 0) + (if high then 2 else 0) + (if cyc then 4 else 0) + (if free then 8 else 0) + (if mode = 3 then 16 else 0)

/-- R173. The check of the phases in `mask`: a phase that fails has its PHEN bit cleared and its number recorded. -/
def State.stitchCheck (s : State) (mask : Nat) : State :=
  let bad := (bitsIn 3 mask).filter (fun p => s.phaseCheck p != 0)
  let flags := (upto 5).foldl (fun w b => if bad.any (fun p => bitOf (s.phaseCheck p) b) then putBit w b true else w) 0
  let s := s.wrN STCH_CFGERR (bad.foldl (fun w p => putBit w (8 + p) true) flags)
  if bad.isEmpty then s else (forL bad (fun p t => t.setBit STCH_CTRL p false) s).evt STCH_EVT_CFGREF 0x68 0xFF

/-- R188, R189. A write of PHEN. -/
def State.stitchCtrl (s : State) (w : Nat) : State :=
  let s := s.wrN STCH_CTRL (putBits w 0 3 (s.rdN STCH_CTRL))
  let was := s.rdN STCH_CTRL % 8
  let s := forL ((bitsIn 3 was).filter (fun p => !bitOf w p)) (fun p t => t.setBit STCH_CTRL p false) s
  let new := (bitsIn 3 w).filter (fun p => !bitOf was p)
  if new.isEmpty then s
  else
    let s := forL new (fun p t => ((t.setBit STCH_CTRL p true).tatClear p).updStPhase p (fun q => { q with level := 0, we := none, phofs := 0 })) s
    s.stitchCheck (new.foldl (fun m p => m + 2 ^ p) 0)

/-- R173. STITCH_PHASE_ENABLE: PHEN bits are written 1. -/
def execStitchPhaseEnable (m : Master) (mask : BitVec 3) (s : State) : Host.Outcome State Fault Refusal :=
  .next (s.gate m (fun s => s.stitchCtrl (s.rdN STCH_CTRL ||| mask.toNat)))

/-- R189. STITCH_PHASE_DISABLE: PHEN bits are written 0. -/
def execStitchPhaseDisable (m : Master) (mask : BitVec 3) (s : State) : Host.Outcome State Fault Refusal :=
  .next (s.gate m (fun s => s.stitchCtrl (s.rdN STCH_CTRL &&& (mask.toNat ^^^ 0xFFFFFFFF))))

/-- R188. A refused write of a locked Stitch field. -/
def State.stitchRefuse (s : State) : State := s.evt STCH_EVT_CFGREF 0x68 0xFF

/-- R188. A write of a Stitch register that is accepted only while PHEN bits are 0. -/
def State.stitchLocked (s : State) (a : Nat) (mask w : Nat) : State :=
  if s.rdN STCH_CTRL % 8 &&& mask = 0 then s.wrN a w else s.stitchRefuse

/-- R188. A write of STCH_PHCFGn: MODE and DUPD change only while PHEN of the phase is 0. -/
def State.phCfg (s : State) (p w : Nat) : State :=
  let old := s.rdN (STCH_PHCFG p)
  if s.rbit STCH_CTRL p ∧ w % 8 ≠ old % 8 then (s.wrN (STCH_PHCFG p) (putBits w 0 3 old)).stitchRefuse else s.wrN (STCH_PHCFG p) w

end Sys2Proof.Machine
end

