-- ==== Sys2Proof/Machine/PwmCmds.lean ====
section
/-!
DEFINITION. The commands of the local PWM legs and of Selvage (R344–R372).
-/

namespace Sys2Proof.Machine

/-! ### Legs -/

/-- A sticky event of leg `n`: sources 0x8C–0x8F, instance the leg (R374). -/
def State.evtLeg (s : State) (f : Nat → Fld) (n : Nat) : State := s.evt (f n) 0x8C n

/-- R346, R159. Whether the dither rule adds one unit for fraction `f` at count `dph`. -/
def ditherUp (dph f : Nat) : Bool := decide (dph * f / 16 < (dph + 1) * f / 16)

/-- R345. The period in force in sixteenths of a unit: below 400 units it runs as 400. -/
def State.perSix (s : State) (n : Nat) : Nat :=
  let v := s.fld (PWM_CURPER_VAL n)
  if v < 400 then 400 * 16 else v * 16 + s.fld (PWM_CURPER_FRAC n)

/-- R345. The duty in force in sixteenths of a unit: above PER it is used as PER. -/
def State.dutySix (s : State) (n : Nat) : Nat :=
  min (s.fld (PWM_CURDUTY_VAL n) * 16 + s.fld (PWM_CURDUTY_FRAC n)) (s.perSix n)

/-- R346. An offset in sixteenths placed with dither, in units. -/
def placeSix (x dph : Nat) : Nat := x / 16 + (if ditherUp dph (x % 16) then 1 else 0)

/-- R350. An ideal transition of leg `n` at time `t` (250 ps units): the side that is on turns off, the other waits. -/
def State.transition (s : State) (n : Nat) (high : Bool) (t : Nat) : State :=
  let s := if s.bit (PWM_STATUS_PICOT n) then
      ((s.unsched (isPicot n)).setB (PWM_STATUS_PICOT n) false).updLeg n (fun l => { l with supplyWait := false })
    else s
  let s := s.turnOff n (!high) t
  if s.sideOn n high then s.updLeg n (fun l => { l with want := .none })
  else (s.updLeg n (fun l => { l with want := if high then .high else .low })).tryTurnOn n t

/-- R348. Loads the pending pair; its tag shows in GEN. -/
def State.loadPair (s : State) (n : Nat) : State :=
  (((s.wr (PWM_CURPER n) (s.rd (PWM_PER n))).wr (PWM_CURDUTY n) (s.rd (PWM_DUTY n))).setF (PWM_STATUS_GEN n)
    (s.fld (PWM_PER_GEN n))).setB (PWM_STATUS_PEND n) false

/-- R348. A split pair at a boundary or a start. -/
def State.splitPair (s : State) (n : Nat) : State := (s.evtLeg PWM_EVT_UPD_SPLIT n).count (PWM_SPLIT n)

/-- R348. Whether the tags of the pending pair are equal. -/
def State.tagsEqual (s : State) (n : Nat) : Bool := s.fld (PWM_PER_GEN n) == s.fld (PWM_DUTY_GEN n)

/-- R347. STOPPING ends: with EN 0 the leg is OFF, with EN 1 it is ARMED, in its safe state. -/
def State.stopEnd (s : State) (n : Nat) : State :=
  (s.setF (PWM_STATUS_STATE n) (if s.bit (PWM_CTRL_EN n) then legArmed else legOff)).legSafe n

/-- R347, R398. EN of a leg is written 1; refused while the leg is latched and in ROLE 2 or 3. -/
def State.legEnable (s : State) (n : Nat) : State :=
  if s.rbit SELV_STATUS n ∨ 2 ≤ s.fld GLB_STATUS_ROLE then s.evtLeg PWM_EVT_ENREF n
  else
    let s := s.setB (PWM_CTRL_EN n) true
    if s.fld (PWM_STATUS_STATE n) = legOff then s.setF (PWM_STATUS_STATE n) legArmed else s

/-- R347. EN of a leg is written 0. -/
def State.legDisable (s : State) (n : Nat) : State :=
  let st := s.fld (PWM_STATUS_STATE n)
  let s := s.setB (PWM_CTRL_EN n) false
  if st = legArmed then s.setF (PWM_STATUS_STATE n) legOff
  else if st = legRun then
    let s := (s.setF (PWM_STATUS_STATE n) legStopping).legHalt n
    if s.bit (PWM_STATUS_DTRUN n) then s else s.stopEnd n
  else s

/-- R347. PWM_LEG_ENABLE. -/
def execPwmLegEnable (m : Master) (n : Fin 12) (s : State) : Host.Outcome State Fault Refusal :=
  .next (s.gate m (fun s => s.startGate m (PWM_CTRL n.val) (fun s => s.legEnable n.val)))

/-- R347. PWM_LEG_DISABLE. -/
def execPwmLegDisable (m : Master) (n : Fin 12) (s : State) : Host.Outcome State Fault Refusal :=
  .next (s.gate m (fun s => s.legDisable n.val))

/-- R347. One leg of a PWM_GSTART write: the first period begins PWM_PHASEn units after a start tick 4 ticks after the
write. -/
def State.startLeg (s : State) (n : Nat) : State :=
  if s.fld (PWM_STATUS_STATE n) = legArmed then
    if s.tagsEqual n then
      let b := (s.tick + 4) * 8 + s.rdN (PWM_PHASE n)
      let s := ((s.loadPair n).setF (PWM_STATUS_STATE n) legRun).setF (PWM_STATUS_DPH n) 0
      let s := (s.wrN (PWM_PCNT n) 0).updLeg n (fun l => { l with begin := b, starting := true })
      s.schedAt (b / 8) (.pwmPeriodBoundary (legIx n))
    else s.splitPair n
  else s

/-- R347. A write of PWM_GSTART starts the ARMED legs of its mask together. -/
def State.gstart (s : State) (mask : Nat) : State := forL (bitsIn 12 mask) (fun n t => t.startLeg n) s

/-- R347. PWM_GSTART. -/
def execPwmGstart (m : Master) (mask : BitVec 12) (s : State) : Host.Outcome State Fault Refusal :=
  .next (s.gate m (fun s => s.gstart mask.toNat))

/-- R348. A commit of the pending pair of a leg. -/
def State.commitPair (s : State) (n : Nat) : State := s.setB (PWM_STATUS_PEND n) true

/-- R348. PWM_CTRL_COMMIT. -/
def execPwmCtrlCommit (m : Master) (n : Fin 12) (s : State) : Host.Outcome State Fault Refusal :=
  .next (s.gate m (fun s => s.commitPair n.val))

/-- R70, R348, R416. PWM_COMMIT: the Pricking action commits the pairs of its legs. -/
def execPwmCommit (legs : BitVec 12) (s : State) : Host.Outcome State Fault Refusal :=
  .next (if s.standby then s else forL (bitsIn 12 legs.toNat) (fun n t => t.commitPair n) s)

/-- R352, R353. A Picot refresh takes the place of the start of the period: the high side turns off and the low side
waits to turn on. -/
def State.picotInsert (s : State) (n : Nat) (t : Nat) : State :=
  let s := ((s.evtLeg PWM_EVT_PICOT n).count (PWM_PICOT n)).setB (PWM_STATUS_PICOT n) true
  let s := s.turnOff n true t
  let s := (s.updLeg n (fun l => { l with want := .low, picotReq := false })).tryTurnOn n t
  if s.sideOn n false then s.sched (s.rdN PWM_PICOT_W) (.picotPulseEnd (legIx n)) else s

/-- R352, R353. Whether a refresh is due at a boundary of leg `n`. -/
def State.picotDue (s : State) (n : Nat) : Bool :=
  s.bit (PWM_CFG_BOOT n) &&
    ((s.leg n).picotReq ||
      (match (s.leg n).hiSince with
        | some t => decide (us (s.rdN PWM_PICOT_MAXON) ≤ s.tick - t)
        | none => false))

/-- R345, R346. The transitions and the next boundary of the period that begins at `b`. -/
def State.planPeriod (s : State) (n b : Nat) (refresh : Bool) : State :=
  let dph := s.fld (PWM_STATUS_DPH n)
  let per := s.perSix n
  let duty := s.dutySix n
  let perU := placeSix per dph
  let s :=
    if duty = 0 then (if refresh then s else s.transition n false b)
    else if duty = per then (if refresh then s else s.transition n true b)
    else if s.bit (PWM_CFG_ALIGN n) then
      let rise := (per - duty) / 2
      let fall := rise + duty
      let s := if refresh then s else s.transition n false b
      (s.schedAt ((b + placeSix rise dph) / 8) (.pwmTransition (legIx n) true)).schedAt
        ((b + placeSix fall dph) / 8) (.pwmTransition (legIx n) false)
    else
      let s := if refresh then s else s.transition n true b
      s.schedAt ((b + placeSix duty dph) / 8) (.pwmTransition (legIx n) false)
  s.schedAt ((b + perU) / 8) (.pwmPeriodBoundary (legIx n))

/-- R345, R348, R352. A period boundary of leg `n`: the pending pair is loaded or split, a refresh may be inserted, and
the new period is planned. -/
def State.periodBoundary (s : State) (n : Nat) : State :=
  if s.fld (PWM_STATUS_STATE n) = legRun then
    let first := (s.leg n).starting
    let b := if first then (s.leg n).begin else (s.leg n).begin + placeSix (s.perSix n) (s.fld (PWM_STATUS_DPH n))
    let s := s.unsched (isPeriod n)
    let s := if first then s
      else (s.incr (PWM_PCNT n)).setF (PWM_STATUS_DPH n) ((s.fld (PWM_STATUS_DPH n) + 1) % 16)
    let s := s.updLeg n (fun l => { l with begin := b, starting := false })
    let s := if s.bit (PWM_STATUS_PEND n) then (if s.tagsEqual n then s.loadPair n else s.splitPair n) else s
    let refresh := s.picotDue n
    let s := if refresh then s.picotInsert n b else s
    s.planPeriod n b refresh
  else s

/-- R348. PWM_PERIOD_BOUNDARY. -/
def execPwmPeriodBoundary (n : Fin 12) (s : State) : Host.Outcome State Fault Refusal :=
  .next (s.periodBoundary n.val)

/-- R345, R346. The instant of a scheduled transition within the period in force. -/
def State.transitionTime (s : State) (n : Nat) (high : Bool) : Nat :=
  let dph := s.fld (PWM_STATUS_DPH n)
  let duty := s.dutySix n
  let rise := (s.perSix n - duty) / 2
  (s.leg n).begin +
    (if s.bit (PWM_CFG_ALIGN n) then placeSix (if high then rise else rise + duty) dph
     else if high then 0 else placeSix duty dph)

/-- R345. PWM_TRANSITION: an ideal transition of a leg in RUN. -/
def execPwmTransition (n : Fin 12) (high : Bool) (s : State) : Host.Outcome State Fault Refusal :=
  .next (if s.fld (PWM_STATUS_STATE n.val) = legRun then s.transition n.val high (s.transitionTime n.val high) else s)

/-- R352. After the low side of a refresh turns on, its pulse runs for PWM_PICOT_W. -/
def State.picotPulse (s : State) (n : Nat) (wasLow : Bool) : State :=
  if s.bit (PWM_STATUS_PICOT n) && !wasLow && s.sideOn n false then s.sched (s.rdN PWM_PICOT_W) (.picotPulseEnd (legIx n))
  else s

/-- R352. The refresh ends when the high side is on again. -/
def State.picotOver (s : State) (n : Nat) : State :=
  if s.bit (PWM_STATUS_PICOT n) && s.sideOn n true then s.setB (PWM_STATUS_PICOT n) false else s

/-- R350. The waiting side of a leg turns on at time `t` if it may, with the refresh that hangs on it. -/
def State.turnOnAt (s : State) (n t : Nat) : State :=
  let wasLow := s.sideOn n false
  ((s.tryTurnOn n t).picotPulse n wasLow).picotOver n

/-- R350. The waiting side of a leg turns on, on the tick grid, if it may. -/
def State.turnOnStep (s : State) (n : Nat) : State := s.turnOnAt n (s.tick * 8)

/-- R347, R350, R358. The dead time of a leg ends: an edge that only it has held keeps its placement. -/
def State.deadTimeOver (s : State) (n : Nat) : State :=
  if s.bit (PWM_STATUS_DTRUN n) then
    let s := s.setB (PWM_STATUS_DTRUN n) false
    if s.fld (PWM_STATUS_STATE n) = legStopping then s.stopEnd n else s.turnOnAt n (s.leg n).dtEnd
  else s

/-- R350. DEAD_TIME_END. -/
def execDeadTimeEnd (n : Fin 12) (s : State) : Host.Outcome State Fault Refusal :=
  .next (s.deadTimeOver n.val)

/-- R350, R351. A gate-off acknowledge changes: 1 stops the timer and may allow a turn-on; a side that is commanded off
and withdraws its acknowledge starts the timer. -/
def State.gateAck (s : State) (n : Nat) (high level : Bool) : State :=
  let s := s.setBit PWM_FBSTAT (if high then n else 12 + n) level
  if level then (((s.unsched (isAckTimeout n high)).turnOnStep n).ackLiveUpdate n)
  else if s.bit (PWM_CFG_HSK n) && !s.sideOn n high then s.startAck n high
  else s

/-- R350. GATE_ACK_INPUT. -/
def execGateAckInput (n : Fin 12) (high level : Bool) (s : State) : Host.Outcome State Fault Refusal :=
  .next (s.gateAck n.val high level)

/-- R351. The acknowledge of a side that is commanded off is missing for SELV_ACK_TMO: the leg's acknowledge source
becomes live and latches; the leg goes to all-off. -/
def State.ackTimeoutStep (s : State) (n : Nat) (high : Bool) : State :=
  if s.bit (PWM_CFG_HSK n) && !s.sideOn n high && !s.gateFb n high then
    (s.setSelvLive (36 + n) true).selvDecide (36 + n)
  else s

/-- R351. ACK_TIMEOUT. -/
def execAckTimeout (n : Fin 12) (high : Bool) (s : State) : Host.Outcome State Fault Refusal :=
  .next (s.ackTimeoutStep n.val high)

/-- R352, R353. BSUVn_N changes. With BOOT = 0 an assertion is the condition of the supply source; with BOOT = 1 it
requests a refresh while the high side is on. -/
def State.bsuvInput (s : State) (n : Nat) (asserted : Bool) : State :=
  let s := s.updLeg n (fun l => { l with bsuv := asserted })
  if asserted then
    if s.bit (PWM_CFG_BOOT n) then
      if s.sideOn n true then s.updLeg n (fun l => { l with picotReq := true }) else s
    else (s.setSelvLive (48 + n) true).selvDecide (48 + n)
  else
    let s := s.setSelvLive (48 + n) false
    (s.updLeg n (fun l => { l with supplyWait := false })).turnOnStep n

/-- R353. BSUV_INPUT. -/
def execBsuvInput (n : Fin 12) (asserted : Bool) (s : State) : Host.Outcome State Fault Refusal :=
  .next (s.bsuvInput n.val asserted)

/-- R353. 200 ns after a refresh with BSUV still asserted: the high side is not turned on again and the supply source's
condition holds. -/
def State.supplyCheck (s : State) (n : Nat) : State :=
  if (s.leg n).supplyWait && (s.leg n).bsuv then
    let s := s.updLeg n (fun l => { l with supplyWait := false, want := .none })
    ((s.setB (PWM_STATUS_PICOT n) false).setSelvLive (48 + n) true).selvDecide (48 + n)
  else s

/-- R353. PICOT_SUPPLY_CHECK. -/
def execPicotSupplyCheck (n : Fin 12) (s : State) : Host.Outcome State Fault Refusal :=
  .next (s.supplyCheck n.val)

/-- R352, R353. The refresh pulse ends: GLn turns off and GHn follows; with BSUV still asserted GHn waits for the supply
check 200 ns later. -/
def State.picotPulseOver (s : State) (n : Nat) : State :=
  if s.bit (PWM_STATUS_PICOT n) && s.sideOn n false then
    let s := s.turnOff n false (s.tick * 8 + (s.leg n).onSub)
    let hold := (s.leg n).bsuv
    let s := s.updLeg n (fun l => { l with want := .high, supplyWait := hold })
    let s := if hold then s.sched 100 (.picotSupplyCheck (legIx n)) else s
    s.turnOnStep n
  else s

/-- R352. PICOT_PULSE_END. -/
def execPicotPulseEnd (n : Fin 12) (s : State) : Host.Outcome State Fault Refusal :=
  .next (s.picotPulseOver n.val)

/-- Which scheduled steps are the decision of a Selvage source. -/
def isSelvDecision (src : Nat) : Instr → Bool
  | .selvageDecision k => k.val == src
  | _ => false

/-- R355. DSAT blanking ends: a DSAT input that is still high then runs through its filter. -/
def State.dsatBlankOver (s : State) (n : Nat) : State :=
  let s := s.updLeg n (fun l => { l with blank := false })
  if s.selv.pins.getLsbD (12 + n) then
    (s.unsched (isSelvDecision (12 + n))).sched (s.fld (SELV_LCFG_DSATFILT n) * 10)
      (.selvageDecision ⟨(12 + n) % 64, Nat.mod_lt _ (by decide)⟩)
  else s

/-- R355. DSAT_BLANK_END. -/
def execDsatBlankEnd (n : Fin 12) (s : State) : Host.Outcome State Fault Refusal :=
  .next (s.dsatBlankOver n.val)

/-! ### Selvage -/

/-- R354. A source condition holds after its filter: it is live, and it latches if it is enabled and not blanked. Source
60 is the request that FLT holds, source 61 names nothing by itself, source 63 is reserved. -/
def State.selvCondition (s : State) (src : Nat) : State :=
  if src = 63 ∨ src = 61 then s
  else if src = 60 then (if s.rdN FLT_SAFEHOLD = 0 then s else s.selvDecide 60)
  else
    let s := s.setSelvLive src true
    if 12 ≤ src ∧ src < 24 ∧ (s.leg (src - 12)).blank then s else s.selvDecide src

/-- R354. SELVAGE_DECISION. -/
def execSelvageDecision (src : Fin 64) (s : State) : Host.Outcome State Fault Refusal :=
  .next (s.selvCondition src.val)

/-- R354. Ticks of the filter of a source with an input of its own: FILTk or DSATFILT × 20 ns, 10 ns of FOC. -/
def State.selvFilter (s : State) (src : Nat) : Nat :=
  if src < 4 then bitsOf (s.rdN SELV_TRIPCFG) (8 * src) 8 * 10
  else if src < 24 then s.fld (SELV_LCFG_DSATFILT (src - 12)) * 10
  else 5

/-- R354. A TRIP, DSAT or FOC input is asserted: its condition holds after its filter. -/
def State.pinAssert (s : State) (src : Nat) : State :=
  let d := s.selvFilter src
  let s := s.unsched (isSelvDecision src)
  if d = 0 then s.selvCondition src else s.sched d (.selvageDecision ⟨src % 64, Nat.mod_lt _ (by decide)⟩)

/-- R354, R359. An input changes at its pin; SELV_LIVE follows after its filter, and an enabled source that holds then latches. -/
def State.selvInput (s : State) (src : Nat) (level : Bool) : State :=
  if 48 ≤ src then s.bsuvInput (src - 48) level
  else if src < 4 ∨ (12 ≤ src ∧ src < 36) then
    let s := s.updSelv (fun v => { v with pins := if level then v.pins ||| BitVec.twoPow 64 src else v.pins &&& ~~~ BitVec.twoPow 64 src })
    if level then s.pinAssert src else (s.unsched (isSelvDecision src)).setSelvLive src false
  else s

/-- R354, R359. SELVAGE_INPUT_CHANGE: a TRIP, DSAT, FOC or BSUV input changes at its pin. The comparators follow R301 and the
acknowledge sources have no input of their own. -/
def execSelvageInputChange (src : Fin 60) (level : Bool) (s : State) : Host.Outcome State Fault Refusal :=
  .next (s.selvInput src.val level)

/-- R354. A write has enabled sources that were not enabled in `old`; one whose condition already holds latches at the tick of the
enable. -/
def State.selvRecheck (s old : State) : State :=
  forN 60 (fun src t =>
    if t.selvLive src && !old.selvEnabled src && t.selvEnabled src
    then (if 12 ≤ src ∧ src < 24 ∧ (t.leg (src - 12)).blank then t else t.selvDecide src) else t) s

/-- R362. A wrong key: SELV_EVT.CFGREF. -/
def State.selvCfgRef (s : State) : State := s.evt SELV_EVT_CFGREF 0xB4 0xFF

/-- R359. A keyed write of SELV_FORCE is a decision of source 61; one that names nothing is none. -/
def State.selvForce (s : State) (w : Nat) : State :=
  if bitsOf w 16 16 ≠ 0xC1EA then s.selvCfgRef
  else
    let legs := bitsOf w 0 12
    let stack := bitOf w 12
    let brk := bitOf w 13
    if legs = 0 ∧ !stack ∧ !brk then s else s.selvTrip 61 legs stack brk

/-- R359. SELV_FORCE. -/
def execSelvForce (m : Master) (w : Word) (s : State) : Host.Outcome State Fault Refusal :=
  .next (s.gate m (fun s => s.selvForce w.toNat))

/-- R362. Whether a live source holds a latch: leg 0–11, 12 STACK, 13 BRK. -/
def State.selvHeld (s : State) (latch : Nat) : Bool :=
  (upto 63).any (fun src =>
    s.selvLive src && s.selvEnabled src &&
      (let a := s.selvActs src
       if latch < 12 then bitOf a.1 latch else if latch = 12 then a.2.1 else a.2.2))

/-- R362. Releases one latch and has its effects. -/
def State.selvRelease (s : State) (latch : Nat) : State :=
  if latch < 12 then
    let s := (s.setBit SELV_STATUS latch false).setF (PWM_STATUS_STATE latch) legOff
    (s.updLeg latch (fun l => { l with ackOff := false })).legSafe latch
  else if latch = 12 then s.setB SELV_STATUS_STACK false
  else
    let s := s.setB SELV_STATUS_BRK false
    if s.tick < s.selv.brkEnd then s else s.setB SELV_STATUS_BRKPIN false

/-- R362. A keyed write of SELV_CLR releases the requested latches that no live source holds; the others are refused. Under the
pad hold of R525 nothing is released. -/
def State.selvClear (s : State) (w : Nat) : State :=
  if s.selv.padHold then s
  else if bitsOf w 16 16 ≠ 0xC1EA then s.selvCfgRef
  else
    let want := (upto 14).filter (fun i => bitOf w i && s.rbit SELV_STATUS i)
    let held := want.filter s.selvHeld
    let s := (forL (want.filter (fun i => !held.contains i)) (fun i t => t.selvRelease i) s).updSafe
    if held.isEmpty then s else (s.count SELV_CLR_REFUSED).evt SELV_EVT_CLRREF 0xB4 0xFF

/-- R362. SELV_CLR. -/
def execSelvClr (m : Master) (w : Word) (s : State) : Host.Outcome State Fault Refusal :=
  .next (s.gate m (fun s => s.selvClear w.toNat))

/-- R360. BRK_MIN_EXPIRE: SELV_BRKMIN has elapsed; the pin follows the BRK latch. -/
def execBrkMinExpire (s : State) : Host.Outcome State Fault Refusal :=
  .next ((s.updSelv (fun v => { v with brkEnd := 0 })).setB SELV_STATUS_BRKPIN (s.bit SELV_STATUS_BRK))

end Sys2Proof.Machine
end

