-- ==== Sys2Proof/Machine/Thm.lean ====
section
/-!
DEFINITION. Thermal management as shared operations: sensor readings and their failure (R435–R437), the throttle step
(R438–R442), the stop level and the orderly stop (R444, R445) and ring 27 (R453).
-/

namespace Sys2Proof.Machine

/-- An event of THM_EVT: sources 0xC0–0xCA. -/
def State.evtThm (s : State) (f : Fld) (inst : Nat) : State := s.evt f 0xC0 inst

/-- A signed field of 16 bits. -/
def State.sfld (s : State) (f : Fld) : Int := toSigned 16 (s.fld f)

/-- R453. A record on ring 27. -/
def State.thmRecord (s : State) (ty sensor : Nat) : State :=
  (s.ringPut 27 (leBytes s.thm.recid 4 ++ leBytes ty 1 ++ leBytes (s.fld THM_STATUS_STEP) 1 ++ leBytes sensor 1 ++ leBytes 0 1 ++
    leBytes s.tick 8 ++ leBytes (s.fld THM_CTEMP_TC) 2 ++ leBytes (s.fld THM_DIE_TDIE) 2 ++ leBytes (s.fld THM_DIE_SLOPE) 2 ++
    leBytes (s.fld THM_LIMIT_LIM) 2 ++ leBytes s.ntm.sec 4 ++ leBytes s.ntm.ns 4)).updThm
    (fun t => { t with recid := (t.recid + 1) % 2 ^ 32 })

/-! ### The throttle step (R438–R442) -/

/-- R440. LIM of a step: 256 in step 0. -/
def State.stepLim (s : State) (k : Nat) : Nat := if k = 0 then 256 else min 256 (s.fld (THM_STEP_LIM (k - 1)))

/-- R440, R445. THM_LIMIT; an orderly stop forces LIM to 0. -/
def State.thmLimit (s : State) : State :=
  let k := s.fld THM_STATUS_STEP
  (s.setF THM_LIMIT_STEP k).setF THM_LIMIT_LIM (if s.bit THM_STATUS_STOP then 0 else s.stepLim k)

/-- R440. The throttle step changes. -/
def State.setStep (s : State) (k : Nat) : State :=
  let s := (s.setF THM_STATUS_STEP k).updThm (fun t => { t with stepTick := s.tick })
  let s := forN 16 (fun e t => t.setF (BOB_STATUS_THSTEP e) k) s
  s.thmLimit.thmRecord 0x01 0xFF

/-- R438. The sensors that TC is formed from. -/
def State.thmSensors (s : State) : List Nat :=
  (upto 24).filter (fun i => s.bit (THM_SCFG_EN i) && s.bit (THM_TEMP_VALID i) && !s.bit (THM_TEMP_FAIL i))

/-- R438. Reading plus OFS of a sensor. -/
def State.thmValue (s : State) (i : Nat) : Int := s.sfld (THM_TEMP_READ i) + s.sfld (THM_SCFG_OFS i)

/-- R442. The step is frozen. -/
def State.thmFreeze (s : State) (i : Nat) : State :=
  ((s.setB THM_STATUS_FROZEN true).evtThm THM_EVT_HOTFAIL i).thmRecord 0x03 i

/-- R438, R442. TC and the sensor that supplies it; without a sensor TC keeps its value and the step is frozen. -/
def State.thmTc (s : State) : State :=
  match s.thmSensors with
  | [] => if decide (0 < s.fld THM_STATUS_STEP) && !s.bit THM_STATUS_FROZEN then s.thmFreeze (s.fld THM_CTEMP_IDX) else s
  | i :: t =>
    let best := t.foldl (fun b k => if s.thmValue b < s.thmValue k then k else b) i
    let ofs : Int := if s.bit THM_STATUS_FROZEN then (s.rdN THM_FAIL_OFS % 65536 : Nat) else 0
    ((s.setF THM_CTEMP_TC (ofSigned 16 (satSigned 16 (s.thmValue best + ofs)))).setF THM_CTEMP_IDX best).setB THM_CTEMP_OFSAPPL
      (s.bit THM_STATUS_FROZEN)

/-- R439. The time spent in the step has reached its dwell. -/
def State.dwellOver (s : State) : Bool :=
  let k := s.fld THM_STATUS_STEP
  k == 0 || decide (ms (10 * s.fld (THM_STEP_DWELL (k - 1))) ≤ s.tick - s.thm.stepTick)

/-- R442. The hottest sensor of the last evaluation went out of use while no evaluation was made. -/
def State.hotGone (s : State) : State :=
  let i := s.fld THM_CTEMP_IDX
  if decide (0 < s.fld THM_STATUS_STEP) && !s.bit THM_STATUS_FROZEN && !s.thmSensors.contains i then s.thmFreeze i else s

/-- R439. The evaluation of TC: at most one change of the step. -/
def State.thmEvaluate (s : State) : State :=
  let s := s.hotGone.thmTc
  let k := s.fld THM_STATUS_STEP
  let tc := s.sfld THM_CTEMP_TC
  if k < s.fld THM_CTRL_NSTEP ∧ (s.fld (THM_STEP_TON k) * 16 : Nat) ≤ tc ∧ s.dwellOver = true then
    (s.setStep (k + 1)).evtThm THM_EVT_STEPUP 0xFF
  else if 0 < k ∧ s.bit THM_STATUS_FROZEN = false ∧
      tc < ((s.fld (THM_STEP_TON (k - 1)) : Int) - s.fld (THM_STEP_HYST (k - 1))) * 16 ∧ s.dwellOver = true then
    (s.setStep (k - 1)).evtThm THM_EVT_STEPDN 0xFF
  else s.thmLimit

/-- R439. Whether steps 1 to `n` ascend strictly in TON and do not increase in LIM. -/
def State.stepsOk (s : State) (n : Nat) : Bool :=
  (upto (n - 1)).all (fun i => decide (s.fld (THM_STEP_TON i) < s.fld (THM_STEP_TON (i + 1))) &&
    decide (s.stepLim (i + 2) ≤ s.stepLim (i + 1)))

/-- R439, R441. A write of NSTEP. -/
def State.thmNstep (s : State) (n : Nat) : State :=
  let n := min 8 n
  if s.stepsOk n then
    let s := s.setF THM_CTRL_NSTEP n
    if n < s.fld THM_STATUS_STEP then s.setStep n else s
  else s.evtThm THM_EVT_CFGREF 0xFF

/-- R441. A write of THM_CTRL. -/
def State.thmCtrl (s : State) (w : Nat) : State :=
  let en := bitOf w 0
  let s := if en && !s.bit THM_CTRL_EN then s.updThm (fun t => { t with stepTick := s.tick }) else s
  let s := (s.setB THM_CTRL_EN en).setB THM_CTRL_CELLEN (bitOf w 1)
  if bitsOf w 4 4 = s.fld THM_CTRL_NSTEP then s else s.thmNstep (bitsOf w 4 4)

/-- R442. A write of 1 to THM_ACK: TC is without the offset from now on. -/
def State.thmAck (s : State) : State :=
  if s.bit THM_STATUS_FROZEN then
    let s := (s.setB THM_STATUS_FROZEN false).setB THM_CTEMP_OFSAPPL false
    (if s.bit THM_CTRL_EN && !s.thmSensors.isEmpty then s.thmTc else s).thmRecord 0x04 0xFF
  else s

/-- R441, R442. The hottest sensor fails or loses its EN while the step is above 0. Without THM_CTRL.EN nothing follows until the
next evaluation. -/
def State.hotCheck (s : State) (i : Nat) : State :=
  if s.bit THM_CTRL_EN = true ∧ s.fld THM_CTEMP_IDX = i ∧ 0 < s.fld THM_STATUS_STEP ∧ s.bit THM_STATUS_FROZEN = false then
    (s.thmFreeze i).thmTc
  else s

/-- R442. A write of THM_SCFGi. -/
def State.thmScfg (s : State) (i w : Nat) : State :=
  let was := s.bit (THM_SCFG_EN i)
  let s := s.wrN (THM_SCFG i) (putBits w 16 15 0)
  if was && !bitOf w 31 then s.hotCheck i else s

/-! ### Readings (R435–R437) -/

/-- R437. A bad reading of a sensor; the third in a row fails it. -/
def State.thmBad (s : State) (i : Nat) : State :=
  if s.rbit THM_SFAIL i then s
  else
    let n := tget 0 s.thm.bad i + 1
    let s := s.updThm (fun t => { t with bad := tput 0 t.bad i (if 3 ≤ n then 0 else n) })
    if n < 3 then s
    else
      let s := (s.setBit THM_SFAIL i true).setB (THM_TEMP_FAIL i) true
      ((s.evtThm THM_EVT_SENSFAIL i).thmRecord 0x02 i).hotCheck i

/-- R437. A good reading: a failed sensor stays out of use until its THM_SFAIL bit has been cleared. -/
def State.thmGood (s : State) (i : Nat) (t : Int) : State :=
  if s.rbit THM_SFAIL i then s
  else
    let s := s.updThm (fun h => { h with bad := tput 0 h.bad i 0 })
    ((s.setF (THM_TEMP_READ i) (ofSigned 16 t)).setB (THM_TEMP_VALID i) true).setB (THM_TEMP_FAIL i) false

/-- R437. A reading of a diode or a thermistor in 1/16 °C; `bad` says that the sensor itself is at fault. -/
def State.thmReading (s : State) (i : Nat) (bad : Bool) (t : Int) : State :=
  let jump := match tget none s.thm.last i with
    | some p => decide (320 < (t - p).natAbs)
    | none => false
  let s' := s.updThm (fun h => { h with last := tput none h.last i (if bad then none else some t) })
  if bad || jump || decide (t < -880) || decide (2800 < t) then s'.thmBad i else s'.thmGood i t

/-- Twice the median of a list. -/
def median2 (l : List Int) : Int :=
  let sorted := l.foldl (fun acc x => acc.takeWhile (fun y => decide (y ≤ x)) ++ [x] ++ acc.dropWhile (fun y => decide (y ≤ x))) []
  let n := sorted.length
  sorted.getD ((n - 1) / 2) 0 + sorted.getD (n / 2) 0

/-- R437. Whether a die reading is bad: more than 15 K from the median of the other valid sensors, of which there are at
least two. -/
def State.dieBad (s : State) (rs : List Int) (k : Nat) : Bool :=
  let others := ((upto 8).filter (fun j => j != k && !s.rbit THM_SFAIL (16 + j) && !s.bit (THM_TEMP_FAIL (16 + j)))).map (fun j => rs.getD j 0)
  decide (2 ≤ others.length) && decide (480 < (2 * rs.getD k 0 - median2 others).natAbs)

/-- R436. The base-2 logarithm of a / b, both above 0, in units of 2^-`n`, by repeated squaring. -/
def log2Bits : Nat → Nat → Nat → Int → Int
  | 0, _, _, acc => acc
  | n + 1, x, one, acc =>
    let q := x * x / one
    if 2 * one ≤ q then log2Bits n (q / 2) one (2 * acc + 1) else log2Bits n q one (2 * acc)

/-- R436. log2 (a / b) in units of 2^-40. -/
def log2Q (a b : Nat) : Int :=
  let one := 2 ^ 62
  let x := a * 2 ^ 124 / max 1 b
  let e := Nat.log2 x
  log2Bits 40 (x * one / 2 ^ e) one 0 + ((e : Int) - 124) * 2 ^ 40

/-- R436. Temperature of a thermistor in 1/16 °C from its housekeeping code, BETA and RATIO (Q4.12); `none` where no
temperature follows (BETA or RATIO 0). Rounded to the nearest 1/16 K. -/
def ntcTemp (code beta ratio : Nat) : Option Int :=
  if beta = 0 ∨ ratio = 0 ∨ code = 0 ∨ 32768 ≤ code then none
  else
    -- ln(x / ((1 − x) RATIO)) = log2(…) × ln 2, with ln 2 in units of 2^-40
    let l : Rat := (log2Q (code * 4096) ((32768 - code) * ratio) : Int) * 762123384786 / ((2 ^ 80 : Nat) : Rat)
    let inv : Rat := 100 / 29815 + l / (beta : Nat)
    if inv ≤ 0 then none
    else
      let t : Rat := 1 / inv - 27315 / 100
      some ((t * 16 + 1 / 2).floor)

/-- R436, R437. A housekeeping result of thermistor `k`: its code, and whether it carries OVR, RECOV or REFNS. -/
def State.thmNtc (s : State) (k code : Nat) (flagged : Bool) : State :=
  let s := s.updThm (fun t => { t with fresh := t.fresh ||| BitVec.twoPow 8 k })
  if flagged then s
  else
    let edge := decide (code * 100 ≤ 2 * 32768) || decide (98 * 32768 ≤ code * 100)
    match ntcTemp code (s.fld (THM_NTC_BETA k)) (s.fld (THM_NTC_RATIO k)) with
    | some t => s.thmReading (8 + k) edge t
    | none => s.thmReading (8 + k) true 0

/-- R437. A housekeeping period of the thermistors in a mask ends: one without a new result for 3 periods reads bad. -/
def State.thmHkPeriod (s : State) (mask : Nat) : State :=
  let s := forL (bitsIn 8 mask) (fun k t =>
    if t.thm.fresh.getLsbD k then t.updThm (fun h => { h with stale := tput 0 h.stale k 0 })
    else
      let n := tget 0 t.thm.stale k + 1
      let t := t.updThm (fun h => { h with stale := tput 0 h.stale k n })
      if n < 3 then t else (if n = 3 then t.evtThm THM_EVT_HKSTALE (8 + k) else t).thmBad (8 + k)) s
  s.updThm (fun t => { t with fresh := 0 })

/-! ### Die temperature and the orderly stop (R444, R445) -/

/-- R445. An orderly stop starts. -/
def State.orderlyStop (s : State) : State :=
  if s.bit THM_STATUS_STOP then s
  else
    let tbrk := s.fld THM_STOPCFG_TBRK * 50000
    let s := (s.setB THM_STATUS_STOP true).thmLimit
    let s := (s.selvTrip 61 0 false true).evtThm THM_EVT_ORDERLY 0xFF
    let s := ((s.thmRecord 0x06 0xFF).sched tbrk .orderlyStopStack).sched (tbrk + 250000) .orderlyStopLegs
    (s.sched (ms 5) .orderlyStopEnd).sched 0 .ageSave

/-- R444. The immediate safe state. -/
def State.thmImmediate (s : State) : State :=
  let s := ((s.setB THM_STATUS_IMM true).setSelvLive 62 true).selvDecide 62
  (s.evtThm THM_EVT_IMMSAFE 0xFF).thmRecord 0x08 0xFF

/-- R444. What the unit does at the stop level. -/
def State.thmTest (s : State) : State :=
  let role := s.fld GLB_STATUS_ROLE
  let slope := s.sfld THM_DIE_SLOPE
  if 2 ≤ role then s
  else if 0 < slope ∧ (2160 - s.sfld THM_DIE_TDIE) * 16 < 5 * slope then s.thmImmediate
  else if role = 1 ∧ s.bit THM_STOPCFG_YIELD = true ∧ s.fld RDN_STATUS_STATE = 4 ∧ s.fld RDN_PSTAT_HSTAT % 32 = 0x1C then
    ((s.takeover.1).evtThm THM_EVT_YIELD 0xFF).thmRecord 0x09 0xFF
  else s.orderlyStop

/-- R444. The least-squares slope of samples (tick, 1/16 °C) in 1/256 K per ms. -/
def slopeOf (l : List (Nat × Int)) : Int :=
  match l with
  | [] => 0
  | h :: _ =>
    let n : Int := l.length
    let xs := l.map (fun e => ((e.1 : Int) - h.1, e.2))
    let st := xs.foldl (fun a e => a + e.1) 0
    let sy := xs.foldl (fun a e => a + e.2) 0
    let stt := xs.foldl (fun a e => a + e.1 * e.1) 0
    let sty := xs.foldl (fun a e => a + e.1 * e.2) 0
    let den := n * stt - st * st
    if den = 0 then 0 else satSigned 16 ((2 * (n * sty - st * sy) * 8000000 + den) / (2 * den))

/-- R444. TDIE, SLOPE and the stop level after a sample. -/
def State.dieLevel (s : State) : State :=
  match (((upto 8).map (fun k => 16 + k)).filter (fun i => s.bit (THM_TEMP_VALID i) && !s.bit (THM_TEMP_FAIL i))).map
      (fun i => s.sfld (THM_TEMP_READ i)) with
  | [] => s
  | x :: t =>
    let tdie := t.foldl max x
    let l := (s.thm.die ++ [(s.tick, tdie)]).filter (fun e => decide (s.tick ≤ e.1 + ms 1))
    let s := s.updThm (fun h => { h with die := l })
    let s := (s.setF THM_DIE_TDIE (ofSigned 16 tdie)).setF THM_DIE_SLOPE (ofSigned 16 (slopeOf l))
    let stop : Int := (s.fld THM_STOPCFG_TSTOP * 16 : Nat)
    if s.bit THM_STATUS_LVL = false ∧ stop ≤ tdie then
      (((s.setB THM_STATUS_LVL true).evtThm THM_EVT_STOPLVL 0xFF).thmRecord 0x05 0xFF).thmTest
    else if tdie < stop - 80 then
      let s := if s.bit THM_STATUS_IMM then (s.setB THM_STATUS_IMM false).setSelvLive 62 false else s
      s.setB THM_STATUS_LVL false
    else s

/-- R437, R444. A sample of the eight die sensors, in 1/16 °C. -/
def State.dieSample (s : State) (rs : List Int) : State :=
  let bads := (upto 8).map (fun k => s.dieBad rs k)
  (forN 8 (fun k t => if bads.getD k false then t.thmBad (16 + k) else t.thmGood (16 + k) (rs.getD k 0)) s).dieLevel

end Sys2Proof.Machine
end

