-- ==== Sys2Proof/Machine/Age.lean ====
section
/-!
DEFINITION. Ageing of the cells as shared operations: records (R450–R452), probes (R449), the life index and DERATE (R451),
saves (R452, R476), cell headroom (R443) and ring 25 (R453).
-/

namespace Sys2Proof.Machine

/-- An event of AGE_EVT: sources 0xD0–0xD7. -/
def State.evtAge (s : State) (f : Fld) (inst : Nat) : State := s.evt f 0xD0 inst

/-- A cell's record. -/
def State.ageRec (s : State) (id : Nat) : Option AgeRec := tget none s.age.recs id
def State.setAgeRec (s : State) (id : Nat) (r : Option AgeRec) : State :=
  (s.updAge (fun a => { a with recs := tput none a.recs id r })).setB (AGE_CELL_REC id) r.isSome

/-- L_cyc as Q0.32, saturating. -/
def AgeRec.lcycQ (r : AgeRec) : Nat := min 0xFFFFFFFF (r.lcyc / 2)

/-- R453. A record on ring 25 about a cell, a lane or neither (0xFF). -/
def State.ageRecord (s : State) (ty who : Nat) (a b : Nat) : State :=
  let cell := (ty == 1 || ty == 2 || ty == 5) && decide (who < 192)
  let dom := if cell then s.fld (AGE_CELL_DOM who) else 0
  let life := if cell then s.fld (AGE_CELL_LIFE who) else 0
  let derate := if cell then (s.tatCell who).derate else 0
  let lcyc := if cell then ((s.ageRec who).map AgeRec.lcycQ).getD 0 else 0
  (s.ringPut 25 (leBytes s.age.recid 4 ++ leBytes ty 1 ++ leBytes who 1 ++ leBytes dom 1 ++ leBytes 0 1 ++ leBytes s.tick 8 ++
    leBytes life 2 ++ leBytes derate 2 ++ leBytes a 2 ++ leBytes b 2 ++ leBytes s.ntm.sec 4 ++ leBytes lcyc 4)).updAge
    (fun t => { t with recid := (t.recid + 1) % 2 ^ 32 })

/-- R452. A cell's record restarts empty. -/
def State.ageRestart (s : State) (id uid : Nat) : State :=
  let s := s.setAgeRec id (some { uid })
  let s := (s.setF (AGE_CELL_LIFE id) 0).setF (AGE_CELL_DOM id) 0
  let s := s.updTatCell id (fun c => { c with life := 0, derate := 0 })
  (s.evtAge AGE_EVT_NEWCELL id).ageRecord 5 id 0 0

/-- R450, R452. The UID of a cell has been read. -/
def State.ageUid (s : State) (id uid : Nat) : State :=
  if s.bit AGE_CTRL_EN then
    match s.ageRec id with
    | some r => if r.uid = uid then s else s.ageRestart id uid
    | none => s.ageRestart id uid
  else s

/-! ### The life index (R451) -/

/-- R451. The terms of L: cycles, capacitance, ESR, on-state voltage. -/
def State.ageTerms (s : State) (r : AgeRec) : List Rat :=
  let cap : Rat := if r.c0 = 0 then 0 else (1 - r.cf / r.c0) * 1000 / (max 1 (s.fld AGE_EOLCFG_CAPEOL) : Nat)
  let esr : Rat := if r.esr0 = 0 then 0 else (r.esrf / r.esr0 - 1) * 100 / (max 1 (s.fld AGE_EOLCFG_ESREOL) : Nat)
  let von : Rat := if r.von0 = 0 then 0 else (r.vonf / r.von0 - 1) * 1000 / (max 1 (s.fld AGE_EOLCFG_VONEOL) : Nat)
  [((r.lcyc : Nat) : Rat) / ((2 ^ 33 : Nat) : Rat), max 0 cap, max 0 esr, max 0 von]

/-- The largest of a list and its index, the lowest index on a tie. -/
def maxAt : List Rat → Nat → Rat × Nat → Rat × Nat
  | [], _, b => b
  | x :: t, i, b => maxAt t (i + 1) (if b.1 < x then (x, i) else b)

/-- R451. LIFE and DOM of a cell. -/
def State.ageLife (s : State) (id : Nat) : State :=
  match s.ageRec id with
  | none => s
  | some r =>
    let m := maxAt (s.ageTerms r) 0 (-1, 0)
    let life := (min 4095 (roundR (4096 * m.1))).toNat
    let s := ((s.setF (AGE_CELL_LIFE id) life).setF (AGE_CELL_DOM id) m.2).updTatCell id (fun c => { c with life })
    if s.fld AGE_DRCFG_LSTART < life ∧ r.told = false then
      (s.setAgeRec id (some { r with told := true })).evtAge AGE_EVT_CELLLIFE id
    else s

/-- R451, R457. The target of DERATE for a LIFE. -/
def State.derateTarget (s : State) (life : Nat) : Int :=
  let full := s.fld AGE_DRCFG_LFULL
  let start := s.fld AGE_DRCFG_LSTART
  let dr := min 100 (s.fld AGE_DRCFG_DRMAX)
  if full ≤ start then (if start ≤ life then (dr : Nat) else 0)
  else clampInt 0 (dr : Nat) (roundR ((dr : Nat) * ((life : Int) - (start : Nat) : Int) / ((full - start : Nat) : Rat)))

/-- R451. DERATE of a cell moves towards its target by at most one unit. -/
def State.ageDerate (s : State) (id : Nat) : State :=
  if (s.ageRec id).isSome then
    let c := s.tatCell id
    let tgt := s.derateTarget c.life
    let d := clampInt ((c.derate : Int) - 1) ((c.derate : Int) + 1) tgt
    s.updTatCell id (fun c => { c with derate := d.toNat })
  else s

/-! ### Images (R450) -/

/-- R450. The bin of a swing in 0.1 K; none below 2 K. -/
def cycBin (d : Nat) : Option Nat :=
  if d < 20 then none else if d < 50 then some 0 else if d < 100 then some 1 else if d < 200 then some 2
  else if d < 300 then some 3 else if d < 400 then some 4 else if d < 600 then some 5 else if d < 800 then some 6 else some 7

/-- R450. A half-cycle of a swing adds half of the bin's damage. -/
def State.ageHalf (s : State) (r : AgeRec) (d : Nat) : AgeRec :=
  match cycBin d with
  | none => r
  | some b => { r with bins := r.bins.set b (r.bins.getD b 0 + 1), lcyc := r.lcyc + s.rdN (AGE_BIND b) }

/-- R450. TSW turning points with hysteresis. -/
def State.ageTsw (s : State) (r : AgeRec) (first : Bool) (t : Int) : AgeRec :=
  let h : Int := (clampNat 10 100 (s.fld AGE_CYCCFG_HYST) : Nat)
  if first then { r with turn := t, ext := t }
  else if r.dir = 0 then
    if r.turn + h ≤ t then { r with dir := 1, ext := t } else if t ≤ r.turn - h then { r with dir := 2, ext := t } else r
  else if r.dir = 1 then
    if r.ext < t then { r with ext := t }
    else if t ≤ r.ext - h then { s.ageHalf r (r.ext - r.turn).natAbs with turn := r.ext, ext := t, dir := 2 }
    else r
  else if t < r.ext then { r with ext := t }
  else if r.ext + h ≤ t then { s.ageHalf r (r.ext - r.turn).natAbs with turn := r.ext, ext := t, dir := 1 }
  else r

/-- R450. The on-state voltage of an image taken near the reference current and temperature. -/
def State.ageVon (s : State) (r : AgeRec) (iarm tsw : Int) (von : Nat) : AgeRec :=
  let iref := s.fld AGE_VONCFG_IREF
  let tref : Int := (s.fld AGE_VONCFG_TREF * 10 : Nat)
  if decide (iref * 9 ≤ iarm.natAbs * 10) && decide (iarm.natAbs * 10 ≤ iref * 11) && decide ((tsw - tref).natAbs ≤ 50) then
    let f : Rat := if r.vons = 0 then (von : Nat) else r.vonf + (((von : Nat) : Rat) - r.vonf) / 256
    { r with vonf := f, vons := r.vons + 1, von0 := if r.vons + 1 = 256 then f else r.von0 }
  else r

/-- R449. A probe fails. -/
def State.probeFail (s : State) (id : Nat) : State :=
  ((s.count AGE_PRBFAIL).updAge (fun a => { a with pend := tput none a.pend id none })).setB (AGE_CELL_PRBPEND id) false
    |>.evtAge AGE_EVT_PRBFAIL id

/-- R449, R450. A probe result has come back. -/
def State.probeResult (s : State) (id res : Nat) : State :=
  match tget none s.age.pend id with
  | none => s
  | some p =>
    if res / 2 ^ 28 % 16 = p.tag then
      let c := bitsOf res 16 12
      if c = 0 then s.probeFail id
      else
        let esr := bitsOf res 0 16
        let s := (s.updAge (fun a => { a with pend := tput none a.pend id none })).setB (AGE_CELL_PRBPEND id) false
        match s.ageRec id with
        | none => s
        | some r =>
          let first := r.probes == 0
          let cq : Rat := (c : Nat)
          let eq : Rat := (esr : Nat)
          let r := { r with probes := r.probes + 1
                            c0 := if first then cq else r.c0, esr0 := if first then eq else r.esr0
                            cf := if first then cq else r.cf + (cq - r.cf) / 8, esrf := if first then eq else r.esrf + (eq - r.esrf) / 8 }
          ((s.setAgeRec id (some r)).ageLife id).ageRecord 1 id (res % 65536) (res / 65536)
    else s

/-- R450. A fresh image of a cell with a record. -/
def State.ageImage (s : State) (id : Nat) : State :=
  let s := if s.bit AGE_CTRL_EN then
      match s.ageRec id with
      | none => s
      | some r =>
        let tsw := s.up id 0x12 2
        if tsw = 0x8000 then s
        else
          let t := toSigned 16 tsw
          let r := { s.ageTsw r (!r.seen) t with seen := true }
          s.setAgeRec id (some (s.ageVon r (toSigned 16 (s.up id 0x0C 2)) t (s.up id 0x18 2)))
    else s
  s.probeResult id (s.up id 0x24 4)

/-! ### Probes (R449) -/

/-- R449. The cell that an AGE_PROBE names: itself, or the next participating cell in rotation. -/
def State.probeCell (s : State) (target : Nat) : Option Nat :=
  if target = 0xFF then
    ((upto 192).map (fun k => (s.age.lastCell + 1 + k) % 192)).find? (fun id => s.participates (s.phaseOf id) id)
  else some target

/-- R449. An AGE_PROBE action. -/
def State.ageProbe (s : State) (target params : Nat) : State :=
  if s.standby || !s.bit AGE_CTRL_PRBEN then s
  else
    match s.probeCell target with
    | none => ((s.count AGE_PRBFAIL).evtAge AGE_EVT_PRBFAIL 0xFF)
    | some id =>
      let n := s.age.probeCnt + 1
      let step := if bitsOf params 16 8 = 0 then s.fld AGE_PRBCFG_STEP else bitsOf params 16 8
      let dur := if bitsOf params 0 16 = 0 then s.fld AGE_PRBCFG_DUR else bitsOf params 0 16
      let w := 2 ^ 31 + n % 16 * 2 ^ 24 + step * 2 ^ 16 + dur
      s.updAge (fun a => { a with probeCnt := n, lastCell := if target = 0xFF then id else a.lastCell, want := a.want ++ [(id, w)] })

/-- R449. Whether a probe of a cell can be placed at this latch. -/
def State.probeOk (s : State) (id : Nat) : Bool :=
  decide (id < 192) && s.participates (s.phaseOf id) id && (s.stCell id).mode != 3 && (tget none s.age.pend id).isNone &&
    decide (s.fld GLB_STATUS_ROLE ≤ 1)

/-- R449. The probes of a latch are placed in the sets of its window. -/
def State.placeProbes (s : State) : State :=
  let want := s.age.want
  let s := (s.updAge (fun a => { a with want := [] })).updCel (fun t => { t with probe := [] })
  forL want (fun e t =>
    if t.probeOk e.1 then
      let left := max 10 (t.fld AGE_PRBCFG_TMO) + (if t.bit GLB_CYCCFG_PIPE then 2 else 1)
      ((t.updCel (fun c => { c with probe := c.probe ++ [e] })).updAge
        (fun a => { a with pend := tput none a.pend e.1 (some ⟨e.2 / 2 ^ 24 % 16, left⟩) })).setB (AGE_CELL_PRBPEND e.1) true
    else (t.count AGE_PRBFAIL).evtAge AGE_EVT_PRBFAIL e.1) s

/-- R449. A control cycle passes for the probes that are outstanding. -/
def State.probeCycle (s : State) : State :=
  forL s.age.pend (fun e t =>
    match e.2 with
    | none => t
    | some p =>
      let t := t.updAge (fun a => { a with pend := tput none a.pend e.1 (some { p with left := p.left - 1 }) })
      if p.left ≤ 1 then t.sched 0 (.probeTimeout ⟨e.1 % 192, Nat.mod_lt _ (by decide)⟩) else t) s

/-! ### Saves (R452, R476) -/

/-- R476. The records as they are saved: record, LIFE, DERATE. -/
def State.ageTable (s : State) : List (Nat × AgeRec × Nat × Nat) :=
  (upto 192).filterMap (fun id => (s.ageRec id).map (fun r => (id, r, s.fld (AGE_CELL_LIFE id), (s.tatCell id).derate)))

/-- R476. AGE_STATUS.SAVING and NVM_STATUS.THWRITE while a save is being written. -/
def State.setSaving (s : State) (x : Option SaveRun) : State :=
  ((s.updAge (fun a => { a with saving := x })).setB AGE_STATUS_SAVING x.isSome).setB NVM_STATUS_THWRITE x.isSome

/-- R452, R476. A save begins in the area that SEQ gives, whose earlier save its header line overwrites. It fails while no MRAM
line may start (R446). -/
def State.ageSave (s : State) : State :=
  if s.age.saving.isSome then s
  else if s.bit NVM_STATUS_HALT then s.evtAge AGE_EVT_SAVEFAIL 0xFF
  else
    let q := s.age.saveSeq
    (s.updAge (fun a => if q % 2 = 0 then { a with saveA := none, cutA := true } else { a with saveB := none, cutB := true })).setSaving
      (some ⟨s.tick, q, s.ageTable⟩)

/-- R476. The lines of a save: a header line, two lines for each record, 14 lines of AGE's own state and the commit line. -/
def saveLines (t : List (Nat × AgeRec × Nat × Nat)) : Nat := 16 + 2 * t.length

/-- R474–R476. A save in progress, one line in 120 ns: it is valid with its commit line, and it is discarded if line writes halt
before. -/
def State.saveTick (s : State) : State :=
  match s.age.saving with
  | none => s
  | some ⟨t0, q, t⟩ =>
    let n := saveLines t
    if s.bit NVM_STATUS_HALT then
      ((s.wrN NVM_WRLINES (s.rdN NVM_WRLINES + min n ((s.tick - t0) / 60 + 1))).setSaving none).evtAge AGE_EVT_SAVEFAIL 0xFF
    else if t0 + 60 * n ≤ s.tick then
      ((s.wrN NVM_WRLINES (s.rdN NVM_WRLINES + n)).updAge (fun a => { a with
        saveSeq := (q + 1) % 2 ^ 32
        saveA := if q % 2 = 0 then some (q, t) else a.saveA, cutA := a.cutA && q % 2 != 0
        saveB := if q % 2 = 1 then some (q, t) else a.saveB, cutB := a.cutB && q % 2 != 1 })).setSaving none
    else s

/-- R477. The valid save with the higher SEQ. -/
def AgeSt.newest (a : AgeSt) : Option (Nat × List (Nat × AgeRec × Nat × Nat)) :=
  match a.saveA, a.saveB with
  | some x, some y => if (x.1 + 2 ^ 32 - y.1) % 2 ^ 32 < 2 ^ 31 then some x else some y
  | some x, none => some x
  | none, b => b

/-- R477. The interrupted saves found at boot are discarded and counted. -/
def State.saveScan (s : State) : State :=
  let n := (if s.age.cutA then 1 else 0) + (if s.age.cutB then 1 else 0)
  if n = 0 then s else (s.countN NVM_JDISCARD n).evt NVM_EVT_JDISCARD 0xE8 0xFF

/-- R452, R477. The records are restored after a power-on reset. -/
def State.ageRestore (s : State) : State :=
  let s := s.saveScan
  match s.age.newest with
  | none => s
  | some (q, t) =>
    let s := s.updAge (fun a => { a with saveSeq := (q + 1) % 2 ^ 32 })
    forL t (fun e u =>
      ((u.setAgeRec e.1 (some e.2.1)).setF (AGE_CELL_LIFE e.1) e.2.2.1).updTatCell e.1 (fun c => { c with life := e.2.2.1, derate := e.2.2.2 })) s

/-! ### Cell headroom (R443) -/

/-- R443. HEAD of a cell from its three temperatures; none if all are missing. The fraction is cut to a whole number. -/
def State.headOf (s : State) (id : Nat) : Option Nat :=
  let span := max 1 (s.fld THM_CELLCFG_SPAN)
  let term (off lim : Nat) : List Int :=
    let v := s.up id off 2
    if v = 0x8000 then [] else [(lim * 10 : Nat) - toSigned 16 v]
  match term 0x12 (s.fld THM_CELLCFG_TSW) ++ term 0x14 (s.fld THM_CELLCFG_TCAP) ++ term 0x16 (s.fld THM_CELLCFG_THS) with
  | [] => none
  | x :: t => some (clampInt 0 4095 (4096 * t.foldl min x / (span * 10 : Nat))).toNat

/-- R443. HEAD of every cell whose image was refreshed in this cycle. -/
def State.headroom (s : State) : State :=
  if s.bit THM_CTRL_CELLEN then
    forL ((upto 192).filter (fun id => s.cstat id != csAbsent && s.up id 0x36 1 == 0)) (fun id t =>
      match t.headOf id with
      | some h => t.updTatCell id (fun c => { c with head := h })
      | none => (t.updTatCell id (fun c => { c with head := 0 })).evtThm THM_EVT_CELLTFAIL id) s
  else s

end Sys2Proof.Machine
end

