-- ==== Sys2Proof/Machine/Frames.lean ====
section
/-!
DEFINITION. Henlink and Shuttle frames: CRC, header, parsing with the checks of R216, sequence numbers of the streams the
unit sends, cell time, and the frames that the unit builds (R213–R226, R250, R401, R403, R405).
-/

namespace Sys2Proof.Machine

/-! ### CRC-32 (R215) -/

/-- One bit of the reflected CRC-32 of polynomial 0x04C1_1DB7. -/
def crcBit (c : Nat) : Nat := if c % 2 = 1 then c / 2 ^^^ 0xEDB88320 else c / 2

/-- One byte of the CRC-32. -/
def crcByte (c : Nat) (b : Byte) : Nat :=
  let c := c ^^^ b.toNat
  crcBit (crcBit (crcBit (crcBit (crcBit (crcBit (crcBit (crcBit c)))))))

/-- R215. The CRC-32 of a byte list. -/
def crc32 (l : List Byte) : Nat := l.foldl crcByte 0xFFFFFFFF ^^^ 0xFFFFFFFF

/-! ### Frames (R214) -/

/-- R214. A frame as its fields. -/
structure Frame where
  ty : Nat
  ver : Nat
  dst : Nat
  src : Nat
  flags : Nat
  seq : Nat
  payload : List Byte
deriving DecidableEq, Repr

/-- R214, R217. Frame types. -/
def ftSync : Nat := 0x1
def ftDown : Nat := 0x2
def ftUp : Nat := 0x3
def ftMgmtReq : Nat := 0x4
def ftMgmtRsp : Nat := 0x5
def ftClaim : Nat := 0x6
def ftClaimRsp : Nat := 0x7
def ftHbt : Nat := 0x8
def ftNak : Nat := 0x9
def ftTrain : Nat := 0xA
def ftEnum : Nat := 0xB
def ftDelayReq : Nat := 0xC
def ftDelayRsp : Nat := 0xD
def ftState : Nat := 0xE
def ftTunnel : Nat := 0xF

/-- R214. The bytes of a frame between SOF and EOF. -/
def Frame.bytes (f : Frame) : List Byte :=
  let h := leBytes (f.ty * 16 + f.ver) 1 ++ leBytes f.dst 1 ++ leBytes f.src 1 ++ leBytes f.flags 1 ++ leBytes f.seq 2 ++
    leBytes f.payload.length 2 ++ f.payload
  h ++ leBytes (crc32 h) 4

/-- A little-endian field of a byte list. -/
def fieldAt (l : List Byte) (off n : Nat) : Nat := leNat ((l.drop off).take n)

/-- R216. Steps 2 to 4 of the checks of a received frame: the frame, or the NAK code of the first failure (R251). -/
def parseFrame (maxLen : Nat) (l : List Byte) : Frame ⊕ Nat :=
  let len := fieldAt l 6 2
  if l.length < 12 ∨ maxLen < len ∨ l.length ≠ len + 12 then .inr 0x03
  else if crc32 (l.take (len + 8)) ≠ fieldAt l (len + 8) 4 then .inr 0x01
  else if fieldAt l 0 1 % 16 ≠ 2 then .inr 0x07
  else .inl ⟨fieldAt l 0 1 / 16, 2, fieldAt l 1 1, fieldAt l 2 1, fieldAt l 3 1, fieldAt l 4 2, (l.drop 8).take len⟩

/-! ### The unit (R209, R214, R398, R406) -/

/-- R214, R398. FLAGS.UNITB of this unit's frames. -/
def State.unitFlag (s : State) : Nat := if s.bit RDN_CFG_UNITB then 32 else 0

/-- R210. The address of the controller. -/
def addrUnit : Nat := 0xF0

/-- R268. A lane in LINK. -/
def State.laneLink (s : State) (l : Nat) : Bool := s.fld (LNK_STATUS_STATE l) == 4

/-- R259, R262. A chain that carries Henlink, and one that can send now. -/
def State.chainOn (s : State) (c : Nat) : Bool := s.bit CEL_CTRL_EN && s.bit (CEL_CHCFG_EN c)
def State.chainUp (s : State) (c : Nat) : Bool := s.chainOn c && s.laneLink c

/-- R263. Nanoseconds of a character on a lane. -/
def State.charNs (s : State) (l : Nat) : Nat := 8 / 2 ^ (min 2 (s.fld (LNK_CTRL_RATE l)))

/-- R157, R406. Cell time in units of 2^-16 tick. -/
def State.cellTime (s : State) : Nat := (s.cellTimeAt 0).toNat

/-- R226. Cell time in units of 2^-16 ns, modulo 2^64. -/
def State.cellTimeNs (s : State) : Nat := s.cellTime * 2 % 2 ^ 64

/-! ### Sequence numbers (R250) -/

/-- The streams that the unit sends: kind and chain or cell. -/
def stSync (c : Nat) : Nat := c
def stDown (id : Nat) : Nat := 1024 + id
def stMgmt (chain cell : Nat) : Nat := 2048 + (if cell < 192 then cell else 512 + chain)
def stHbt (c : Nat) : Nat := 3072 + c
def stClaim (c : Nat) : Nat := 4096 + c
def stEnum (c : Nat) : Nat := 5120 + c
def stDelay (id : Nat) : Nat := 6144 + id
def stNak (id : Nat) : Nat := 7168 + id

/-- The streams of the Shuttle link: per type. -/
def stShuttle (ty : Nat) : Nat := 8192 + ty

/-- The next SEQ of a stream. -/
def State.nextSeq (s : State) (k : Nat) : Nat × State :=
  let n := (tget 0 s.cel.txSeq k + 1) % 65536
  (n, s.updCel (fun t => { t with txSeq := tput 0 t.txSeq k n }))

/-- R250. The signed distance of a SEQ from the last one accepted on a stream; 1 on the first frame of a stream and with
SEQINIT. -/
def State.seqDist (s : State) (k : Nat) (f : Frame) : Int :=
  match tget none s.cel.rxSeq k with
  | none => 1
  | some l => if bitOf f.flags 3 then 1 else toSigned 16 (f.seq + 65536 - l)

/-- R250. A SEQ is accepted on a stream. -/
def State.seqTake (s : State) (k seq : Nat) : State :=
  s.updCel (fun t => { t with rxSeq := tput none t.rxSeq k (some seq) })

/-! ### Delay measurement (R230, R231) -/

/-- R230, R231. The internal delay measurement of a cell. -/
def State.dly (s : State) (id : Nat) : Dly := tget {} s.cel.dly id
def State.updDly (s : State) (id : Nat) (f : Dly → Dly) : State :=
  s.updCel (fun t => { t with dly := tput {} t.dly id (f (tget {} t.dly id)) })

/-! ### Departure (R213, R218, R226, R275, R402) -/

/-- A frame with payload bytes replaced from an offset on, and its CRC (R215). -/
def reframe (b : List Byte) (off : Nat) (d : List Byte) : List Byte :=
  let h := b.take (8 + off) ++ d ++ (b.take (b.length - 4)).drop (8 + off + d.length)
  h ++ leBytes (crc32 h) 4

/-- R157, R218, R403. CSEC, CTICK and CFRAC of this tick. -/
def State.cellStamp (s : State) : List Byte :=
  let ct := s.cellTime
  leBytes (ct / 65536 / 500000000) 4 ++ leBytes (ct / 65536 % 500000000) 4 ++ leBytes (ct % 65536) 2

/-- R218. The payload of SYNC on a chain that departs at this tick. -/
def State.syncPayload (s : State) (c : Nat) : List Byte :=
  let u0 := s.rdN HOOP_H0TURNS * 2 ^ 32 + s.h0Ang
  let th := s.nextCycle u0
  let step := max 1 s.hoop.h0.step
  let smp := ((th - u0) * 2 ^ 32 * 2 + step) / (2 * step)
  let tcyc := ((s.nextCycle th - th) * 2 ^ 32 * 2 + step) / (2 * step)
  let tflags := s.rdN NTM_STEPCNT % 16 * 16 + (if s.bit GLB_CYCCFG_PIPE then 8 else 0) +
    (if s.fld NTM_STATUS_STATE = 3 then 4 else 0) + (if s.fld NTM_STATUS_STATE = 2 then 2 else 0)
  let snap := match tget none s.cel.snaps c with
    | some k => 2 ^ 15 + k.1 % 128 * 2 ^ 8 + k.2 % 256
    | none => 0
  s.cellStamp ++ leBytes tflags 1 ++ leBytes (s.fld CEL_HOLDMAX_MS) 1 ++ leBytes 0 4 ++ leBytes (s.rdN CEL_EPOCH) 4 ++ leBytes s.ntm.sec 6 ++ leBytes s.ntm.ns 4 ++
    leBytes tcyc 2 ++ leBytes smp 4 ++ leBytes s.h0Ang 4 ++ leBytes s.hoop.h0.step 8 ++ leBytes (s.fld CEL_UPWIN_WIN) 2 ++
    leBytes snap 2 ++ leBytes (s.rdN GLB_CYCCNT) 4

/-- R218, R226, R403. The bytes of a frame that departs at this tick, and what the unit keeps of it. -/
def State.txFill (s : State) (i : TxItem) : State × List Byte :=
  match i.stamp with
  | .plain => (s, i.bytes)
  | .sync c heal =>
    let t := if heal then s.wr CEL_EPOCH (s.rd RDN_PEPOCH) else s
    (s.updCel (fun t => { t with snaps := tput none t.snaps c none }), reframe i.bytes 0 (t.syncPayload c))
  | .t1 id => (s.updDly id (fun d => { d with t1 := some s.cellTimeNs }), reframe i.bytes 0 (leBytes s.cellTimeNs 8))
  | .shT1 => (s.updRdn (fun r => { r with shT1 := some s.cellTimeNs }), reframe i.bytes 0 (leBytes s.cellTimeNs 8))
  | .t3 => (s, reframe i.bytes 16 (leBytes s.cellTimeNs 8))
  | .hbt => (s, reframe i.bytes 12 (s.cellStamp ++ leBytes 0 2 ++ leBytes s.h0Ang 4))
  | .snapEnd => (s.updRdn (fun r => { r with snapSent := true }), i.bytes)
  | .deltaEnd gen => (s.wrN RDN_DSEQ gen, i.bytes)

/-- R213. Ticks that a frame of `n` bytes takes of a lane: SOF, EOF and an idle ordered set with it. -/
def State.frameTicks (s : State) (l n : Nat) : Nat := (n + 4) * s.charTicks l

/-- R213. The frame at the front of a lane's queue departs, if the transmitter is free. -/
def State.txGo (s : State) (l : Nat) : State :=
  match (s.lane l).queue with
  | [] => s
  | i :: rest =>
    if (s.lane l).txFree ≤ s.tick then
      let r := (s.updLane l (fun t => { t with queue := rest, txFree := s.tick + s.frameTicks l i.bytes.length })).txFill i
      r.1.emit (.frame l r.2)
    else s

/-- R402. A frame enters a queue behind those of its class and of the classes before it. -/
def txInsert (i : TxItem) : List TxItem → List TxItem
  | [] => [i]
  | x :: t => if x.cls ≤ i.cls then x :: txInsert i t else i :: x :: t

/-- R275. A frame for a lane: only a lane in LINK carries it, else it is dropped and counted. -/
def State.sendOn (s : State) (lane : Nat) (i : TxItem) : State :=
  if s.laneLink lane then (s.updLane lane (fun t => { t with queue := txInsert i t.queue })).txGo lane
  else s.count (LNK_TXDROP lane)

/-- R275. A lane that leaves LINK drops its queue and counts the frames in it. -/
def State.txFlush (s : State) (l : Nat) : State :=
  (s.countN (LNK_TXDROP l) (s.lane l).queue.length).updLane l (fun t => { t with queue := [] })

/-- R227. Whether a frame of `n` payload bytes queued on a chain now departs by the end of the slot for requests. The tunnel of R421
knows no such slot. -/
def State.fits (s : State) (c n : Nat) (tunnel : Bool) : Bool :=
  tunnel ||
    match s.cel.slotEnd with
    | none => true
    | some e =>
      decide ((s.lane c).queue.foldl (fun x i => x + s.frameTicks c i.bytes.length) (max s.tick (s.lane c).txFree) + (n + 14) * s.charTicks c ≤ e)

/-! ### Sending -/

/-- R421. Whether the frames for a cell go through the tunnel. -/
def State.viaTunnel (s : State) (id : Nat) : Bool := s.rbit RDN_HEAL (id / 8) && s.cel.tunneled.contains id

/-- R402. The Shuttle lane that carries a frame of any class: LN24, or LN25 while only it is in LINK. -/
def State.shuttleLane (s : State) : Nat := if !s.laneLink 24 && s.laneLink 25 then 25 else 24

/-- R402. The classes of Shuttle frames. -/
def clHbt : Nat := 1
def clTunnel : Nat := 2
def clDelta : Nat := 3
def clSnap : Nat := 4
def clDelay : Nat := 5

/-- R401, R402. Sends a Shuttle frame on a lane. -/
def State.sendShuttle (s : State) (lane ty cls : Nat) (stamp : TxStamp) (payload : List Byte) : State :=
  let q := s.nextSeq (stShuttle ty)
  q.2.sendOn lane ⟨cls, stamp, Frame.bytes ⟨ty, 2, addrUnit, addrUnit, s.unitFlag, q.1, payload⟩⟩

/-- R405, R421. Sends a chain frame through the tunnel. -/
def State.sendTunnel (s : State) (chain dir : Nat) (inner : List Byte) : State :=
  s.sendShuttle s.shuttleLane ftTunnel clTunnel .plain
    (leBytes chain 1 ++ leBytes dir 1 ++ leBytes 0 2 ++ leBytes (s.rdN GLB_CYCCNT) 4 ++ leBytes 0 8 ++ inner)

/-- R214. FLAGS of a frame that the partner injects at the far end for this unit. -/
def flagHeal : Nat := 16

/-- R214, R421. Sends a frame of a stream on a chain, or through the tunnel with HEAL set. -/
def State.sendChain (s : State) (chain : Nat) (tunnel : Bool) (stamp : TxStamp) (ty dst flags seq : Nat) (payload : List Byte) : State :=
  let b := Frame.bytes ⟨ty, 2, dst, addrUnit, s.unitFlag + flags + (if tunnel then flagHeal else 0), seq, payload⟩
  if tunnel then s.sendTunnel chain 0 b else s.sendOn chain { stamp, bytes := b }

/-- R214, R250. Sends the next frame of a stream on a chain. -/
def State.sendNext (s : State) (k chain : Nat) (tunnel : Bool) (stamp : TxStamp) (ty dst : Nat) (payload : List Byte) : State :=
  let q := s.nextSeq k
  q.2.sendChain chain tunnel stamp ty dst 0 q.1 payload

/-- R404. HSTAT of this unit. -/
def State.hstat (s : State) : Nat :=
  let active := s.fld GLB_STATUS_ROLE == 1
  (if s.rdN SELV_STATUS % 4096 != 0 || s.bit SELV_STATUS_STACK || s.bit SELV_STATUS_BRK then 1 else 0) +
    (if s.bit FLT_STATUS_FATAL then 2 else 0) + (if active || s.bit RDN_STATUS_STATEOK then 4 else 0) +
    (if active || s.bit RDN_STATUS_TESTOK then 8 else 0) + (if active || s.bit RDN_STATUS_CTLOCK then 16 else 0) +
    (if s.bit GLB_STATUS_NTMLOCK then 32 else 0)

/-- R223. HBT on a chain, in a pair. -/
def State.sendHbt (s : State) (c : Nat) : State :=
  if s.bit RDN_CTRL_EN then
    s.sendNext (stHbt c) c false .plain ftHbt addrUnit
      (leBytes (s.rdN CEL_EPOCH) 4 ++ leBytes (s.rdN GLB_CYCCNT) 4 ++ leBytes (s.fld GLB_STATUS_ROLE) 1 ++ leBytes s.hstat 1 ++ leBytes 0 2)
  else s

end Sys2Proof.Machine
end

