-- ==== Sys2Proof/Machine/Henlink.lean ====
section
/-!
DEFINITION. The Henlink protocol as shared operations: violations and NAKs (R216, R251, R252), management requests (R221),
cell states and admission (R238), delay measurement (R230, R231), upstream images (R228, R255), enumeration (R235, R236),
claims (R242) and what leaves at the departure mark (R227).
-/

namespace Sys2Proof.Machine

/-- An event of CEL_EVT: sources 0x80–0x8A. -/
def State.evtCel (s : State) (f : Fld) (inst : Nat) : State := s.evt f 0x80 inst

/-! ### Status (R31, R259) -/

/-- R31, R268. All configured lanes (at least one) in LINK, and all mapped nodes admitted or HELD. -/
def State.lanesOk (s : State) : Bool :=
  let lanes := (upto 26).filter (fun l => s.bit (LNK_CTRL_EN l))
  !lanes.isEmpty && lanes.all s.laneLink &&
    (upto 192).all (fun id => s.memN (cellMap id) 4 < 2 ^ 31 || s.cstat id == csAdmitted || s.cstat id == csHeld)

/-- R31, R259. The status bits that follow from chains, lanes and cells. -/
def State.celStatus (s : State) : State :=
  let on := (upto 24).filter (fun c => s.bit (CEL_CHCFG_EN c))
  let s := s.setB CEL_STATUS_RUN (s.bit CEL_CTRL_EN)
  let s := s.setB CEL_STATUS_MASTER (!on.isEmpty && on.all (fun c => s.cel.won.contains c))
  let s := s.setB CEL_STATUS_ENUMBUSY (s.cel.enums.any (fun e => e.2.isSome))
  let s := s.setB CEL_STATUS_ADMBUSY (s.cel.mgmt.any (fun m => m.by_ == .admission) || s.cel.dly.any (fun d => d.2.preAdm))
  let s := s.setB CEL_STATUS_EPOCHMAX (s.rdN CEL_EPOCH == 0xFFFFFFFF)
  (s.setB GLB_STATUS_LANES_OK s.lanesOk).updEnerg

/-- R238. CSTAT of a cell changes. -/
def State.setCstat (s : State) (id st : Nat) : State := (s.setUp id 0x3C 1 st).celStatus

/-! ### Ring 24 (R504) -/

/-- R504. A record on ring 24. -/
def State.celReport (s : State) (tag cell kind status obj off cnt : Nat) (data : List Byte) : State :=
  s.ringPut 24 (leBytes tag 4 ++ leBytes cell 1 ++ leBytes kind 1 ++ leBytes status 1 ++
    leBytes (if cell < 192 then s.cstat cell else 0) 1 ++ leBytes obj 2 ++ leBytes off 2 ++ leBytes cnt 2 ++ leBytes 0 2 ++ data)

/-! ### Violations (R251, R252) -/

/-- R251. Frame types for which a CRC error is answered. -/
def crcNakType (ty : Nat) : Bool := ty == ftUp || ty == ftMgmtRsp || ty == ftClaimRsp || ty == ftDelayRsp

/-- R251, R252. A NAK on a chain in answer to a unicast frame with these header bytes, of a node of the chain or of the other unit;
one per sender and control cycle. -/
def State.nakSend (s : State) (c code : Nat) (hdr : List Byte) : State :=
  let src := fieldAt hdr 2 1
  let ty := fieldAt hdr 0 1 / 16
  let other := src == addrUnit && bitOf (fieldAt hdr 3 1) 5 != s.bit RDN_CFG_UNITB
  let ok := decide (8 ≤ hdr.length) && fieldAt hdr 1 1 == addrUnit && (src / 8 == c || other) && ty != ftNak &&
    (code != 0x01 || (crcNakType ty && !other)) && !s.cel.naks.contains src
  if ok then
    (s.updCel (fun t => { t with naks := src :: t.naks })).sendNext (stNak src) c false .plain ftNak src
      (leBytes code 1 ++ leBytes (fieldAt hdr 0 1) 1 ++ leBytes (fieldAt hdr 4 2) 2)
  else s

/-- R251, R252. A violation on a chain; `code` 0 is one without a NAK. `hdr` are the received header bytes. -/
def State.violation (s : State) (c code : Nat) (hdr : List Byte) : State :=
  let s := (s.count (CEL_CHVIOL c)).evtCel CEL_EVT_VIOL c
  if code = 0 then s else s.nakSend c code hdr

/-- R217. The payload length that a type has; none where it varies. -/
def fixedLen (ty : Nat) : Option Nat :=
  if ty = ftSync then some 56 else if ty = ftUp then some 48 else if ty = ftClaim then some 8 else if ty = ftClaimRsp then some 8
  else if ty = ftHbt then some 12 else if ty = ftNak then some 4 else if ty = ftEnum then some 8
  else if ty = ftDelayReq then some 16 else if ty = ftDelayRsp then some 32 else none

/-- R210. A reserved address. -/
def addrReserved (a : Nat) : Bool := decide (192 ≤ a) && a != 0xF0 && a != 0xFE && a != 0xFF

/-- R216, R217. What this unit makes of a frame of the other unit that passed steps 2 to 4: a NAK code, or whether it takes the frame.
A frame for nodes is forwarded traffic. -/
def unitFrame (f : Frame) : Nat ⊕ Bool :=
  let len := (fixedLen f.ty).getD f.payload.length == f.payload.length
  if f.dst = addrUnit then
    if f.ty ≠ ftHbt ∧ f.ty ≠ ftNak then .inl 0x02 else if len then .inr true else .inl 0x03
  else .inr (f.ty == ftEnum && (f.dst == 0xFE || f.dst == 0xFF) && len)

/-- R210, R216, R217, R251, R252. The checks of a frame received on a chain. A frame of the other unit is no violation by a node, but a
unicast one with a bad length, version or type is answered. -/
def State.chainCheck (s : State) (c : Nat) (l : List Byte) : State × Option Frame :=
  if !s.chainOn c then (s, none)
  else
    match parseFrame 1024 l with
    | .inr code => (if fieldAt l 2 1 = addrUnit then s.nakSend c code (l.take 8) else s.violation c code (l.take 8), none)
    | .inl f =>
      if addrReserved f.dst || addrReserved f.src then (s.violation c 0 l, none)
      else if f.src = addrUnit then
        match unitFrame f with
        | .inl code => (s.nakSend c code (l.take 8), none)
        | .inr b => (s, if b then some f else none)
      else if 192 ≤ f.src ∨ f.src / 8 ≠ c then (s.violation c 0 l, none)
      else if !(crcNakType f.ty || f.ty == ftNak) then (s.violation c 0x02 l, none)
      else if f.dst ≠ addrUnit then (s, none)
      else if (fixedLen f.ty).getD f.payload.length ≠ f.payload.length ∨ (f.ty = ftMgmtRsp ∧ f.payload.length < 8) then
        (s.violation c 0x03 l, none)
      else (s, some f)

/-! ### Management requests (R221) -/

/-- R221. A request for a cell enters the device. -/
def State.mgmtAdd (s : State) (m : Mgmt) : State := s.updCel (fun t => { t with mgmt := t.mgmt ++ [m] })

/-- R238. READ IDENT of a cell, once. -/
def State.readIdent (s : State) (id : Nat) : State :=
  if s.cel.mgmt.any (fun m => m.cell == id && m.by_ == .admission) then s
  else s.mgmtAdd { chain := id / 8, cell := id, op := 1, obj := 1, off := 0, cnt := 32, data := [], by_ := .admission }

/-- R238. Why a node's IDENT does not match its cell map entry: 0 none, 1–4, or 5 for an entry that is not VALID. -/
def State.identReason (s : State) (id : Nat) (d : List Byte) : Nat :=
  let map := cellMap id
  let uid := s.memN (map + 0x10) 8
  if s.memN map 4 < 2 ^ 31 then 5
  else if fieldAt d 0 2 ≠ s.memN map 2 then 1
  else if fieldAt d 4 4 < s.memN (map + 8) 4 then 2
  else if fieldAt d 16 4 ≠ s.memN (map + 4) 4 then 3
  else if uid ≠ 0 ∧ fieldAt d 8 8 ≠ uid then 4
  else 0

/-- R231, R238. The five delay exchanges before admission start, if this unit is master of the chain; else the cell waits. -/
def State.admitStart (s : State) (id : Nat) : State :=
  let s := s.updCel (fun t => { t with matched := t.matched.filter (· != id) })
  if s.cel.won.contains (id / 8) then (s.updDly id (fun d => { d with preAdm := true, got := [], want := true, t1 := none })).celStatus
  else s.updCel (fun t => { t with matched := id :: t.matched })

/-- R238. The IDENT of a cell in FOUND or LOST has been read. -/
def State.identRead (s : State) (id : Nat) (d : List Byte) : State :=
  if s.cstat id = csFound ∨ s.cstat id = csLost then
    let s := s.ageUid id (fieldAt d 8 8)
    let r := s.identReason id d
    if r = 0 then s.admitStart id
    else
      let s := s.setUp id 0x3D 1 r
      if r = 5 then (s.setCstat id csUnmapped).celReport 0 id 3 r 1 0 32 d
      else ((s.setCstat id csHeld).evtCel CEL_EVT_HELD id).celReport 0 id 3 r 1 0 32 d
  else s

/-- R231, R274. Whether a cell is a node for delay exchanges: enumeration has found it. -/
def State.nodeKnown (s : State) (id : Nat) : Bool := s.cstat id != csAbsent && s.cstat id != csExcess

/-- Which scheduled step is the loss timer of a cell. -/
def isLostTimer (id : Nat) : Instr → Bool
  | .cellLostTimeout k => k.val == id
  | _ => false

/-- Which scheduled step is the delay period of a cell. -/
def isDelayTimer (id : Nat) : Instr → Bool
  | .delayExchangePeriod k => k.val == id
  | _ => false

/-- A number as a cell ID. -/
def cellIx (id : Nat) : Fin 192 := ⟨id % 192, Nat.mod_lt _ (by decide)⟩

/-- A number as a chain index. -/
def chainIx (c : Nat) : Fin 24 := ⟨c % 24, Nat.mod_lt _ (by decide)⟩

/-- R238, R258. CELL_HOLD_MAX of an admitted cell starts anew. -/
def State.lostTimer (s : State) (id : Nat) : State :=
  (s.unsched (isLostTimer id)).sched (ms (s.fld CEL_HOLDMAX_MS)) (.cellLostTimeout (cellIx id))

/-- R231. The next delay exchange of a cell. -/
def State.delayTimer (s : State) (id : Nat) : State :=
  (s.unsched (isDelayTimer id)).sched (ms (s.fld CEL_DLYCFG_PERIOD)) (.delayExchangePeriod (cellIx id))

/-- R231, R238. A cell passes to FOUND, its IDENT is read, and its delay exchanges start. -/
def State.cellFound (s : State) (id : Nat) : State := ((s.readIdent id).setCstat id csFound).delayTimer id

/-- R386. FLT_STATUS.TRIPCLR clears once every node has answered or timed out. -/
def State.tripclrCheck (s : State) : State :=
  if s.cel.mgmt.any (fun m => m.by_ == .tripclr) then s else s.setB FLT_STATUS_TRIPCLR false

/-- R221, R238, R386, R504. A unicast request ends with a response: its STATUS, or the code of a NAK. -/
def State.mgmtEnd (s : State) (m : Mgmt) (nak : Bool) (status : Nat) (obj off cnt : Nat) (data : List Byte) : State :=
  let s := s.updCel (fun t => { t with mgmt := t.mgmt.erase m })
  let ok := !nak && status == 0
  let s := match m.by_ with
    | .host ring tag cidx =>
      let s := s.celReport tag m.cell 1 status obj off cnt data
      let s := s.finish ⟨ring, tag, 0x0201, cidx, if ok then 0 else if nak then 0x22 else 0x20, if ok then 1 else status⟩
      if ok && m.obj == 0x11 && (s.cstat m.cell == csHeld || s.cstat m.cell == csUnmapped) then s.cellFound m.cell else s
    | .tripclr =>
      let s := s.celReport 0 m.cell 4 status obj off cnt data
      let s := if ok then s.updCel (fun t => { t with cleared := m.cell :: t.cleared }) else s
      s.tripclrCheck
    | .admission =>
      if m.obj = 0x1 then (if ok then s.identRead m.cell data else s)
      else if ok && (s.cstat m.cell == csFound || s.cstat m.cell == csLost) then (s.setCstat m.cell csAdmitted).lostTimer m.cell
      else s
    | .fence =>
      if ok then
        s.updRdn (fun r => { r with
          answers := ⟨m.chain, fieldAt data 24 1, fieldAt data 20 4, fieldAt data 28 4⟩ :: r.answers
          fenceEpoch := max r.fenceEpoch (fieldAt data 20 4) })
      else s
  s.celStatus

/-- R221, R504. A broadcast request ends after its last attempt. -/
def State.mgmtEndAll (s : State) (m : Mgmt) : State :=
  let s := s.updCel (fun t => { t with mgmt := t.mgmt.erase m })
  match m.by_ with
  | .host ring tag cidx => s.finish ⟨ring, tag, 0x0201, cidx, if m.responses = 0 then 0x21 else 0, m.responses⟩
  | _ => s

/-- R221. The timeout after the last attempt. -/
def State.mgmtExpire (s : State) (m : Mgmt) : State :=
  let report := m.cell != 0xFE || m.responses == 0
  let tag := match m.by_ with
    | .host _ tag _ => tag
    | _ => 0
  let s := if report then (s.celReport tag m.cell 2 0 m.obj m.off m.cnt []).evtCel CEL_EVT_MGMTTMO m.chain else s
  if m.cell = 0xFE then s.mgmtEndAll m
  else
    match m.by_ with
    | .host ring tag cidx =>
      (s.updCel (fun t => { t with mgmt := t.mgmt.erase m })).finish ⟨ring, tag, 0x0201, cidx, 0x21, 0⟩
    | .tripclr => (s.updCel (fun t => { t with mgmt := t.mgmt.erase m })).tripclrCheck
    | _ => (s.updCel (fun t => { t with mgmt := t.mgmt.erase m })).celStatus

/-- A request changes. -/
def State.mgmtSet (s : State) (m m' : Mgmt) : State :=
  s.updCel (fun t => { t with mgmt := t.mgmt.map (fun x => if x == m then m' else x) })

/-- R221. An attempt failed (no answer, or busy): again, at most RETRY times. -/
def State.mgmtAgain (s : State) (m : Mgmt) (retry : Bool) : State :=
  if m.tries ≤ s.fld CEL_MGMTCFG_RETRY then s.mgmtSet m { m with at_ := .toSend, retry }
  else s.mgmtExpire m

/-- R221. The first request of a chain that can go out: none is under way for the same node before it. -/
def mgmtPick (c : Nat) : List Mgmt → List Nat → Option Mgmt
  | [], _ => none
  | m :: t, busy =>
    if m.chain = c then
      if m.at_ = .toSend ∧ busy.contains m.cell = false then some m else mgmtPick c t (m.cell :: busy)
    else mgmtPick c t busy

/-- R221, R227. The management request of a chain in this slot, if it departs by its end. -/
def State.mgmtSend (s : State) (c : Nat) : State :=
  match mgmtPick c s.cel.mgmt [] with
  | none => s
  | some m =>
    if s.fits c (12 + m.data.length) (s.viaTunnel m.cell) = false then s else
    let q := if m.retry || m.reseq then (m.seq, s) else s.nextSeq (stMgmt c m.cell)
    let flags := (if m.retry then 64 else 0) + (if m.reseq then 8 else 0)
    let m' := { m with at_ := .sent, tries := m.tries + 1, seq := q.1, slot := s.cel.slot, reseq := false }
    (q.2.mgmtSet m m').sendChain c (s.viaTunnel m.cell) .plain ftMgmtReq m.cell flags q.1
      (leBytes (s.rdN CEL_EPOCH) 4 ++ leBytes m.op 1 ++ leBytes 0 1 ++ leBytes m.obj 2 ++ leBytes m.off 2 ++ leBytes m.cnt 2 ++ m.data)

/-- R221. A MGMT_RSP of a cell. -/
def State.mgmtRsp (s : State) (c : Nat) (f : Frame) : State :=
  let status := fieldAt f.payload 0 1
  let obj := fieldAt f.payload 2 2
  let off := fieldAt f.payload 4 2
  let cnt := fieldAt f.payload 6 2
  let data := f.payload.drop 8
  match s.cel.mgmt.find? (fun m => m.chain == c && m.at_ == .sent && m.seq == f.seq && (m.cell == f.src || m.cell == 0xFE)) with
  | none => s
  | some m =>
    if m.cell = 0xFE then
      let tag := match m.by_ with
        | .host _ tag _ => tag
        | _ => 0
      (s.mgmtSet m { m with responses := m.responses + 1 }).celReport tag f.src 1 status obj off cnt data
    else s.mgmtEnd m false status obj off cnt data

/-! ### Delay measurement (R230, R231) -/

/-- R226, R227, R231. The delay request of a chain in this slot, if it departs by its end. -/
def State.delaySend (s : State) (c : Nat) : State :=
  match ((upto 8).map (fun k => 8 * c + k)).find? (fun id => (s.dly id).want && !s.viaTunnel id) with
  | none => s
  | some id =>
    if s.fits c 16 false then
      let pdly := if (s.dly id).known then s.up id 0x38 4 else 0xFFFFFFFF
      (s.updDly id (fun d => { d with want := false, t1 := none })).sendNext (stDelay id) c false (.t1 id) ftDelayReq id
        (leBytes 0 8 ++ leBytes 0 4 ++ leBytes pdly 4)
    else s

/-- R231. The median of five results. -/
def median (l : List Int) : Int :=
  let sorted := l.foldl (fun acc x => acc.takeWhile (fun y => decide (y ≤ x)) ++ [x] ++ acc.dropWhile (fun y => decide (y ≤ x))) []
  sorted.getD (l.length / 2) 0

/-- R230. The delay in force of a cell. -/
def State.setDelay (s : State) (id : Nat) (d : Int) : State :=
  (s.setUp id 0x38 4 (ofSigned 32 d)).updDly id (fun x => { x with known := true, jump := none })

/-- R230, R231. A DELAY_RSP of a cell, with the stamp of its SOF arrival. -/
def State.delayRsp (s : State) (f : Frame) (t4 : Nat) : State :=
  let id := f.src
  let x := s.dly id
  let t1 := fieldAt f.payload 0 8
  if x.t1 = some t1 then
    let corrq := fieldAt f.payload 24 4
    let sum : Int := toSigned 64 (t4 + 2 ^ 64 - t1) - toSigned 64 (fieldAt f.payload 16 8 + 2 ^ 64 - fieldAt f.payload 8 8) -
      (corrq : Nat) - (fieldAt f.payload 28 4 : Nat)
    let d := sum / 2
    let s := s.updDly id (fun x => { x with t1 := none, corrq })
    if x.preAdm then
      let got := x.got ++ [d]
      if got.length < 5 then s.updDly id (fun x => { x with got, want := true })
      else
        let s := (s.updDly id (fun x => { x with preAdm := false, got := [] })).setDelay id (median got)
        (s.mgmtAdd { chain := id / 8, cell := id, op := 3, obj := 0x30, off := 0, cnt := 0, data := [], by_ := .admission }).celStatus
    else
      let cur := toSigned 32 (s.up id 0x38 4)
      let jump : Int := (s.fld CEL_DLYCFG_JUMP * 16384 : Nat)
      let near (a b : Int) : Bool := decide (((a - b).natAbs : Int) ≤ jump)
      if !x.known || near d cur then s.setDelay id d
      else
        match x.jump with
        | some p => if near d p then s.setDelay id d else s.updDly id (fun x => { x with jump := none })
        | none => (s.updDly id (fun x => { x with jump := some d, want := true })).evtCel CEL_EVT_DLYCHG (id / 8)
  else s

/-! ### Upstream images (R228, R238, R250) -/

/-- R374. The node fault condition of a cell follows NSTAT.FAULT. -/
def State.nodeFault (s : State) (id nstat nflt : Nat) : State :=
  let live := s.flt.live.any (fun x => x.src == 0x8B && x.inst == id)
  if bitOf nstat 8 then (if live then s else s.raiseD 0x8B id (nflt % 256))
  else if live then s.fltEnd 0x8B id else s

/-- R238. What an UP image does to the state of its cell. -/
def State.cellSeen (s : State) (id st : Nat) : State :=
  let cs := s.cstat id
  if cs = csAdmitted then
    if st = 4 ∨ st = 5 then
      let s := (s.setCstat id csBypassed).evtCel CEL_EVT_BYPASSED id
      if st = 4 ∧ s.bit CEL_CTRL_AUTOREADMIT = true then s.cellFound id else s
    else s.lostTimer id
  else if cs = csBypassed then
    if st = 1 ∧ s.cel.cleared.contains id = true then
      (s.updCel (fun t => { t with cleared := t.cleared.filter (· != id) })).cellFound id
    else if st = 4 ∧ s.bit CEL_CTRL_AUTOREADMIT = true then s.cellFound id
    else s
  else if cs = csLost then s.cellFound id
  else s

/-- R228, R255. A valid UP frame of a cell, received on its chain or through the tunnel. -/
def State.upFrame (s : State) (f : Frame) (tunnel : Bool) : State :=
  let id := f.src
  let d := s.seqDist id f
  if d ≤ 0 then s
  else
    let gap := decide (2 ≤ d)
    let late := s.bit GLB_STATUS_CTRL_RUN && decide (s.cel.t0 + 5 * s.fld CEL_UPWIN_WIN < s.tick)
    let s := s.seqTake id f.seq
    let s := s.setMemBytes (cellUp id) f.payload
    let s := ((s.setUp id 0x30 4 s.tick).setUp id 0x34 2 f.seq).setUp id 0x36 1 0
    let s := s.setUp id 0x37 1 ((if late then 1 else 0) + (if gap then 2 else 0))
    let s := if gap then s.count (CEL_CHGAP (id / 8)) else s
    let s := s.updCel (fun t => { t with tunneled := (if tunnel then [id] else []) ++ t.tunneled.filter (· != id) })
    let nstat := fieldAt f.payload 0 2
    ((s.nodeFault id nstat (fieldAt f.payload 2 2)).cellSeen id (nstat % 16)).ageImage id

/-- R255. AGE of every cell at a CYCLE_START. -/
def State.ageCells (s : State) : State := forN 192 (fun id t => t.setUp id 0x36 1 (min 255 (t.up id 0x36 1 + 1))) s

/-! ### NAK (R251) -/

/-- R238, R251. A NAK of a cell. -/
def State.nakFrame (s : State) (c : Nat) (f : Frame) : State :=
  let d := s.seqDist (512 + f.src) f
  if d ≤ 0 then s
  else
    let s := s.seqTake (512 + f.src) f.seq
    let code := fieldAt f.payload 0 1
    let ty := fieldAt f.payload 1 1 / 16
    let s := if code = 0x04 ∧ s.cel.nak04.contains f.src = false then s.updCel (fun t => { t with nak04 := f.src :: t.nak04 }) else s
    let s := if code = 0x06 ∧ s.cstat f.src = csAdmitted then
        (s.setCstat f.src csBypassed).evtCel CEL_EVT_BYPASSED f.src else s
    if ty = ftMgmtReq then
      match s.cel.mgmt.find? (fun m => m.chain == c && m.at_ == .sent && m.cell == f.src && m.seq == fieldAt f.payload 2 2) with
      | none => s
      | some m =>
        if code = 0x05 then s.mgmtSet m { m with at_ := .toSend, tries := m.tries - 1, retry := false, reseq := true }
        else if code = 0x08 then (s.mgmtSet m { m with at_ := .busy }).sched (ms 1) (.mgmtBusyRetry (cellIx m.cell))
        else s.mgmtEnd m true code m.obj m.off m.cnt []
    else s

/-! ### Enumeration (R235–R237) -/

/-- R225, R235. Sends the ENUM of a pass on a chain. -/
def State.enumSend (s : State) (c : Nat) (r : EnumRun) : State :=
  let s := s.updCel (fun t => { t with enums := tput none t.enums c (some { r with sent := true, slot := t.slot }) })
  s.sendNext (stEnum c) c false .plain ftEnum 0xFE
    (leBytes c 1 ++ leBytes (if r.fill then 1 else 0) 1 ++ leBytes (ofSigned 8 r.pos) 1 ++ leBytes (ofSigned 8 r.step) 1 ++ leBytes 0 4)

/-- R235. A pass starts on a chain: sent at once while no control cycles run, else in the next slot. -/
def State.enumStart (s : State) (fill : Bool) (c : Nat) : State :=
  let b := s.bit RDN_CFG_UNITB
  let r : EnumRun := { fill, pos := if b then (s.fld (CEL_CHCFG_NNODES c) : Int) - 1 else 0, step := if b then -1 else 1, slot := 0, sent := false }
  let s := if fill then s else forN 8 (fun k t => (t.setUp (8 * c + k) 0x3C 1 csAbsent).unsched (isLostTimer (8 * c + k))) s
  if s.bit GLB_STATUS_CTRL_RUN then s.updCel (fun t => { t with enums := tput none t.enums c (some r) })
  else s.enumSend c r

/-- R235, R415. An enumeration pass on the enabled chains of a mask, whatever their lanes do (R236, R275); a standby sends none. -/
def State.enumGo (s : State) (m : Master) (fill : Bool) (mask : Nat) : State :=
  if !fill && s.bit GLB_STATUS_CTRL_RUN then s.refuse m CEL_CTRL
  else if s.standby then s
  else
    let s := if fill then s else s.updCel (fun t => { t with matched := [], rxSeq := [] })
    (forL ((bitsIn 24 mask).filter s.chainOn) (fun c t => t.enumStart fill c) s).celStatus

/-- R242, R243, R418. A claim of the chains after an ASSIGN pass in a single unit. What forbids a claim refuses this one too; no control
cycles run during an ASSIGN pass (R235), so that they do not is no ground here. -/
def State.bringUpClaim (s : State) (fill : Bool) : State :=
  if fill || s.cel.enums.any (fun e => e.2.isSome) || s.fld RDN_STATUS_STATE != 0 then s
  else if s.bit SELV_STATUS_STACK || s.bit SELV_STATUS_BRK || s.bit FLT_STATUS_FATAL || s.rdN CEL_EPOCH == 0xFFFFFFFF then
    s.evt RDN_EVT_CLAIMLOST 0xF0 0xFF
  else s.updCel (fun t => { t with claimWant := some (min 0xFFFFFFFF (max (s.rdN CEL_EPOCH) (s.rdN RDN_PEPOCH) + 1)) })

/-- R236, R237. The returned ENUM of a chain. -/
def State.enumReturn (s : State) (c : Nat) (f : Frame) : State :=
  match tget none s.cel.enums c with
  | none => s
  | some r =>
    if r.sent && fieldAt f.payload 4 1 == 1 && fieldAt f.payload 0 1 == c then
      let n := ((toSigned 8 (fieldAt f.payload 2 1) - r.pos) * r.step).toNat
      let mis := fieldAt f.payload 6 1
      let exc := fieldAt f.payload 7 1
      let s := s.updCel (fun t => { t with enums := tput none t.enums c none })
      let s := (s.setF (CEL_CHSTAT_NFOUND c) (min 15 n)).setB (CEL_CHSTAT_BREAK c) false
      let s := if r.fill then s.setB (CEL_CHSTAT_MIS c) (mis != 0) else s
      let s := if r.fill && mis != 0 then s.evtCel CEL_EVT_ENUMMIS c else s
      let s := s.setB (CEL_CHSTAT_EXCESS c) (exc != 0 || decide (8 < n))
      let s := if exc != 0 || decide (8 < n) then s.evtCel CEL_EVT_EXCESS c else s
      let pos := (upto n).filterMap (fun (k : Nat) =>
        let p := r.pos + r.step * (k : Int)
        if 0 ≤ p ∧ p ≤ 7 then some (8 * c + p.toNat) else none)
      let s := forL (pos.filter (fun id => s.cstat id == csAbsent)) (fun id t => t.cellFound id) s
      (s.celStatus).bringUpClaim r.fill
    else s

/-- R236. An ENUM that did not return within four control cycles. -/
def State.enumBreak (s : State) (c : Nat) : State :=
  match tget none s.cel.enums c with
  | none => s
  | some r =>
    if r.sent && decide (r.slot + 4 ≤ s.cel.slot) then
      let s := (s.updCel (fun t => { t with enums := tput none t.enums c none })).setB (CEL_CHSTAT_BREAK c) true
      s.celStatus.bringUpClaim r.fill
    else s

/-! ### Claims (R222, R242) -/

/-- R222, R398, R421. Sends CLAIM with an epoch on a chain: on its lane, unless the chain is healed and the lane is not in LINK; on a
healed chain also through the tunnel, to the nodes that answer there. -/
def State.claimOn (s : State) (e c : Nat) : State :=
  let pref := if s.bit RDN_CFG_PREFB == s.bit RDN_CFG_UNITB then 1 else 0
  let p := leBytes e 4 ++ leBytes pref 1 ++ leBytes 0 3
  let heal := s.rbit RDN_HEAL c
  let far := heal && (!s.laneLink c || (upto 8).any (fun k => s.viaTunnel (8 * c + k)))
  let s := if !heal || s.laneLink c then s.sendNext (stClaim c) c false .plain ftClaim 0xFE p else s
  if far then s.sendNext (stClaim c) c true .plain ftClaim 0xFE p else s

/-- R222, R227, R242. Sends CLAIM with an epoch on every enabled chain; in a slot for requests, on those on which it departs by the end
of the slot. -/
def State.claimSend (s : State) (e : Nat) (slot : Bool) : State :=
  let s := (s.wrN CEL_EPOCH e).updCel (fun t => { t with claimWant := none, claims := [], claimEpoch := e, claimDue := some (t.slot + 2) })
  (forL ((upto 24).filter (fun c => s.chainOn c && (!slot || s.fits c 8 false))) (fun c t => t.claimOn e c) s).celStatus

/-- R250. The streams received on chains begin anew: UP, NAK, HBT and ENUM. -/
def State.seqForget (s : State) (chains : List Nat) : State :=
  s.updCel (fun t => { t with rxSeq := t.rxSeq.filter (fun e =>
    !chains.contains (if e.1 < 512 then e.1 / 8 else if e.1 < 1024 then (e.1 - 512) / 8 else (e.1 - 1024) % 64)) })

/-- R242. The answer of a node to a claim. The second component says that a chain this unit had won is lost. -/
def State.claimRsp (s : State) (c : Nat) (f : Frame) : State × Bool :=
  let res := fieldAt f.payload 0 1
  let ack := res == 0
  let s := s.updRdn (fun r => { r with claimMax := max r.claimMax (fieldAt f.payload 4 4) })
  let s := s.updCel (fun t =>
    let x := tget {} t.claims c
    { t with claims := tput {} t.claims c (if ack then { x with ack := x.ack + 1 } else { x with bad := x.bad + 1 }) })
  if res = 0x02 ∧ s.cel.won.contains c = true then
    (((s.updCel (fun t => { t with won := t.won.filter (· != c) })).evtCel CEL_EVT_CLAIMNACK c).celStatus, true)
  else if s.cel.claimDue.isNone && s.rdn.silent.contains c then
    let s := s.updRdn (fun r => { r with silent := r.silent.filter (· != c) })
    if ack then (((s.updCel (fun t => { t with won := c :: t.won })).seqForget [c]).celStatus, false) else (s.evtCel CEL_EVT_CLAIMNACK c, true)
  else (s, false)

/-- R242. Chains won and lost by a claim: won with an ACK and no other result, lost with any other. -/
def State.chainsWon (s : State) : List Nat :=
  (upto 24).filter (fun c => s.chainOn c && decide (0 < (tget {} s.cel.claims c).ack) && (tget {} s.cel.claims c).bad == 0)
def State.chainsLost (s : State) : List Nat := (upto 24).filter (fun c => s.chainOn c && decide (0 < (tget {} s.cel.claims c).bad))

/-- R242, R250. The chains of a claim that was answered are recorded; their streams begin anew; cells that match and waited are
admitted. -/
def State.claimTake (s : State) : State :=
  let won := s.chainsWon
  let lost := s.chainsLost
  let s := s.seqForget (won ++ lost)
  let s := s.updCel (fun t => { t with won := won ++ t.won.filter (fun c => !won.contains c && !lost.contains c), claimDue := none })
  let s := forL lost (fun c t => t.evtCel CEL_EVT_CLAIMNACK c) s
  (forL s.cel.matched (fun id t => t.admitStart id) s).celStatus

/-! ### The departure mark (R218, R219, R227) -/

/-- R256. PRB of a cell's next set. -/
def State.prb (s : State) (id : Nat) : Nat := ((s.cel.probe.find? (fun p => p.1 == id)).map (fun p => p.2)).getD 0

/-- R219, R256. The payload of the DOWN frame of a cell: the bytes that Stitch and the controller write are those of the last complete
set, whatever an engine has written over them; CMD and AUX are as they stand; then the valid edge words. -/
def State.downPayload (s : State) (id : Nat) : List Byte :=
  let b := tget [] s.stitch.sets id ++ List.replicate (52 - (tget [] s.stitch.sets id).length) 0#8
  b.take 20 ++ leBytes (s.prb id) 4 ++ s.memBytes (cellDn id + 0x18) 8 ++ (b.drop 20).take (8 * min 4 (bitsOf (fieldAt b 1 1) 4 3))

/-- R20, R219, R227, R256. The DOWN frame of an admitted cell, with PRB. Where Stitch has not completed its set, it repeats the last one
and so carries no new edge set. -/
def State.downSend (s : State) (id : Nat) : State :=
  if s.admitted id then
    (s.setMemN (cellDn id + 0x14) 4 (s.prb id)).sendNext (stDown id) (id / 8) (s.viaTunnel id) .plain ftDown id (s.downPayload id)
  else s

/-- R185, R423. Sets are complete: the DOWN frames that go through the tunnel leave at once. -/
def State.stitchDone (s : State) : State :=
  let due := (s.stitch.images.filter (fun e => decide (e.2.1 ≤ s.tick))).map (·.1)
  let s := s.stitchWrite
  let far := due.filter (fun id => s.viaTunnel id && s.admitted id && s.cel.won.contains (id / 8))
  forL far (fun id t => t.downSend id) (s.updCel (fun t => { t with early := far ++ t.early }))

/-- R217, R227, R244, R276. What a commanding unit sends on a chain: a latched fast trip, as master SYNC, DOWN farthest first, HBT. -/
def State.burst (s : State) (c : Nat) : State :=
  let s := if s.bit SELV_STATUS_STACK && s.laneTrips c then s.tripOn c else s
  let s := if s.cel.won.contains c then s.sendNext (stSync c) c false (.sync c false) ftSync 0xFE (List.replicate 56 0#8) else s
  let order := if s.bit RDN_CFG_UNITB then upto 8 else (upto 8).reverse
  let ids := (order.map (fun k => 8 * c + k)).filter (fun id => !s.cel.early.contains id)
  let s := if s.cel.won.contains c then forL ids (fun id t => t.downSend id) s else s
  s.sendHbt c

/-- R227. The management and the delay request of a chain in a slot. -/
def State.requests (s : State) (c : Nat) : State := (s.mgmtSend c).delaySend c

/-- R227. The ENUM of a chain in a slot, if it departs by its end. -/
def State.enumSlot (s : State) (c : Nat) : State :=
  match tget none s.cel.enums c with
  | some r => if r.sent || !s.fits c 8 false then s else s.enumSend c r
  | none => s

/-- R221, R236, R242. Timeouts that are counted in control cycles. -/
def State.slotTimers (s : State) : State :=
  let s := forL ((upto 24).filter (fun c => s.cel.mgmt.any (fun m => m.chain == c && m.at_ == .sent &&
    decide (m.slot + s.fld CEL_MGMTCFG_TMO ≤ s.cel.slot)))) (fun c t => t.sched 0 (.mgmtTimeout (chainIx c))) s
  let s := forL ((upto 24).filter (fun c => match tget none s.cel.enums c with
    | some r => r.sent && decide (r.slot + 4 ≤ s.cel.slot)
    | none => false)) (fun c t => t.sched 0 (.enumBreakTimeout (chainIx c))) s
  if s.cel.claimDue.any (fun d => decide (d ≤ s.cel.slot)) then s.sched 0 .claimOutcome else s

/-- R221, R236, R242, R252. A control cycle of Henlink begins: at CYCLE_START, or at the idle slot. -/
def State.celCycle (s : State) : State :=
  (s.updCel (fun t => { t with slot := t.slot + 1, naks := [], nak04 := [] })).slotTimers

/-- R227. A slot for requests on every chain: MGMT_REQ, DELAY_REQ, CLAIM, ENUM. -/
def State.requestSlot (s : State) : State :=
  let on := (upto 24).filter s.chainOn
  let s := forL on (fun c t => t.requests c) s
  let s := match s.cel.claimWant with
    | some e => s.claimSend e true
    | none => s
  forL on (fun c t => t.enumSlot c) s

/-- Ticks between slots while no control cycles run: 20.0 µs, the interval that R78 gives the scheduler then. -/
def idleSlot : Nat := us 20

/-- The next slot while no control cycles run. -/
def State.slotIdle (s : State) : State :=
  if s.bit CEL_CTRL_EN && !s.bit GLB_STATUS_CTRL_RUN then (s.unsched (· == .downDeparture)).sched idleSlot .downDeparture else s

/-- R18, R20, R227. The departure mark of a commanding unit: sets that are not complete are missed, then SYNC and DOWN on every chain,
then the requests. While no control cycles run, only requests leave. -/
def State.departure (s : State) : State :=
  if s.bit GLB_STATUS_CTRL_RUN then
    let s := s.stitchDone
    let s := if s.stitch.images.any (fun e => s.admitted e.1) then (s.count GLB_TLMISS).raise 0x06 0xFF else s
    let s := forL ((upto 24).filter s.chainOn) (fun c t => t.burst c) s
    (s.updCel (fun t => { t with early := [] })).requestSlot
  else s.celCycle.requestSlot.slotIdle

/-! ### The check of the chains at RUN (R228) -/

/-- R228. The worst-case arrival of four-edge sets on a chain, in nanoseconds: SYNC of 70 characters, then per cell an idle
ordered set of 2 and a DOWN of 78, farthest first, plus the path delay and the residences of each node. -/
def State.arrival (s : State) (c : Nat) : Nat :=
  let ch := s.charNs c
  let n := s.fld (CEL_CHCFG_NNODES c)
  (upto n).foldl (fun w k =>
    let pos := if s.bit RDN_CFG_UNITB then k else n - 1 - k
    let id := 8 * c + pos
    let path := (s.up id 0x38 4 + (s.dly id).corrq + 65535) / 65536
    max w ((70 + 80 * (k + 1)) * ch + path)) 0

/-- R209, R228. The time by which the UP frames of a chain end. The link of the node `k` places from the unit carries the frames of that
node and of those behind it, 62 characters each with an idle ordered set between them; they start within 0.2 µs, and the last then has
the path from there. DEDUCED: the frames are those of NNODES nodes (log entry 73). -/
def State.upEnd (s : State) (c : Nat) : Nat :=
  let n := s.fld (CEL_CHCFG_NNODES c)
  (upto n).foldl (fun w k =>
    let id := 8 * c + (if s.bit RDN_CFG_UNITB then n - 1 - k else k)
    max w (200 + (64 * (n - k) - 2) * s.charNs c + (s.up id 0x38 4 + (s.dly id).corrq + 65535) / 65536)) 0

/-- R228. ARR and LATE of every enabled chain. -/
def State.chainCheckRun (s : State) : State :=
  forL ((upto 24).filter (fun c => s.bit (CEL_CHCFG_EN c))) (fun c t =>
    let a := t.arrival c
    let late := decide (2700 < a) || decide (10 * t.fld CEL_UPWIN_WIN < t.upEnd c)
    let t := (t.setF (CEL_CHSTAT_ARR c) (min 4095 ((a + 9) / 10))).setB (CEL_CHSTAT_LATE c) late
    if late then t.evtCel CEL_EVT_LATE c else t) s

end Sys2Proof.Machine
end

