-- ==== Sys2Proof/Machine/HoopCmds.lean ====
section
/-!
DEFINITION. The commands of the Hoop and of the Pricking scheduler (R48–R91), and the Pricking actions that act on pins,
markers and pages.
-/

namespace Sys2Proof.Machine

/-! ### Hoop -/

/-- R22. While RUN waits for the start of control cycles, a write that takes its schedule away clears RUN. -/
def State.runLost (s : State) : State :=
  if s.bit GLB_CTRL_RUN && !s.bit GLB_STATUS_CTRL_RUN then (s.setB GLB_CTRL_RUN false).setB GLB_CFGERR_NOSCHED true else s

/-- R53, R56–R58. A write of HOOP_CTRL. One that would change H0DC or H0EN while CTRL_RUN is 1 is refused. -/
def State.hoopCtrl (s : State) (w : Nat) : State :=
  let en := bitOf w 0
  let dc := bitOf w 1
  let wasEn := s.bit HOOP_CTRL_H0EN
  let wasDc := s.bit HOOP_CTRL_H0DC
  if s.bit GLB_STATUS_CTRL_RUN && (en != wasEn || dc != wasDc) then s.evtHoop HOOP_EVT_CFGREF
  else
    let mode := bitsOf w 5 2
    let newMode := s.fld HOOP_CTRL_H1MODE != mode
    let s := (((((s.setB HOOP_CTRL_H0EN en).setB HOOP_CTRL_H0DC dc).setB HOOP_CTRL_BKEN (bitOf w 2)).setB
      HOOP_CTRL_BKFORCE (bitOf w 3)).setF HOOP_CTRL_H1MODE mode)
    let s := if newMode then s.h1ModeChange mode else s
    let s :=
      if en && !wasEn then
        let s := s.h0Start.swapRestart
        if s.bit PRK_CTRL_EN then (s.walkHere 0).updPrk (fun k => { k with convTurn := 0 }) else s
      else if !en && wasEn then s.h0Stop.runLost
      else if en && dc && !wasDc then s.h0ToFree
      else if en && !dc && wasDc then s.h0ToAcquire
      else s
    let s := s.h0Force
    if bitOf w 4 then s.priReturn else s

/-- R53. H0_ENABLE: HOOP_CTRL.H0EN is written 1. -/
def execH0Enable (m : Master) (s : State) : Host.Outcome State Fault Refusal :=
  .next (s.gate m (fun s => s.hoopCtrl (putBit (s.rdN HOOP_CTRL) 0 true)))

/-- R53. H0_DISABLE: HOOP_CTRL.H0EN is written 0. -/
def execH0Disable (m : Master) (s : State) : Host.Outcome State Fault Refusal :=
  .next (s.gate m (fun s => s.hoopCtrl (putBit (s.rdN HOOP_CTRL) 0 false)))

/-- R53. H0_DC_SET. -/
def execH0DcSet (m : Master) (s : State) : Host.Outcome State Fault Refusal :=
  .next (s.gate m (fun s => s.hoopCtrl (putBit (s.rdN HOOP_CTRL) 1 true)))

/-- R53. H0_DC_CLEAR. -/
def execH0DcClear (m : Master) (s : State) : Host.Outcome State Fault Refusal :=
  .next (s.gate m (fun s => s.hoopCtrl (putBit (s.rdN HOOP_CTRL) 1 false)))

/-- R53, R57. A write of HOOP_H0NOM: refused in DC mode while CTRL_RUN is 1; in FREE the step moves at once. -/
def State.h0Nom (s : State) (nom : Nat) : State :=
  if s.bit GLB_STATUS_CTRL_RUN && s.bit HOOP_CTRL_H0DC then s.evtHoop HOOP_EVT_CFGREF
  else
    let s := s.setF HOOP_H0NOM_NOM (clampNat 1000 20000 nom)
    if s.h0State = h0Free then s.updH0 (fun l => { l with step := stepOf (s.fld HOOP_H0NOM_NOM) }) else s

/-- R53. H0NOM_WRITE. -/
def execH0nomWrite (m : Master) (nom : BitVec 16) (s : State) : Host.Outcome State Fault Refusal :=
  .next (s.gate m (fun s => s.h0Nom nom.toNat))

/-- R56. PRIMARY_RETURN. -/
def execPrimaryReturn (m : Master) (s : State) : Host.Outcome State Fault Refusal :=
  .next (s.gate m (fun s => s.priReturn))

/-- R309. Whether a sequence entry of a converter carries OVR, RECOV or REFNS. -/
def State.entryFlagged (s : State) (conv ent : Nat) : Bool :=
  let w := s.rdN (if conv = 0 then ADC_SEQ0_RES ent else ADC_SEQ1_RES ent)
  bitOf w 30 || bitOf w 29 || bitOf w 28

/-- R51. H0_PRIMARY_UPDATE: the last primary entry of a run has been written; what the detector measures from its three
results are operands. -/
def execH0PrimaryUpdate (angle : Word) (pos neg : BitVec 16) (s : State) : Host.Outcome State Fault Refusal :=
  .next (if s.hoop.h0.runDone then
      let c := s.fld HOOP_H0SRC_CONV
      let flag := s.entryFlagged c (s.fld HOOP_H0SRC_ENT_L1) || s.entryFlagged c (s.fld HOOP_H0SRC_ENT_L2) ||
        s.entryFlagged c (s.fld HOOP_H0SRC_ENT_L3)
      let s := s.updH0 (fun l => { l with runDone := false })
      if s.followH0 then s.h0Measure angle.toNat pos.toNat neg.toNat flag else s.h0Primary angle.toNat pos.toNat neg.toNat flag
    else s)

/-- R58. H1_TRACK_UPDATE. -/
def execH1TrackUpdate (angle : Word) (pos neg : BitVec 16) (s : State) : Host.Outcome State Fault Refusal :=
  .next (if s.hoop.h1.runDone then
      let c := s.fld HOOP_H1SRC_CONV
      let flag := s.entryFlagged c (s.fld HOOP_H1SRC_ENT_L1) || (!s.bit HOOP_H1SRC_SINGLE &&
        (s.entryFlagged c (s.fld HOOP_H1SRC_ENT_L2) || s.entryFlagged c (s.fld HOOP_H1SRC_ENT_L3)))
      (s.updH1 (fun l => { l with runDone := false })).h1Track angle.toNat pos.toNat neg.toNat flag
    else s)

/-- R59. A write of HOOP_H1ANGLE: accepted only at step 0. -/
def State.h1AngleWrite (s : State) (v : Nat) : State :=
  if s.hoop.h1.step = 0 then (s.updH1 (fun l => { l with acc := v % 2 ^ 32 * 2 ^ 32, crossed := false })).prkH1Restart
  else s.evtHoop HOOP_EVT_H1ANGREF

/-- R59. H1_ANGLE_WRITE. -/
def execH1AngleWrite (m : Master) (v : Word) (s : State) : Host.Outcome State Fault Refusal :=
  .next (s.gate m (fun s => s.h1AngleWrite v.toNat))

/-- R49. ANGLE_ZERO: the turn counts of the hoops that passed zero increment. The steps that wait for an H0 zero, a page swap and
the start of control cycles, are due right after it in the same tick (State.dueZero). -/
def execAngleZero (s : State) : Host.Outcome State Fault Refusal :=
  let s1 := if s.hoop.h1.crossed then (s.updH1 (fun l => { l with crossed := false })).incr HOOP_H1TURNS else s
  .next (if s1.hoop.h0.crossed then
      (s1.updH0 (fun l => { l with crossed := false })).incr HOOP_H0TURNS
    else s1)

/-! ### Pricking -/

/-- R78. PRICKING_PASS: the pass every 20.0 µs while control cycles do not run. -/
def execPrickingPass (s : State) : Host.Outcome State Fault Refusal :=
  .next (if s.bit PRK_CTRL_EN && !s.bit GLB_STATUS_CTRL_RUN then s.passTimer.prkPass passTicks else s)

/-- R71, R374. A refused write of PRK_CTRL. -/
def State.prkRefuse (s : State) (m : Master) : State := s.refuse m PRK_CTRL

/-- R71. A write of PRK_CTRL. -/
def State.prkCtrl (s : State) (m : Master) (w : Nat) : State :=
  let en := bitOf w 0
  let mode := bitsOf w 1 2
  let init := bitsOf w 4 2
  let cfg := mode != s.fld PRK_CTRL_MODE || init != s.fld PRK_CTRL_INIT
  if s.bit PRK_CTRL_EN then
    if cfg then s.prkRefuse m
    else if en then s
    else if s.bit GLB_STATUS_CTRL_RUN then s.prkRefuse m
    else s.prkStop.runLost
  else if mode = 3 then s.prkRefuse m
  else
    let t := (s.setF PRK_CTRL_MODE mode).setF PRK_CTRL_INIT init
    if !en then t
    else if t.bit (PRK_PG_READY init) && decide (init < t.prkPages) then t.prkStart
    else (s.setF PRK_EDSTAT_STATUS prkNotReady).prkRefuse m

/-- R71. PRK_ENABLE. -/
def execPrkEnable (m : Master) (s : State) : Host.Outcome State Fault Refusal :=
  .next (s.gate m (fun s => s.prkCtrl m (putBit (s.rdN PRK_CTRL) 0 true)))

/-- R71. PRK_DISABLE. -/
def execPrkDisable (m : Master) (s : State) : Host.Outcome State Fault Refusal :=
  .next (s.gate m (fun s => s.prkCtrl m (putBit (s.rdN PRK_CTRL) 0 false)))

/-- R73, R88. A write of PRK_EDCMD; other codes are ignored, but one written while BUSY sets LOST. -/
def State.edCmd (s : State) (page cmd : Nat) : State :=
  let i := s.fld PRK_EDIDX_IDX
  match cmd with
  | 1 => s.edPort (fun s => s.prkRead page i)
  | 2 => s.edPort (fun s => s.prkWrite page i s.edData)
  | 3 => s.edPort (fun s => s.prkInsert page s.edData)
  | 4 => s.edPort (fun s => s.prkDelete page i)
  | 5 => s.edPort (fun s => s.prkClear page)
  | 6 => s.edPort (fun s => s.prkCommit page)
  | _ => if s.bit PRK_EDSTAT_BUSY then s.setB PRK_EDSTAT_LOST true else s

/-- R73. PRK_EDIT_READ. -/
def execPrkEditRead (m : Master) (page : Fin 4) (s : State) : Host.Outcome State Fault Refusal :=
  .next (s.gate m (fun s => s.edCmd page.val 1))

/-- R73. PRK_EDIT_WRITE. -/
def execPrkEditWrite (m : Master) (page : Fin 4) (s : State) : Host.Outcome State Fault Refusal :=
  .next (s.gate m (fun s => s.edCmd page.val 2))

/-- R73. PRK_EDIT_INSERT. -/
def execPrkEditInsert (m : Master) (page : Fin 4) (s : State) : Host.Outcome State Fault Refusal :=
  .next (s.gate m (fun s => s.edCmd page.val 3))

/-- R73. PRK_EDIT_DELETE. -/
def execPrkEditDelete (m : Master) (page : Fin 4) (s : State) : Host.Outcome State Fault Refusal :=
  .next (s.gate m (fun s => s.edCmd page.val 4))

/-- R73. PRK_EDIT_CLEAR. -/
def execPrkEditClear (m : Master) (page : Fin 4) (s : State) : Host.Outcome State Fault Refusal :=
  .next (s.gate m (fun s => s.edCmd page.val 5))

/-- R73, R74. PRK_EDIT_COMMIT. -/
def execPrkEditCommit (m : Master) (page : Fin 4) (s : State) : Host.Outcome State Fault Refusal :=
  .next (s.gate m (fun s => s.edCmd page.val 6))

/-- R74. PRK_EDIT_COMPLETE. -/
def execPrkEditComplete (s : State) : Host.Outcome State Fault Refusal := .next s.edComplete

/-- R76. PRK_SWAP_REQUEST: a write of PRK_SWAP with GO. -/
def execPrkSwapRequest (m : Master) (page : Fin 4) (s : State) : Host.Outcome State Fault Refusal :=
  .next (s.gate m (fun s => (s.swapReq page.val).1))

/-- R77. PAGE_SWAP_EFFECT. -/
def execPageSwapEffect (s : State) : Host.Outcome State Fault Refusal := .next s.swapEffect

/-! ### Actions (R70) -/

/-- R70. PAGE_SWAP. -/
def execPageSwap (page : Fin 4) (s : State) : Host.Outcome State Fault Refusal := .next (s.swapReq page.val).1

/-- R70. A GPIO pin is driven to a level. -/
def State.setGpio (s : State) (pin : Nat) (b : Bool) : State :=
  { s with gpio := if b then s.gpio ||| BitVec.twoPow 16 pin else s.gpio &&& ~~~(BitVec.twoPow 16 pin) }

/-- R70, R416. GPIO_SET. -/
def execGpioSet (pin : Fin 16) (s : State) : Host.Outcome State Fault Refusal :=
  .next (if s.standby then s else s.setGpio pin.val true)

/-- R70, R416. GPIO_CLR. -/
def execGpioClr (pin : Fin 16) (s : State) : Host.Outcome State Fault Refusal :=
  .next (if s.standby then s else s.setGpio pin.val false)

/-- R70. The record of a MARK: dispatch time, NTM lock state, page, entry index and tag. The order and widths of the
fields are the model's (log entry 13). -/
def State.markRecord (s : State) (page idx tag : Nat) : List Byte :=
  leBytes s.tick 8 ++ leBytes (s.fld NTM_STATUS_STATE) 1 ++ leBytes page 1 ++ leBytes idx 2 ++ leBytes tag 4 ++ leBytes 0 16

/-- R70. MARK. -/
def execMark (page : Fin 4) (idx : BitVec 14) (tag : Word) (s : State) : Host.Outcome State Fault Refusal :=
  .next (s.ringPut 18 (s.markRecord page.val idx.toNat tag.toNat))

end Sys2Proof.Machine
end

