-- ==== Sys2Proof/Machine/Ntm.lean ====
section
/-!
DEFINITION. The network clock: its tick, steps and slews, the clock states and holdover, master presence, 1PPS and the
10 MHz measurement, and the commands that act on them (R92–R116). Also the captured and held words of register pairs (R8).
-/

namespace Sys2Proof.Machine

/-! ### Pairs (R8) -/

/-- R8. The number of a master. -/
def masterKey : Master → Nat
  | .host => 0
  | .thimble => 1
  | .eng e k => 2 + e.val * 8 + k.val

/-- R8. The key of a master's word of the register at `a`. -/
def pairKey (m : Master) (a : Nat) : Nat := masterKey m * 2 ^ 20 + a

/-- R8. The captured word of a register for a master; 0 before the first capture since the last reset. -/
def State.captured (s : State) (m : Master) (a : Nat) : Word := tget 0#32 s.caps (pairKey m a)

/-- R8. A word is captured for a master. -/
def State.capture (s : State) (m : Master) (a n : Nat) : State :=
  { s with caps := tput 0#32 s.caps (pairKey m a) (BitVec.ofNat 32 n) }

/-- R8. A written _HI word is held for a master. -/
def State.hold (s : State) (m : Master) (a n : Nat) : State :=
  { s with held := tput none s.held (pairKey m a) (some (BitVec.ofNat 32 n)) }

/-- R8. The _HI word that a write of _LO takes with it: the held one, or the register's own. -/
def State.heldN (s : State) (m : Master) (a : Nat) : Nat :=
  match tget none s.held (pairKey m a) with
  | some w => w.toNat
  | none => s.rdN a

/-- R8. The held _HI word has taken effect. -/
def State.unhold (s : State) (m : Master) (a : Nat) : State := { s with held := tput none s.held (pairKey m a) none }

/-- What a read returned. -/
def State.setRdata (s : State) (n : Nat) : State := { s with rdata := BitVec.ofNat 32 n }

/-! ### The clock (R92) -/

/-- A sticky event of NTM: sources 0x60–0x67 (R374). -/
def State.evtNtm (s : State) (f : Fld) : State := s.evt f 0x60 0xFF

/-- R99, R113. The clock states. -/
def ntmFree : Nat := 0
def ntmAcquire : Nat := 1
def ntmLocked : Nat := 2
def ntmHoldover : Nat := 3

def State.ntmState (s : State) : Nat := s.fld NTM_STATUS_STATE

/-- R92. The time in units of 2^-32 ns. -/
def NtmSt.exact (n : NtmSt) : Nat := (n.sec * 1000000000 + n.ns) * 2 ^ 32 + n.frac

/-- R92. The clock at an exact time; it never reads below zero. Past 2^48 s the seconds go on, and the registers show their low
48 bits (log entry 58). -/
def NtmSt.setExact (n : NtmSt) (t : Int) : NtmSt :=
  let t := t.toNat
  { n with sec := t / (1000000000 * 2 ^ 32), ns := t / 2 ^ 32 % 1000000000, frac := t % 2 ^ 32 }

/-- R95. NTM_ADJREM: the remainder in whole nanoseconds, rounded away from zero. -/
def State.adjRem (s : State) : Int :=
  let r := s.ntm.rem
  if 0 ≤ r then (r + 2 ^ 32 - 1) / 2 ^ 32 else -((-r + 2 ^ 32 - 1) / 2 ^ 32)

/-- R95. δ: NTM_INC × SLEWPPM × 10^-6, rounded to the nearest 2^-32 ns. -/
def State.slewDelta (s : State) : Nat := (s.ntmInc * s.fld NTM_ADJCTL_SLEWPPM + 500000) / 1000000

/-! ### 1PPS_OUT (R98) -/

/-- R98. The exact instant of the pulse of a seconds value. -/
def State.ppsInstant (s : State) (sec : Nat) : Int :=
  ((sec * 1000000000 * 2 ^ 32 : Nat) : Int) + toSigned 16 (s.rdN NTM_PPSOFS) * 2 ^ 30

/-- R98. The last seconds value whose pulse instant is at or before an exact time. -/
def State.ppsLast (s : State) (t : Int) : Int :=
  (t - toSigned 16 (s.rdN NTM_PPSOFS) * 2 ^ 30) / (1000000000 * 2 ^ 32)

/-- R98. Seconds values from `a` to `b` have had their pulse or are skipped. -/
def State.ppsMark (s : State) (a b : Int) : State :=
  if a ≤ b ∧ 0 ≤ b then
    let lo := a.toNat
    s.updNtm (fun n => { n with ppsDone :=
      match n.ppsDone with
      | (x, y) :: t => if y + 1 = lo then (x, b.toNat) :: t else (lo, b.toNat) :: (x, y) :: t
      | [] => [(lo, b.toNat)] })
  else s

/-- R98. Whether the pulse of a seconds value is still to come. -/
def State.ppsOpen (s : State) (sec : Int) : Bool :=
  decide (0 ≤ sec) && !(s.ntm.ppsDone.any (fun i => decide (i.1 ≤ sec.toNat) && decide (sec.toNat ≤ i.2)))

/-- R98, R116. Whether the output mode emits now. -/
def State.ppsMode (s : State) : Bool :=
  s.fld NTM_PPSCFG_OUT == 1 || (s.fld NTM_PPSCFG_OUT == 2 && s.bit GLB_STATUS_NTMLOCK)

/-- R108. The eighth of a tick, which ran from exact time `t0` to now, in which the pulse of a seconds value rises: never
later than its instant. -/
def State.ppsSubTick (s : State) (sec t0 : Int) : Nat :=
  let at_ := sec * (1000000000 * 2 ^ 32) + toSigned 16 (s.rdN NTM_PPSOFS) * 2 ^ 30
  min 7 ((at_ - t0) * 8 / max 1 ((s.ntm.exact : Int) - t0)).toNat

/-- R98. The clock has run from one exact time to another: the pulse of a seconds value passed is due. -/
def State.ppsRun (s : State) (t0 : Int) : State :=
  let last := s.ppsLast s.ntm.exact
  if s.ppsLast t0 < last ∧ s.ppsOpen last ∧ s.ppsMode then
    let sub := s.ppsSubTick last t0
    ((s.ppsMark last last).updNtm (fun n => { n with ppsDue := true, ppsSub := sub })).sched 0 .ppsOutPulse
  else s

/-! ### The tick -/

/-- R95. The clock at the next tick: the increment, and while a remainder is left δ or the remainder itself. -/
def State.ntmAdvance (s : State) : State :=
  let r := s.ntm.rem
  let d := s.slewDelta
  let part : Int := if r = 0 then 0 else if r.natAbs < d then r else if 0 < r then d else -(d : Int)
  let t0 : Int := s.ntm.exact
  let s := s.updNtm (fun n => { n.setExact (t0 + s.ntmInc + part) with rem := r - part })
  let s := s.ppsRun t0
  if r ≠ 0 ∧ s.ntm.rem = 0 then s.sched 0 .ntmSlewComplete else s

/-- R92, R95–R98. A step or a set at a tick. -/
def State.ntmStep (s : State) (op : NtmOp) : State :=
  let n := s.ntm
  let new : Int := match op with
    | .step d => n.exact + d * 2 ^ 32
    | .set sec ns => (sec * 1000000000 + ns) * 2 ^ 32
  let s := s.updNtm (fun m => m.setExact new)
  let s := (s.incr NTM_STEPCNT).prkTimeStep n.sec n.ns n.frac
  let s := s.ppsMark (s.ppsLast n.exact + 1) (s.ppsLast s.ntm.exact)
  match op with
  | .step _ => s.evtNtm NTM_EVT_STEP
  | .set _ _ => s.evtNtm NTM_EVT_STEP

/-- R109. The armed alarm time. -/
def State.alarmDue (s : State) : Bool :=
  s.bit NTM_ALARM_SECH_ARM &&
    decide ((s.fld NTM_ALARM_SECH_SEC * 2 ^ 32 + s.rdN NTM_ALARM_SECL) * 1000000000 + s.rdN NTM_ALARM_NS ≤
      s.ntm.sec * 1000000000 + s.ntm.ns)

/-- R92–R109. One tick of the network clock. -/
def State.ntmTick (s : State) : State :=
  let s := s.ntmAdvance
  let ops := s.ntm.ops
  let s := if ops.isEmpty then s
    else forL ops (fun op t => t.ntmStep op) (s.updNtm (fun n => { n with ops := [] }))
  if s.alarmDue then s.sched 0 .ntmAlarm else s

/-! ### Master presence (R100) -/

/-- R100. Whether an observation of tick `t` is within the last NTM_MTMO milliseconds. -/
def State.withinMtmo (s : State) (t : Option Nat) : Bool :=
  match t with
  | some x => decide (s.tick < x + ms (s.rdN NTM_MTMO))
  | none => false

/-- R100, R113. Presence of the master on a port, whatever SRC (log entry 58), and the master's 1PPS_IN edge within the
timeout. -/
def State.mpres (s : State) (port : Nat) : Bool :=
  s.bit (if port = 0 then NTM_CTRL_PORT0 else NTM_CTRL_PORT1) && s.bit (ETH_CTRL_EN port) &&
    s.withinMtmo (if port = 0 then s.ntm.sync0 else s.ntm.sync1)
def State.ppsPres (s : State) : Bool := s.withinMtmo s.ntm.ppsIn

/-- R100. The master is present. -/
def State.masterPresent (s : State) : Bool :=
  if s.bit NTM_CTRL_SRC then s.ppsPres else s.mpres 0 || s.mpres 1

/-- R100. The master's last sign, for the estimate of R102. -/
def State.lastSign (s : State) : Nat :=
  let l := if s.bit NTM_CTRL_SRC then [s.ntm.ppsIn]
    else [if s.bit NTM_CTRL_PORT0 then s.ntm.sync0 else none, if s.bit NTM_CTRL_PORT1 then s.ntm.sync1 else none]
  (l.filterMap id).foldl max 0

/-- R99, R110. The tick from which the master has been absent for NTM_MTMO: counted from its last sign, or from the write or
reset that ended its presence (log entry 58). -/
def State.masterDue (s : State) : Nat :=
  let d := ms (s.rdN NTM_MTMO)
  max (s.lastSign + d) (match s.ntm.gone with
    | some t => t + d
    | none => 0)

/-- R99. While the clock is LOCKED, the end of NTM_MTMO is scheduled. -/
def State.masterArm (s : State) : State :=
  if s.ntmState = ntmLocked then (s.unsched (· == .ntmMasterTimeout)).schedAt (max s.tick s.masterDue) .ntmMasterTimeout else s

/-- R99, R100. What follows a write or reset that can change presence; `was` is presence before it. -/
def State.masterWatch (s : State) (was : Bool) : State :=
  (if s.masterPresent then s.updNtm (fun n => { n with gone := none })
   else if was then s.updNtm (fun n => { n with gone := some s.tick }) else s).masterArm

/-! ### States and holdover (R99–R102) -/

/-- R31, R101. NTMLOCK in GLB_STATUS; HOOP_STATUS.TNTM copies it when read. -/
def State.setNtmLock (s : State) (b : Bool) : State :=
  let s := if s.bit GLB_STATUS_NTMLOCK && !b then s.updNtm (fun n => { n with unlocked := s.tick }) else s
  (s.setB GLB_STATUS_NTMLOCK b).updEnerg

/-- R102. The estimate of the holdover error in nanoseconds, rounded up, saturating. A 10 MHz input that returns in holdover
brings the second form back, with the error counted as 0 while it was absent (log entry 58). -/
def State.holdEstimate (s : State) : Nat :=
  let e0 := s.rdN NTM_HOLDE0
  let d := s.tick - s.ntm.holdRef
  let v :=
    if s.bit NTM_CTRL_HOLDREF10 && s.bit NTM_STATUS_REF10 then e0 + (s.ntm.holdInt.natAbs * 2 + 10 ^ 11 - 1) / 10 ^ 11
    else e0 + (s.fld NTM_HOLDDRIFT_FRQ * d * (2 * 10 ^ 10) + s.fld NTM_HOLDDRIFT_AGE * d * d * 2 + 10 ^ 21 - 1) / 10 ^ 21
  min v 0xFFFFFFFF

/-- R102. The signed error of NTM against 10 MHz, as the integral uses it: 0 where the input is absent. -/
def State.ref10Err (s : State) : Int := if s.rdN NTM_REF10ERR = 0x80000000 then 0 else toSigned 32 (s.rdN NTM_REF10ERR)

/-- R102. The integral of the 10 MHz error up to this tick. -/
def State.holdInteg (s : State) : State :=
  s.updNtm (fun n => { n with holdInt := n.holdInt + (s.ref10Err - n.holdE0) * (s.tick - n.holdIntTick : Nat), holdIntTick := s.tick })

/-- R101. NTMLOCK and HOLDEXC follow NTM_HOLD and its limit in HOLDOVER. -/
def State.holdCheck (s : State) : State :=
  let exc := decide (s.rdN NTM_HOLDLIM < s.rdN NTM_HOLD)
  let was := s.bit NTM_STATUS_HOLDEXC
  let s := (s.setB NTM_STATUS_HOLDEXC exc).setNtmLock (!exc)
  if exc && !was then s.evtNtm NTM_EVT_HOLDEXC else s

/-- R101, R102. The estimate is shown, and NTMLOCK follows the limit. -/
def State.holdUpdate (s : State) : State :=
  let s := s.holdInteg
  (s.wrN NTM_HOLD s.holdEstimate).holdCheck

/-- R99. The clock takes a state other than HOLDOVER: NTM_HOLD reads 0. -/
def State.ntmEnter (s : State) (st : Nat) : State :=
  let s := ((s.setF NTM_STATUS_STATE st).wrN NTM_HOLD 0).setB NTM_STATUS_HOLDEXC false
  (s.unsched (· == .ntmHoldUpdate)).setNtmLock (st == ntmLocked)

/-- R99, R102. The clock enters HOLDOVER: the slew remainder is discarded and the estimate starts from tick `ref`. -/
def State.ntmHold (s : State) (ref : Nat) : State :=
  let s := (s.setF NTM_STATUS_STATE ntmHoldover).setB NTM_STATUS_SLEWING false
  let s := s.updNtm (fun n => { n with rem := 0, holdRef := ref, holdE0 := s.ref10Err, holdInt := 0, holdIntTick := s.tick })
  (s.holdUpdate.unsched (· == .ntmHoldUpdate)).sched (ms 1) .ntmHoldUpdate

/-- R99. The state commands; one that the table does not list for the present state is ignored. -/
def State.ntmCmd (s : State) (cmd : Nat) : State :=
  let st := s.ntmState
  if cmd = 1 then (if st = ntmFree then s else s.ntmEnter ntmFree)
  else if cmd = 2 then (if st = ntmFree ∨ st = ntmHoldover then s.ntmEnter ntmAcquire else s)
  else if cmd = 3 then
    (if st = ntmAcquire then (if s.masterPresent then (s.ntmEnter ntmLocked).masterArm else s.evtNtm NTM_EVT_LOCKREF) else s)
  else if cmd = 4 then (if st = ntmLocked then s.ntmHold s.tick else s)
  else s

/-- R99, R100. The identity or source of the master has changed: earlier matches are discarded. -/
def State.masterChange (s : State) (ref : Nat) : State :=
  let s := s.updNtm (fun n => { n with sync0 := none, sync1 := none, ppsIn := none, gone := none })
  if s.ntmState = ntmLocked then (s.ntmHold ref).evtNtm NTM_EVT_MASTERCHG else s

/-- R100. A sign of the master: the timeout runs anew. -/
def State.masterSign (s : State) : State :=
  (if s.masterPresent then s.updNtm (fun n => { n with gone := none }) else s).masterArm

/-- R99, R112. A write of NTM_CTRL: SRC and the ports take effect before CMD (log entry 58). -/
def State.ntmCtrl (s : State) (w : Nat) : State :=
  let was := s.masterPresent
  let src := bitOf w 4
  let change := src != s.bit NTM_CTRL_SRC
  let ref := s.lastSign
  let s := (((s.setB NTM_CTRL_HOLDREF10 (bitOf w 5)).setB NTM_CTRL_SRC src).setB NTM_CTRL_PORT1 (bitOf w 3)).setB
    NTM_CTRL_PORT0 (bitOf w 2)
  let s := if change then s.masterChange ref else s.masterWatch was
  s.ntmCmd (bitsOf w 9 3)

/-- R8, R99. A write of NTM_MASTERID_LO with the held high word, or of NTM_MASTERPORT. -/
def State.masterId (s : State) (m : Master) (w : Nat) : State :=
  let ref := s.lastSign
  (((s.wrN NTM_MASTERID_HI (s.heldN m NTM_MASTERID_HI)).unhold m NTM_MASTERID_HI).wrN NTM_MASTERID_LO w).masterChange ref
def State.masterPort (s : State) (w : Nat) : State :=
  let ref := s.lastSign
  (s.wrN NTM_MASTERPORT (w % 2 ^ 17)).masterChange ref

/-! ### Corrections (R93, R95, R96) -/

/-- R93. A write of NTM_INC_LO with the held high word; the pair is limited to 1.5–2.5 ns. -/
def State.ntmIncWrite (s : State) (m : Master) (lo : Nat) : State :=
  let hi := bitsOf (s.heldN m NTM_INC_HI) 0 2
  let s := s.unhold m NTM_INC_HI
  if s.ntmState = ntmHoldover then s.evtNtm NTM_EVT_HOLDWR
  else
    let v := clampNat 0x180000000 0x280000000 (hi * 2 ^ 32 + lo % 2 ^ 32)
    (s.wrN NTM_INC_HI (v / 2 ^ 32)).wrN NTM_INC_LO (v % 2 ^ 32)

/-- R95. A write of NTM_ADJ. -/
def State.ntmAdj (s : State) (w : Nat) : State :=
  if s.ntmState = ntmHoldover then s.evtNtm NTM_EVT_HOLDWR
  else
    let v := clampInt (-999999999) 999999999 (toSigned 32 w)
    if s.bit NTM_ADJCTL_MODE then
      let lim : Int := 999999999 * 2 ^ 32
      let s := s.updNtm (fun n => { n with rem := clampInt (-lim) lim (n.rem + v * 2 ^ 32) })
      s.setB NTM_STATUS_SLEWING (s.ntm.rem != 0)
    else s.updNtm (fun n => { n with ops := n.ops ++ [.step v] })

/-- R96. NTM_ADJCTL.SET = 1. -/
def State.ntmSet (s : State) : State :=
  if s.ntmState = ntmFree ∨ s.ntmState = ntmAcquire then
    let sec := bitsOf (s.rdN NTM_SETSEC_HI) 0 16 * 2 ^ 32 + s.rdN NTM_SETSEC_LO
    (s.updNtm (fun n => { n with rem := 0, ops := n.ops ++ [.set sec (s.rdN NTM_SETNS)] })).setB NTM_STATUS_SLEWING false
  else s.evtNtm NTM_EVT_CFGREF

/-- R115. A write of NTM_ADJCTL. -/
def State.ntmAdjCtl (s : State) (w : Nat) : State :=
  let s := (s.setB NTM_ADJCTL_MODE (bitOf w 8)).setF NTM_ADJCTL_SLEWPPM (max 1 (bitsOf w 0 8))
  if bitOf w 9 then s.ntmSet else s

/-- R98. A write of NTM_PPSOFS: a pulse whose instant comes to lie in the past is not emitted. -/
def State.ppsOfs (s : State) (w : Nat) : State :=
  let before := s.ppsLast s.ntm.exact
  let s := s.wrN NTM_PPSOFS (w % 65536)
  s.ppsMark (before + 1) (s.ppsLast s.ntm.exact)

/-! ### Commands -/

/-- R93. NTM_INC_WRITE. -/
def execNtmIncWrite (m : Master) (lo : Word) (s : State) : Host.Outcome State Fault Refusal :=
  .next (s.gate m (fun s => s.ntmIncWrite m lo.toNat))

/-- R95. NTM_ADJ_STEP: a write of NTM_ADJ in step mode. -/
def execNtmAdjStep (m : Master) (v : Word) (s : State) : Host.Outcome State Fault Refusal :=
  .next (s.gate m (fun s => if s.bit NTM_ADJCTL_MODE then s else s.ntmAdj v.toNat))

/-- R95. NTM_ADJ_SLEW: a write of NTM_ADJ in slew mode. -/
def execNtmAdjSlew (m : Master) (v : Word) (s : State) : Host.Outcome State Fault Refusal :=
  .next (s.gate m (fun s => if s.bit NTM_ADJCTL_MODE then s.ntmAdj v.toNat else s))

/-- R95. NTM_SLEW_COMPLETE. -/
def execNtmSlewComplete (s : State) : Host.Outcome State Fault Refusal :=
  .next (if s.ntm.rem = 0 then s.setB NTM_STATUS_SLEWING false else s)

/-- R96. NTM_SET. -/
def execNtmSet (m : Master) (s : State) : Host.Outcome State Fault Refusal := .next (s.gate m (fun s => s.ntmSet))

/-- R99. NTM_CMD_FREE. -/
def execNtmCmdFree (m : Master) (s : State) : Host.Outcome State Fault Refusal := .next (s.gate m (fun s => s.ntmCmd 1))

/-- R99. NTM_CMD_ACQUIRE. -/
def execNtmCmdAcquire (m : Master) (s : State) : Host.Outcome State Fault Refusal := .next (s.gate m (fun s => s.ntmCmd 2))

/-- R99. NTM_CMD_LOCK. -/
def execNtmCmdLock (m : Master) (s : State) : Host.Outcome State Fault Refusal := .next (s.gate m (fun s => s.ntmCmd 3))

/-- R99. NTM_CMD_HOLD. -/
def execNtmCmdHold (m : Master) (s : State) : Host.Outcome State Fault Refusal := .next (s.gate m (fun s => s.ntmCmd 4))

/-- R99, R100. NTM_MASTER_TIMEOUT: NTM_MTMO has passed since a sign of the master. -/
def execNtmMasterTimeout (s : State) : Host.Outcome State Fault Refusal :=
  .next (if s.ntmState = ntmLocked ∧ s.masterPresent = false ∧ s.masterDue ≤ s.tick then
      (s.ntmHold s.lastSign).evtNtm NTM_EVT_MASTERLOSS
    else s)

/-- R99, R100. NTM_MASTERID_WRITE: a write of NTM_MASTERID_LO (0), NTM_MASTERPORT (1), or NTM_CTRL with a new SRC (2). -/
def execNtmMasteridWrite (m : Master) (reg : Fin 3) (v : Word) (s : State) : Host.Outcome State Fault Refusal :=
  .next (s.gate m (fun s =>
    if reg.val = 0 then s.masterId m v.toNat else if reg.val = 1 then s.masterPort v.toNat else s.ntmCtrl v.toNat))

/-- R102. NTM_HOLD_UPDATE: every 1 ms in HOLDOVER. -/
def execNtmHoldUpdate (s : State) : Host.Outcome State Fault Refusal :=
  .next (if s.ntmState = ntmHoldover then
      (s.holdUpdate.unsched (· == .ntmHoldUpdate)).sched (ms 1) .ntmHoldUpdate
    else s)

/-- R98, R108. PPS_OUT_PULSE: 1PPS_OUT rises and stays high for WIDTH × 10 µs. -/
def execPpsOutPulse (s : State) : Host.Outcome State Fault Refusal :=
  .next (if s.ntm.ppsDue then
      (((s.updNtm (fun n => { n with ppsDue := false, ppsOut := true })).emit (.ppsRise s.ntm.ppsSub)).unsched
        (· == .ppsOutPulseEnd)).sched (us (10 * s.fld NTM_PPSCFG_WIDTH)) .ppsOutPulseEnd
    else s)

/-- R108. PPS_OUT_PULSE_END. -/
def execPpsOutPulseEnd (s : State) : Host.Outcome State Fault Refusal :=
  .next (s.updNtm (fun n => { n with ppsOut := false }))

/-- R108. An edge of 1PPS_IN: the selected one is captured, unless it is within 500 ms of the last one that was
captured (log entry 58). The capture carries STEPGEN (R97). -/
def State.ppsEdge (s : State) (falling : Bool) (quarter : Nat) : State :=
  let close := match s.ntm.lastEdge with
    | some t => decide (s.tick < t + ms 500)
    | none => false
  if falling != s.bit NTM_PPSCFG_INEDGE || close then s
  else
    let n := s.ntm.setExact ((s.ntm.exact + quarter * 2 ^ 30 : Nat) : Int)
    let s := (s.wrN NTM_PPSIN_NS (n.frac / 2 ^ 30 * 2 ^ 30 + n.ns)).wrN NTM_PPSIN_SECL n.sec
    (s.updNtm (fun x => { x with lastEdge := some s.tick, ppsIn := some s.tick, edgeGen := s.rdN NTM_STEPCNT % 16 })).masterSign

/-- R108. PPS_IN_EDGE, `quarter` × 250 ps after the tick. -/
def execPpsInEdge (falling : Bool) (quarter : Fin 8) (s : State) : Host.Outcome State Fault Refusal :=
  .next (s.ppsEdge falling quarter.val)

/-- R108. REF10_MEASURE: the error measured over the last NTM second is published while the input is present. -/
def execRef10Measure (err : Word) (s : State) : Host.Outcome State Fault Refusal :=
  .next (let s := s.holdInteg
    if s.bit NTM_STATUS_REF10 then s.wr NTM_REF10ERR err else s.wrN NTM_REF10ERR 0x80000000)

/-- R45, R102, R108. REF10M_LOSS. -/
def execRef10mLoss (s : State) : Host.Outcome State Fault Refusal :=
  .next (if s.bit GLB_CLKSTAT_REF10M then
      let s := s.holdInteg
      (((s.setB GLB_CLKSTAT_REF10M false).setB GLB_CLKSTAT_REF10MLOSS true).setB NTM_STATUS_REF10 false).wrN NTM_REF10ERR 0x80000000
    else s)

/-- R45, R113, R543. REF10M_DETECT. -/
def execRef10mDetect (s : State) : Host.Outcome State Fault Refusal :=
  .next ((s.setB GLB_CLKSTAT_REF10M true).setB NTM_STATUS_REF10 true)

end Sys2Proof.Machine
end

