-- ==== Sys2Proof/Machine/Slots.lean ====
section
/-!
DEFINITION. The task slots of the Bobbin engines: wakes, dispatch, runs and aborts, and the commands that act on them and
on the Bobbin watchdog (R132–R151).
-/

namespace Sys2Proof.Machine

/-- The internal state of engine `e`. -/
def State.eng (s : State) (e : Nat) : EngSt := tget {} s.engs e

/-- The state with engine `e`'s internal state changed. -/
def State.updEng (s : State) (e : Nat) (f : EngSt → EngSt) : State := { s with engs := tput {} s.engs e (f (s.eng e)) }

/-- The context of a slot. -/
def State.slot (s : State) (e k : Nat) : SlotSt := tget {} (s.eng e).slots k

/-- The state with a slot's context changed. -/
def State.updSlot (s : State) (e k : Nat) (f : SlotSt → SlotSt) : State :=
  s.updEng e (fun g => { g with slots := tput {} g.slots k (f (tget {} g.slots k)) })

/-- A number as an engine index. -/
def engIx (e : Nat) : Fin 16 := ⟨e % 16, Nat.mod_lt _ (by decide)⟩

/-- A number as a slot index. -/
def slotIx (k : Nat) : Fin 8 := ⟨k % 8, Nat.mod_lt _ (by decide)⟩

/-- R154. The slot states. -/
def slDisabled : Nat := 0
def slIdle : Nat := 1
def slWaiting : Nat := 2
def slReady : Nat := 3
def slRunning : Nat := 4

def State.slotState (s : State) (e k : Nat) : Nat := s.fld (BOB_SSTAT_STATE e k)
def State.setSlotState (s : State) (e k st : Nat) : State := s.setF (BOB_SSTAT_STATE e k) st

/-- R133. The captures and held words of a slot's context are cleared with it. -/
def State.clearCaps (s : State) (m : Master) : State :=
  let lo := pairKey m 0
  let keep (k : Nat) : Bool := decide (k < lo) || decide (lo + 2 ^ 20 ≤ k)
  { s with caps := s.caps.filter (fun e => keep e.1), held := s.held.filter (fun e => keep e.1) }

/-- R124. The engine cycle at the start of this tick. -/
def State.cycNow (s : State) : Nat := 2 * s.tick

/-- R137. Budget cycles that a slot has used in its run. -/
def State.slotUsed (s : State) (e k : Nat) : Nat :=
  (s.slot e k).used +
    (if s.slotState e k = slRunning ∧ s.bit (BOB_STATUS_BUSY e) = true ∧ s.fld (BOB_STATUS_CURSLOT e) = k then
      s.cycNow - (s.eng e).since else 0)

/-- R123, R149. The cycles since EN was last set, at engine cycle `c`: 0 where it never was. -/
def State.cycSince (s : State) (e c : Nat) : Nat :=
  match (s.eng e).enTick with
  | some t => c - 2 * t
  | none => 0

/-- R149. BOB_CYC and BOB_BUSY. -/
def State.engCyc (s : State) (e : Nat) : Nat := s.cycSince e s.cycNow
def State.engBusy (s : State) (e : Nat) : Nat :=
  (s.eng e).busy + (if s.bit (BOB_STATUS_BUSY e) then s.cycNow - (s.eng e).since else 0)

/-! ### Wakes (R134–R136, R140) -/

/-- R140. Whether a wake of this slot is deferred. -/
def State.deferred (s : State) (e k : Nat) : Bool :=
  let lvl := s.fld (BOB_SCFG_DEFLVL e k)
  let maxD := s.fld (BOB_SCFG_DEFMAX e k)
  decide (1 ≤ lvl) && decide (lvl ≤ s.fld THM_STATUS_STEP) && !(maxD != 0 && decide (maxD ≤ s.fld (BOB_SSTAT_DEFRUN e k)))

/-- R136. A wake reaches a slot of an engine that accepts wakes. A READY slot is dispatched 8 engine cycles later. -/
def State.wake (s : State) (e k : Nat) (word : Nat) : State :=
  let st := s.slotState e k
  if !s.bit (BOB_STATUS_RUNNING e) || s.bit (BOB_STATUS_HELD e) || st == slDisabled then s
  else
    let s := s.incr (BOB_SWAKE e k)
    if st = slReady ∨ st = slRunning then s.count (BOB_SDROP e k)
    else if s.bit (BOB_SSTAT_SKIP e k) then (s.setB (BOB_SSTAT_SKIP e k) false).count (BOB_SDROP e k)
    else if s.deferred e k then
      (s.setF (BOB_SSTAT_DEFRUN e k) (min 255 (s.fld (BOB_SSTAT_DEFRUN e k) + 1))).count (BOB_SDEFER e k)
    else
      let s := (s.setF (BOB_SSTAT_DEFRUN e k) 0).setSlotState e k slReady
      (s.updSlot e k (fun c => { c with wake := BitVec.ofNat 32 word, mode := if st = slWaiting then 1 else 0 })).sched 4
        (.slotDispatch (engIx e))

/-- R134. A wake word: bits [31:3] of the source's word and the source in [2:0]. -/
def wakeWord (w src : Nat) : Nat := w / 8 * 8 % 2 ^ 32 + src

/-! ### Runs (R133, R136–R138) -/

/-- R123, R136. A start from the entry point: the context is cleared. -/
def State.slotFresh (s : State) (e k : Nat) : State :=
  let c := s.slot e k
  let a1 := (if c.abort = 1 then 1 else 0) + (if c.first then 2 else 0) + (if c.abort = 2 then 4 else 0)
  let xs := tput 0#32 (tput 0#32 (tput 0#32 [] 2 (s.rd (BOB_SSP e k))) 10 c.wake) 11 (BitVec.ofNat 32 a1)
  let s := s.updEng e (fun g => { g with ready := g.ready.filter (fun x => x.1 / 64 != k) })
  ((s.clearCaps (.eng (engIx e) (slotIx k))).setB (BOB_SSTAT_RESTART e k) false).updSlot e k (fun c =>
    { c with pc := s.rdN (BOB_SENTRY e k) / 2 * 2, xs, fs := [], fcsr := 0, first := false, abort := 0,
             used := 0, budget := s.fld (BOB_SBUD_BUDGET e k), run := c.run + 1 })

/-- R132. A start after WAITSLOT. -/
def State.slotResume (s : State) (e k : Nat) : State :=
  s.updSlot e k (fun c =>
    { c with xs := if c.waitRd = 0 then c.xs else tput 0#32 c.xs c.waitRd c.wake,
             used := 0, budget := s.fld (BOB_SBUD_BUDGET e k), run := c.run + 1 })

/-- R136. The highest-priority READY slot. -/
def State.readySlot (s : State) (e : Nat) : Option Nat := (upto 8).find? (fun k => s.slotState e k == slReady)

/-- R137. The running slot's use of the engine up to engine cycle `c` is booked. -/
def State.bookRun (s : State) (e c : Nat) : State :=
  if s.bit (BOB_STATUS_BUSY e) then
    let d := c - (s.eng e).since
    (s.updSlot e (s.fld (BOB_STATUS_CURSLOT e)) (fun t => { t with used := t.used + d })).updEng e
      (fun g => { g with busy := g.busy + d, since := max g.since c })
  else s

/-- R124, R133. The engine cycle at which the engine can start something new: now, or when a blocking instruction or a context
switch in progress is over. -/
def State.engCycle (s : State) (e : Nat) : Nat := max s.cycNow (s.eng e).busyTo

/-- R133, R136. The switch into slot `k`, which takes 12 engine cycles. -/
def State.switchTo (s : State) (e k : Nat) : State :=
  let s := match (s.slot e k).mode with
    | 0 => s.slotFresh e k
    | 1 => s.slotResume e k
    | _ => s
  let s := ((s.setSlotState e k slRunning).setB (BOB_STATUS_BUSY e) true).setF (BOB_STATUS_CURSLOT e) k
  let c := s.engCycle e
  s.updEng e (fun g => { g with since := c, nextIssue := c + 12, busyTo := c + 12, vcWait := none })

/-- R133, R136. The highest-priority READY slot takes the engine if it is free or runs a lower slot. -/
def State.dispatchSlot (s : State) (e : Nat) : State :=
  if s.bit (BOB_STATUS_HELD e) then s
  else
    match s.readySlot e with
    | none => s
    | some k =>
      if s.bit (BOB_STATUS_BUSY e) then
        let cur := s.fld (BOB_STATUS_CURSLOT e)
        if k < cur then
          (((s.bookRun e (s.engCycle e)).setSlotState e cur slReady).updSlot e cur (fun c => { c with mode := 2 })).eccMeet 8 e
            |>.switchTo e k
        else s
      else s.switchTo e k

/-- R142. The engine is free: a stop that waits for its run is complete, and a READY slot follows. -/
def State.engFree (s : State) (e : Nat) : State :=
  let s := s.setB (BOB_STATUS_BUSY e) false
  if s.bit (BOB_STATUS_STOPPING e) then (s.setB (BOB_STATUS_STOPPING e) false).setB (BOB_STATUS_RUNNING e) false
  else if (s.readySlot e).isSome then s.sched 0 (.slotDispatch (engIx e))
  else s

/-- R136. What a slot becomes when its run ends: DISABLED if its EN or the engine's was cleared. -/
def State.afterRun (s : State) (e k st : Nat) : State :=
  if s.bit (BOB_SCFG_EN e k) && s.bit (BOB_CTRL_EN e) then s.setSlotState e k st else s.setSlotState e k slDisabled

/-- R132, R136. WAITSLOT of the running slot, over at engine cycle `t`: its next PC, its rd, and the run's length. -/
def State.slotWait (s : State) (e k pc rd t : Nat) : State :=
  let s := (s.bookRun e t).updEng e (fun g => { g with busyTo := t })
  let used := min 0xFFFFFF (s.slot e k).used
  let s := s.wrN (BOB_SLAST e k) used
  let s := if s.fld (BOB_SMAX_MAX e k) < used then s.setF (BOB_SMAX_MAX e k) used else s
  (((s.updSlot e k (fun c => { c with pc, waitRd := rd, mode := 1 })).afterRun e k slWaiting)).engFree e

/-- R138, R139, R152. The record of an abort: cause, slot, cycles used, PC and address. -/
def State.abortInfo (s : State) (e cause k used pc addr : Nat) : State :=
  let s := s.wrN (BOB_FINFO e) (cause * 2 ^ 28 + k * 2 ^ 24 + min 0xFFFFFF used)
  ((s.wrN (BOB_FPC e) pc).wrN (BOB_FADDR e) addr).setBit (BOB_FAULT e) (if cause = 1 then 8 + k else k) true

/-- R138, R139. An abort of the running slot at instruction address `pc`, over at engine cycle `t`. R390: DETAIL of the
event is the cause. -/
def State.slotAbort (s : State) (e cause addr pc t : Nat) : State :=
  if s.bit (BOB_STATUS_BUSY e) then
    let k := s.fld (BOB_STATUS_CURSLOT e)
    let s := (s.bookRun e t).updEng e (fun g => { g with busyTo := t })
    let ovr := cause == 1
    let s := s.abortInfo e cause k (s.slot e k).used pc addr
    let s := (s.setB (BOB_SSTAT_RESTART e k) true).updSlot e k (fun c => { c with abort := if ovr then 1 else 2, mode := 0 })
    let s := if ovr then s.count (BOB_SOVR e k) else s
    let s := if ovr && s.bit (BOB_SCFG_SKIPNEXT e k) then s.setB (BOB_SSTAT_SKIP e k) true else s
    ((s.afterRun e k slIdle).engFree e).raiseD (if ovr then 0x10 + e else 0x20 + e) k cause
  else s

/-! ### Enables (R136, R142) -/

/-- R136. EN of a slot is set on an engine that accepts wakes. -/
def State.slotOn (s : State) (e k : Nat) : State :=
  if s.slotState e k = slDisabled then
    ((s.setSlotState e k slIdle).setB (BOB_SSTAT_RESTART e k) false).updSlot e k (fun c => { c with first := true, abort := 0, mode := 0 })
  else s

/-- R136. EN of a slot is cleared: at once, or after its run. -/
def State.slotOff (s : State) (e k : Nat) : State :=
  if s.slotState e k = slRunning then s else s.setSlotState e k slDisabled

/-- R153. A write of BOB_SCFGn. -/
def State.slotCfg (s : State) (e k w : Nat) : State :=
  let en := bitOf w 31
  let lvl := min 8 (bitsOf w 24 4)
  let s := s.wrN (BOB_SCFG e k) (putBits (bitsOf w 29 3 * 2 ^ 29 + bitsOf w 16 8 * 2 ^ 16) 24 4 lvl)
  if en then (if s.bit (BOB_CTRL_EN e) then s.slotOn e k else s) else s.slotOff e k

/-- R142. A write of BOB_CTRL. EN can be set only while LOADED is 1. -/
def State.engCtrl (s : State) (m : Master) (e : Nat) (en : Bool) : State :=
  if en then
    if s.bit (BOB_CTRL_EN e) then s
    else if !s.bit (BOB_STATUS_LOADED e) then s.refuse m (BOB_CTRL e)
    else
      let s := ((s.setB (BOB_CTRL_EN e) true).setB (BOB_STATUS_RUNNING e) true).setB (BOB_STATUS_STOPPING e) false
      let s := s.updEng e (fun g => { g with enTick := some s.tick, instret := 0 })
      forN 8 (fun k t => if t.bit (BOB_SCFG_EN e k) then t.slotOn e k else t) s
  else if s.bit (BOB_CTRL_EN e) then
    let s := s.setB (BOB_CTRL_EN e) false
    let s := forN 8 (fun k t => t.slotOff e k) s
    if s.bit (BOB_STATUS_BUSY e) then s.setB (BOB_STATUS_STOPPING e) true else s.setB (BOB_STATUS_RUNNING e) false
  else s

/-- R141. At REFS_DUE, a control slot that is READY or RUNNING is a window miss of its engine, once per cycle. -/
def State.windowCheck (s : State) : State :=
  forN 16 (fun e t =>
    match (upto 8).find? (fun k => t.bit (BOB_SCFG_WINDOW e k) && decide (slReady ≤ t.slotState e k)) with
    | some k => (t.count (BOB_WINMISS e)).raise (0x40 + e) k
    | none => t) s

/-! ### Commands -/

/-- R70, R134, R416. TASK_WAKE. -/
def execTaskWake (engines : BitVec 16) (arg : Word) (s : State) : Host.Outcome State Fault Refusal :=
  .next (if s.standby then s
    else forL (bitsIn 16 engines.toNat) (fun e t => t.wake e (arg.toNat % 8) (wakeWord arg.toNat 0)) s)

/-- R134, R151. A write of BOB_WAKE. -/
def State.bobWake (s : State) (m : Master) (e w : Nat) : State :=
  let src := if m = .host then 3 else 2
  forL (bitsIn 8 (w % 256)) (fun k t => t.wake e k (wakeWord (w / 256 * 256) src)) s

/-- R134. BOB_WAKE_WRITE. -/
def execBobWakeWrite (m : Master) (e : Fin 16) (w : Word) (s : State) : Host.Outcome State Fault Refusal :=
  .next (s.gate m (fun s => s.bobWake m e.val w.toNat))

/-- R133, R136. SLOT_DISPATCH. -/
def execSlotDispatch (e : Fin 16) (s : State) : Host.Outcome State Fault Refusal := .next (s.dispatchSlot e.val)

/-- R124. The engine cycle in which the next instruction issues. -/
def State.issueAt (s : State) (e : Nat) : Nat := max s.cycNow (s.eng e).nextIssue

/-- R137. The engine cycle at which the running slot's count reaches its budget, or the first instruction boundary after it. -/
def State.overAt (s : State) (e : Nat) : Nat :=
  let c := s.slot e (s.fld (BOB_STATUS_CURSLOT e))
  max (s.engCycle e) ((s.eng e).since + (c.budget - c.used))

/-- R137. The running slot of an engine is stopped in this tick, before its next instruction issues. -/
def State.overBudget (s : State) (e : Nat) : Bool :=
  s.bit (BOB_STATUS_BUSY e) && (s.slot e (s.fld (BOB_STATUS_CURSLOT e))).budget != 0 &&
    decide (s.overAt e ≤ s.cycNow + 1) && decide (s.overAt e ≤ s.issueAt e)

/-- R137, R138. SLOT_BUDGET_OVERRUN. -/
def execSlotBudgetOverrun (e : Fin 16) (s : State) : Host.Outcome State Fault Refusal :=
  .next (if s.overBudget e.val then s.slotAbort e.val 1 0 (s.slot e.val (s.fld (BOB_STATUS_CURSLOT e.val))).pc (s.overAt e.val) else s)

/-- R136. SLOT_ENABLE: EN of BOB_SCFGn is written 1. -/
def execSlotEnable (m : Master) (e : Fin 16) (slot : Fin 8) (s : State) : Host.Outcome State Fault Refusal :=
  .next (s.gate m (fun s => s.slotCfg e.val slot.val (putBit (s.rdN (BOB_SCFG e.val slot.val)) 31 true)))

/-- R136. SLOT_DISABLE: EN of BOB_SCFGn is written 0. -/
def execSlotDisable (m : Master) (e : Fin 16) (slot : Fin 8) (s : State) : Host.Outcome State Fault Refusal :=
  .next (s.gate m (fun s => s.slotCfg e.val slot.val (putBit (s.rdN (BOB_SCFG e.val slot.val)) 31 false)))

/-- R142. ENGINE_ENABLE. -/
def execEngineEnable (m : Master) (e : Fin 16) (s : State) : Host.Outcome State Fault Refusal :=
  .next (s.gate m (fun s => s.startGate m (BOB_CTRL e.val) (fun s => s.engCtrl m e.val true)))

/-- R142. ENGINE_DISABLE. -/
def execEngineDisable (m : Master) (e : Fin 16) (s : State) : Host.Outcome State Fault Refusal :=
  .next (s.gate m (fun s => s.engCtrl m e.val false))

/-- R147. A write of BOB_WDKICK. -/
def State.bobKick (s : State) (e : Nat) : State := s.updThb (fun t => { t with kicks := t.kicks ||| BitVec.twoPow 16 e })

/-- R147. BOB_WDKICK. -/
def execBobWdkick (m : Master) (e : Fin 16) (s : State) : Host.Outcome State Fault Refusal :=
  .next (s.gate m (fun s => s.bobKick e.val))

/-- R147. The check at the end of a period: enabled engines that did not kick. -/
def State.bobCheck (s : State) : State :=
  let kicks := s.thb.kicks
  let s := forN 16 (fun e t =>
    if t.bit (BOB_CTRL_EN e) && !kicks.getLsbD e then
      let t := (t.setBit THB_BWDSTAT e true).raise (0x30 + e) 0xFF
      if bitOf (t.fld THB_BWDCFG_HALT) e then t.engCtrl .thimble e false else t
    else t) s
  s.updThb (fun t => { t with kicks := 0 })

/-- R147. The next period of the Bobbin watchdog. -/
def State.bobTimer (s : State) : State :=
  let s := s.unsched (· == .bobbinWatchdogCheck)
  if s.fld THB_BWDCFG_PERIOD = 0 then s else s.sched (us (s.fld THB_BWDCFG_PERIOD)) .bobbinWatchdogCheck

/-- R147, R480. BOBBIN_WATCHDOG_CHECK; during a restart of Thimble no check is made. -/
def execBobbinWatchdogCheck (s : State) : Host.Outcome State Fault Refusal :=
  .next (if s.fld THB_BWDCFG_PERIOD = 0 then s
    else if s.bit SEC_STATUS_WIPING || s.bit SEC_STATUS_RESTART then s.bobTimer else s.bobCheck.bobTimer)

/-- R147, R156. A write of THB_BWDCFG starts a period. -/
def State.bwdCfg (s : State) (w : Nat) : State :=
  let p := bitsOf w 0 16
  let p := if 0 < p ∧ p < 100 then 100 else p
  ((s.wrN THB_BWDCFG (putBits w 0 16 p)).updThb (fun t => { t with kicks := 0 })).bobTimer

/-- R155. THIMBLE_HEARTBEAT: firmware that runs increments THB_HEART. -/
def execThimbleHeartbeat (s : State) : Host.Outcome State Fault Refusal :=
  .next (if s.bit THB_STATUS_FWRUN then
      (s.incr THB_HEART).timer (ms 1) .thimbleHeartbeat else s)

/-- R143. LOCKSTEP_MISMATCH: the lockstep source, after whose reaction the watchdog reset follows. -/
def execLockstepMismatch (s : State) : Host.Outcome State Fault Refusal :=
  .next (let n := s.rdN THB_LSMIS
    ((s.wrN THB_LSMIS (min 255 (n + 1))).setB THB_RSTINFO_LOCKSTEP true).raise 0x02 0xFF)

/-- R146. THIMBLE_WATCHDOG_EXPIRY: the watchdog source, after whose reaction the reset follows. -/
def execThimbleWatchdogExpiry (s : State) : Host.Outcome State Fault Refusal :=
  .next ((s.setB THB_RSTINFO_WDEXP true).raise 0x03 0xFF)

end Sys2Proof.Machine
end

