-- ==== Sys2Proof/Machine/Rdn.lean ====
section
/-!
DEFINITION. The redundancy sequencer as shared operations: roles (R408), heartbeats and paths (R402–R404, R410), saved state
(R411–R414), fencing and claims (R417–R419), planned handover (R424–R427), healing (R421) and ring 26 (R430).
-/

namespace Sys2Proof.Machine

/-- An event of RDN_EVT: sources 0xF0–0xF7. -/
def State.evtRdn (s : State) (f : Fld) : State := s.evt f 0xF0 0xFF

/-- R433. The states of RDN_STATUS.STATE. -/
def rdSingle : Nat := 0
def rdJoin : Nat := 1
def rdStandby : Nat := 2
def rdClaim : Nat := 3
def rdActive : Nat := 4
def rdHandoff : Nat := 5

def State.rdState (s : State) : Nat := s.fld RDN_STATUS_STATE

/-- R430. A record on ring 26. -/
def State.rdnRecord (s : State) (ty detail data : Nat) : State :=
  (s.ringPut 26 (leBytes s.rdn.recid 4 ++ leBytes ty 1 ++ leBytes (s.fld GLB_STATUS_ROLE) 1 ++ leBytes detail 2 ++ leBytes s.tick 8 ++
    leBytes (s.rdN CEL_EPOCH) 4 ++ leBytes s.ntm.sec 4 ++ leBytes s.ntm.ns 4 ++ leBytes data 4)).updRdn
    (fun r => { r with recid := (r.recid + 1) % 2 ^ 32 })

/-- R408. A state change is recorded. -/
def State.rdnNote (s : State) : State :=
  if s.rdn.noted = s.rdState then s
  else (s.updRdn (fun r => { r with noted := s.rdState })).rdnRecord 0x01 s.rdState 0

/-- R398. A unit that leaves ROLE 1 clears EN of every leg. -/
def State.legsOff (s : State) : State := forL ((upto 12).filter (fun n => s.bit (PWM_CTRL_EN n))) (fun n t => t.legDisable n) s

/-- R142. Engines held, or released. -/
def State.holdEngines (s : State) (b : Bool) : State := forN 16 (fun e t => t.setB (BOB_STATUS_HELD e) b) s

/-- R408. The ROLE of a state. -/
def rdRole (st : Nat) : Nat := if st = 0 then 0 else if st ≤ 2 then 2 else if st = 3 then 3 else 1

/-- R186, R259, R408. A unit that enters STANDBY is master of no chain; Stitch stops and keeps nothing of its own cells. -/
def State.standDown (s : State) : State :=
  let s := (s.updCel (fun t => { t with won := [], early := [] })).celStatus
  (((s.updStitch (fun t => { t with cells := [], images := [] })).unsched (· == .stitchComputeDone)).unsched (· == .tattingPublish)).setB
    STCH_STATUS_BUSY false

/-- R250, R408. A state is entered. A unit that becomes active, or is no longer, takes the streams of the chains anew. -/
def State.rdnEnter (s : State) (st : Nat) : State :=
  let was := s.fld GLB_STATUS_ROLE
  let s := (s.setF RDN_STATUS_STATE st).setF GLB_STATUS_ROLE (rdRole st)
  let s := if was = 1 ∧ rdRole st ≠ 1 then s.legsOff else s
  let s := if (was = 1) = (rdRole st = 1) then s else s.seqForget (upto 24)
  let s := if st = rdStandby then s.holdEngines true else if st = rdSingle ∨ st = rdActive then s.holdEngines false else s
  let s := s.setB RDN_STATUS_HOARMED false
  let s := if st = rdStandby then
      ((s.updRdn (fun r => { r with hoTake := false, hoPoint := false, hoCycle := false, tiles := 0, tilesBad := 0 })).unsched
        (· == .standbyHealthReport)).sched 500000000 .standbyHealthReport
    else s
  let s := if st = rdStandby then s.standDown else s
  s.rdnNote

/-- R142. What a released engine starts on: its applied state, or the entry point of every slot (R414). -/
def State.coldEngines (s : State) : State :=
  forN 16 (fun e t => forN 8 (fun k u => u.updSlot e k (fun c => { c with first := true, mode := 0 })) t) s

/-- R18, R408, R426. Whether this unit commands the cells: alone, active, or taking over in a handover. -/
def State.commands (s : State) : Bool :=
  s.fld GLB_STATUS_ROLE == 0 || (s.fld GLB_STATUS_ROLE == 1 && s.rdState != rdHandoff) || (s.rdn.hoTake && decide (1 ≤ s.rdn.hoAge))

/-! ### Configuration hash (R399) -/

/-- R399. CFGHASH. -/
def State.cfgHash (s : State) : Nat :=
  crc32 (leBytes (s.rdN THB_FWVER) 4 ++ s.rdn.imageHash ++ s.memBytes (cellMap 0) 0x1800 ++ leBytes (s.rdN GLB_CYCCFG) 4 ++
    leBytes (s.rdN CEL_HOLDMAX) 4 ++ leBytes (s.fld RDN_CFG_PREFB) 1 ++ leBytes (s.fld RDN_CFG_WIRING) 1 ++ leBytes (s.fld RDN_CFG_HBMISS) 1 ++
    (cycleAngles (s.prkPage (s.fld PRK_STATUS_ACTIVE))).flatMap (fun a => leBytes a 4))

/-! ### Heartbeats (R402–R404, R410) -/

/-- R403. The Shuttle heartbeat on both lanes, with the times of its departure; HANDOFF, HOABORT and YIELD are carried once. -/
def State.shuttleHbt (s : State) : State :=
  let p := leBytes (s.rdN CEL_EPOCH) 4 ++ leBytes (s.rdN GLB_CYCCNT) 4 ++ leBytes (s.fld GLB_STATUS_ROLE) 1 ++ leBytes s.hstat 1 ++
    leBytes s.rdn.hcmd 1 ++ leBytes 0 1 ++ leBytes 0 16 ++ leBytes s.cfgHash 4 ++ leBytes (s.rdN RDN_DSEQ) 4 ++
    leBytes (s.rdN RDN_SNAPGEN) 4
  let s := forL [24, 25] (fun l t => t.sendShuttle l ftHbt clHbt .hbt p) s
  if 4 ≤ s.rdn.hcmd then s.updRdn (fun r => { r with hcmd := 0 }) else s

/-- R410, R430. The path bits of a record. -/
def State.pathBits (s : State) : Nat := (if s.bit RDN_STATUS_SHPATH then 1 else 0) + (if s.bit RDN_STATUS_CHPATH then 2 else 0)

/-- R410. A heartbeat arrives on a path. -/
def State.pathSeen (s : State) (f : Fld) : State :=
  if s.bit f then s
  else
    let s := (s.setB f true).updRdn (fun r => { r with partnerGone := false })
    s.rdnRecord 0x02 s.pathBits 0

/-- R421. A chain's healing changes. -/
def State.setHeal (s : State) (c : Nat) (b : Bool) : State :=
  if s.rbit RDN_HEAL c = b then s
  else
    let s := s.setBit RDN_HEAL c b
    s.rdnRecord 0x07 0 (s.rdN RDN_HEAL)

/-- R421. Chains whose healing ends: the Shuttle path is lost, or in the active unit its own lane carries the chain again,
or in the standby its lane is not in LINK. -/
def State.healCheck (s : State) : State :=
  forL (bitsIn 24 (s.rdN RDN_HEAL)) (fun c t =>
    let own := t.laneLink c && !t.bit (CEL_CHSTAT_BREAK c)
    if !t.bit RDN_STATUS_SHPATH || (if t.standby then !t.laneLink c else own) then t.setHeal c false else t) s

/-- R410. A path is lost: its bit, the count and the record. -/
def State.pathLost (s : State) (f : Fld) : State :=
  let s := (s.setB f false).count RDN_HBLOSS
  s.rdnRecord 0x02 s.pathBits 0

/-- R410. The event of the paths lost at one t0: PATHLOSS while the other path is left, else PARTNERLOSS. -/
def State.lossEvent (s : State) : State :=
  let s := if s.bit RDN_STATUS_SHPATH || s.bit RDN_STATUS_CHPATH then s.evtRdn RDN_EVT_PATHLOSS
    else (s.evtRdn RDN_EVT_PARTNERLOSS).updRdn (fun r => { r with partnerGone := true })
  s.healCheck

/-- R407, R410. The misses of both paths at a t0. -/
def State.pathMisses (s : State) : State :=
  let lim := s.fld RDN_CFG_HBMISS
  let r := s.rdn
  let sh := if r.shSeen then 0 else r.shMiss + 1
  let ch := if r.chSeen then 0 else r.chMiss + 1
  let s := s.updRdn (fun r => { r with shMiss := sh, chMiss := ch, shSeen := false, chSeen := false
                                       heldOk := if r.shSeen || r.chSeen then s.bit RDN_STATUS_STATEOK else r.heldOk })
  let shLost := s.bit RDN_STATUS_SHPATH && decide (lim ≤ sh)
  let chLost := s.bit RDN_STATUS_CHPATH && decide (lim ≤ ch)
  let s := if shLost then s.pathLost RDN_STATUS_SHPATH else s
  let s := if chLost then s.pathLost RDN_STATUS_CHPATH else s
  let s := if shLost || chLost then s.lossEvent else s
  if s.followH0 && !s.bit RDN_STATUS_SHPATH && (s.h0State == h0Acquire || s.h0State == h0Locked) then s.h0Enter h0Coast else s

/-! ### Claims (R417–R419) -/

/-- R418. Whether this unit may claim. -/
def State.claimAllowed (s : State) : Bool :=
  let moving := (upto 192).any (fun id => s.cstat id != csAbsent && (s.up id 0 1 % 16 == 2 || s.up id 0 1 % 16 == 3))
  !(s.bit SELV_STATUS_STACK || s.bit SELV_STATUS_BRK || s.bit FLT_STATUS_FATAL || s.bit CEL_STATUS_EPOCHMAX ||
    !s.bit GLB_STATUS_CTRL_RUN || (!s.bit RDN_STATUS_CTLOCK && moving))

/-- R418. The epoch of a claim. -/
def State.claimE (s : State) : Nat :=
  min 0xFFFFFFFF (max (s.rdN CEL_EPOCH) (max (s.rdN RDN_PEPOCH) s.rdn.fenceEpoch) + 1)

/-- R408, R418. This unit claims in its next transmit slot, or the claim is refused. -/
def State.rdnClaim (s : State) : State :=
  if s.claimAllowed then
    ((s.rdnEnter rdClaim).updCel (fun t => { t with claimWant := some s.claimE })).updRdn (fun r => { r with claimMax := 0 })
  else s.evtRdn RDN_EVT_CLAIMLOST

/-- R417. The fencing query: READ IDENT to the node at this unit's end of every chain in LINK. -/
def State.fenceQuery (s : State) : State :=
  let s := s.updRdn (fun r => { r with fenceWant := false, fenceSent := true, answers := [], fenceAge := 0 })
  let reqs := ((upto 24).filter s.chainUp).map (fun c =>
    let pos := if s.bit RDN_CFG_UNITB then s.fld (CEL_CHCFG_NNODES c) - 1 else 0
    ({ chain := c, cell := 8 * c + pos, op := 1, obj := 1, off := 0, cnt := 32, data := [], by_ := .fence } : Mgmt))
  s.updCel (fun t => { t with mgmt := reqs ++ t.mgmt.filter (fun m => m.by_ != .fence) })

/-- R413. The checkpoint header is valid, and fresh by R412. -/
def ckptBase : Nat := 0x1003FFE0
def State.ckptFresh (s : State) : Bool :=
  let b := s.memBytes ckptBase 32
  let age := ((s.ntm.sec : Int) - (fieldAt b 0 6 : Nat)) * 1000000000 + (s.ntm.ns : Int) - (fieldAt b 8 4 : Nat)
  fieldAt b 31 1 == 0xA5 && crc32 (b.take 24) == fieldAt b 24 4 && fieldAt b 12 4 == s.rdN NTM_STEPCNT &&
    decide (age ≤ (s.rdN RDN_STALE_MS % 65536 * 1000000 : Nat)) && decide (s.rdn.fenceEpoch ≤ fieldAt b 16 4)

/-- R413. The checkpoint header is written, with the CYC of the latch that the state belongs to: this unit's, or the partner's. -/
def State.ckptWrite (s : State) : State :=
  let h := leBytes s.ntm.sec 6 ++ leBytes 0 2 ++ leBytes s.ntm.ns 4 ++ leBytes (s.rdN NTM_STEPCNT) 4 ++ leBytes (s.rdN CEL_EPOCH) 4 ++
    leBytes (if s.rdState = rdActive then s.rdN GLB_CYCCNT else s.rdN RDN_DSEQ) 4
  s.setMemBytes ckptBase (h ++ leBytes (crc32 h) 4 ++ leBytes 0 3 ++ leBytes 0xA5 1)

/-- R408, R417. The answers to a fencing query at the next t0. -/
def State.fenceEval (s : State) : State :=
  let ans := s.rdn.answers
  let partner := if s.bit RDN_CFG_UNITB then 0 else 1
  let live := ans.filter (fun a => a.master == partner && a.epoch == s.rdN RDN_PEPOCH && decide (a.age * 500 < 2 * s.rdN GLB_CYCSTAT))
  let s := s.updRdn (fun r => { r with fenceSent := false, fenceAge := 0 })
  let s := s.updCel (fun t => { t with mgmt := t.mgmt.filter (fun m => m.by_ != .fence) })
  match live with
  | a :: _ => ((s.setB RDN_STATUS_FENCED true).evtRdn RDN_EVT_FENCED).rdnRecord 0x03 a.chain 0
  | [] =>
    if ans.isEmpty then s
    else
      let s := s.setB RDN_STATUS_FENCED false
      if s.rdState = rdJoin then
        if s.ckptFresh then (s.updRdn (fun r => { r with heldOk := true })).rdnClaim
        else (s.setB RDN_STATUS_COLD true).rdnEnter rdStandby
      else s.rdnClaim

/-- R410, R417. Whether this unit has cause to query the cells. -/
def State.fenceCause (s : State) : Bool :=
  (s.rdState == rdStandby && s.rdn.partnerGone) || (s.rdState == rdJoin && decide (s.fld RDN_CFG_HBMISS ≤ s.rdn.joinMiss))

/-- R417. Fencing at a t0: the evaluation of the last query, and the next one. -/
def State.fenceCycle (s : State) : State :=
  let s := if s.rdn.fenceSent && s.fenceCause then s.fenceEval else s
  if s.fenceCause then
    let first := s.rdn.fenceAge == 0 && !s.bit RDN_STATUS_FENCED && s.rdn.answers.isEmpty
    if first || decide (s.fld RDN_CFG_FENCEPER ≤ s.rdn.fenceAge) then s.updRdn (fun r => { r with fenceWant := true, fenceAge := r.fenceAge + 1 })
    else s.updRdn (fun r => { r with fenceAge := r.fenceAge + 1 })
  else (s.setB RDN_STATUS_FENCED false).updRdn (fun r => { r with fenceSent := false, fenceWant := false, fenceAge := 0, answers := [] })

/-- R411. The next snapshot. -/
def State.snapTimer (s : State) : State :=
  (s.unsched (· == .snapshotPeriod)).sched (ms (s.rdN RDN_SNAPCFG % 65536)) .snapshotPeriod

/-- R412, R414, R419. This unit becomes active: on the applied state if STATEOK is set, or was when the partner was last heard, or
after a fresh checkpoint (log entry 78). -/
def State.becomeActive (s : State) : State :=
  let ok := s.bit RDN_STATUS_STATEOK || s.rdn.heldOk
  let s := (s.rdnEnter rdActive).setB RDN_STATUS_COLD (!ok)
  let s := if ok then s else s.coldEngines
  let s := (s.updRdn (fun r => { r with carried := some (s.rdN RDN_DSEQ), snapFrom := none })).snapTimer
  if s.bit THM_STATUS_LVL then s.thmTest else s

/-- R419, R420. A claim is won. -/
def State.claimWon (s : State) (won : List Nat) (gap : Nat) : State :=
  let silent := (upto 24).filter (fun c => s.chainOn c && !won.contains c)
  let s := (s.evtRdn RDN_EVT_TAKEOVER).count RDN_TAKEOVERS
  let s := s.wrN RDN_LASTGAP (min 255 gap)
  (s.rdnRecord 0x04 won.length 0).updRdn (fun r => { r with silent, silentCyc := 0, hoTake := false })

/-- R418. A claim is lost. -/
def State.claimFail (s : State) (won lost : List Nat) : State :=
  let s := if s.rdN CEL_EPOCH < s.rdn.claimMax ∧ lost.isEmpty = false then s.wrN CEL_EPOCH s.rdn.claimMax else s
  let s := s.evtRdn RDN_EVT_CLAIMLOST
  let s := s.rdnRecord 0x04 won.length (lost.foldl (fun m c => putBit m c true) 0)
  (s.rdnEnter rdStandby).celStatus

/-- R242, R408, R418. The outcome of a claim. -/
def State.claimResult (s : State) : State :=
  if s.cel.claimDue.isNone then s
  else
    let won := s.chainsWon
    let lost := s.chainsLost
    let s := s.claimTake
    if s.rdState = rdSingle then s
    else if lost.isEmpty && !won.isEmpty then
      if s.rdn.hoTake then s.claimWon won 0 else (s.becomeActive).claimWon won (min s.rdn.shMiss s.rdn.chMiss)
    else s.claimFail won lost

/-- R243, R419, R421. A silent chain is claimed again with the unit's epoch, directly or through healing. -/
def State.reclaim (s : State) : State :=
  if s.rdN CEL_EPOCH = 0xFFFFFFFF then s.celStatus else forL s.rdn.silent (fun c t => t.claimOn (t.rdN CEL_EPOCH) c) s

/-- R408. Mastership is lost to a higher epoch, a DISPLACED response or NAKs: the unit becomes standby. -/
def State.demote (s : State) : State := if s.rdState = rdActive then (s.evtRdn RDN_EVT_CLAIMLOST).rdnEnter rdStandby else s

/-! ### Planned handover (R424–R426) -/

/-- R425. A handover in progress is abandoned. -/
def State.hoAbandon (s : State) : State :=
  let s := s.unsched (· == .hoarmTimeout)
  let s := (s.setB RDN_STATUS_HOARMED false).updRdn (fun r => { r with hcmd := 5, hoPoint := false })
  (s.evtRdn RDN_EVT_HOFAIL).rdnRecord 0x05 2 0

/-- R424, R425. Whether a handover is in progress. -/
def State.hoBusy (s : State) : Bool := s.bit RDN_STATUS_HOARMED || s.rdn.hcmd == 1 || s.rdn.hcmd == 2 || s.rdn.hcmd == 3

/-- R424. The active unit answers a request. -/
def State.hoGrant (s : State) : State :=
  if s.rdState = rdActive ∧ s.hoBusy = false ∧ s.hstat % 2 = 0 ∧ s.bit RDN_STATUS_CFGMIS = false ∧ s.bit GLB_STATUS_CTRL_RUN = true ∧
      bitOf (s.fld RDN_PSTAT_HSTAT) 3 = true then
    (s.updRdn (fun r => { r with hcmd := 2 })).sched 0 .snapshotPeriod
  else s

/-- R424. A handover is requested in this unit. -/
def State.hoRequest (s : State) : State :=
  if s.rdState = rdStandby then
    if s.bit RDN_STATUS_CFGMIS then s else s.updRdn (fun r => { r with hcmd := 1 })
  else s.hoGrant

/-- R424. The final snapshot is complete: HOARM. -/
def State.hoArm (s : State) : State :=
  if s.rdn.hcmd = 2 then
    let s := (s.setB RDN_STATUS_HOARMED true).updRdn (fun r => { r with hcmd := 3, hoPoint := false })
    (s.rdnRecord 0x05 0 0).sched 500000000 .hoarmTimeout
  else s

/-- R425. What abandons a handover at a t0. -/
def State.hoWatch (s : State) : State :=
  if s.hoBusy && (s.hstat % 4 != 0 || s.fld RDN_PSTAT_HSTAT % 4 != 0 || !s.bit RDN_STATUS_SHPATH ||
      (s.fld RDN_CFG_WIRING == 0 && !s.bit RDN_STATUS_CHPATH)) then s.hoAbandon else s

/-- R424. The automatic return of the preferred unit. -/
def State.revertWatch (s : State) : State :=
  let ok := s.rdState == rdStandby && s.bit RDN_CFG_REVERT && s.bit RDN_CFG_PREFB == s.bit RDN_CFG_UNITB && s.hstat == 0x3C
  if ok && !s.rdn.revert then
    (s.updRdn (fun r => { r with revert := true })).sched (s.rdN RDN_REVERT_S % 65536 * 500000000) .revertTimerExpire
  else if !ok && s.rdn.revert then (s.updRdn (fun r => { r with revert := false })).unsched (· == .revertTimerExpire)
  else s

/-- R426. The handover at a t0: the active unit's engines are held, then its legs go off; the standby takes over. -/
def State.hoCycle (s : State) : State :=
  if s.rdn.hoCycle then
    (((s.rdnEnter rdHandoff).holdEngines true).updRdn (fun r => { r with hoCycle := false, hoPoint := false, hoAge := 0 }))
  else if s.rdState = rdHandoff then
    let n := s.rdn.hoAge + 1
    let s := s.updRdn (fun r => { r with hoAge := n })
    let s := if n = 1 then s.legsOff else s
    if n = 4 then s.sched 0 .handoffTimeout else s
  else if s.rdn.hoTake then
    let n := s.rdn.hoAge + 1
    let s := s.updRdn (fun r => { r with hoAge := n })
    if n = 1 then s.updRdn (fun r => { r with carried := some (s.rdN RDN_DSEQ) })
    else if n = 2 ∧ s.rdState = rdClaim then (s.becomeActive).rdnRecord 0x05 1 0
    else s
  else s

/-! ### Saved state (R411–R414) -/

/-- R172, R411. W_e of a phase in ticks of cell time, low 32 bits. -/
def State.weTicks (s : State) (p : Nat) : Nat := ofSigned 32 ((s.stPhase p).we.getD 0 / 128)

/-- R172, R411. W_e from its low 32 bits: the last such instant before now. -/
def State.weFrom (s : State) (v : Nat) : Int :=
  let now := s.cellTimeAt 0 / 65536
  (now - (now - v) % 2 ^ 32) * 128

/-- R411. The hardware block: 5,120 bytes in the layout of log entry 16. -/
def State.hwBlock (s : State) : List Byte :=
  s.memBytes (cellLat 0) 3072 ++ s.memBytes (phaseLat 0) 48 ++
    (upto 192).flatMap (fun id => let c := s.tatCell id
      leBytes (ofSigned 24 c.key) 3 ++ leBytes c.dwell 2 ++ leBytes (ofSigned 16 c.ofs) 2 ++ leBytes (s.pubPos id) 1) ++
    (upto 192).flatMap (fun id => s.memBytes (cellUp id + 0x3C) 2) ++
    (upto 6).flatMap (fun k => leBytes (s.rdN (FLT_CBYP k)) 4) ++ leBytes (s.rdN CEL_EPOCH) 4 ++
    (upto 3).flatMap (fun p => leBytes (ofSigned 32 (s.stPhase p).level) 4) ++
    leBytes ((upto 192).foldl (fun m id => if (s.stPhase (s.phaseOf id)).members.contains id then m + 2 ^ id else m) 0) 24 ++
    leBytes ((upto 3).foldl (fun m p => putBit m p (s.respreads p)) 0) 4 ++ (upto 3).flatMap (fun p => leBytes (s.weTicks p) 4)

/-- R412. A hardware block is loaded. -/
def State.loadBlock (s : State) (b : List Byte) : State :=
  if b.length = 5120 then
    let s := (s.setMemBytes (cellLat 0) (b.take 3072)).setMemBytes (phaseLat 0) ((b.drop 3072).take 48)
    let s := forN 192 (fun id t => t.updTatCell id (fun c => { c with
      key := toSigned 24 (fieldAt b (3120 + 8 * id) 3), dwell := fieldAt b (3123 + 8 * id) 2
      ofs := toSigned 16 (fieldAt b (3125 + 8 * id) 2) })) s
    let s := forN 192 (fun id t => t.setMemBytes (cellUp id + 0x3C) ((b.drop (4656 + 2 * id)).take 2)) s
    let s := forN 6 (fun k t => t.wrN (FLT_CBYP k) (fieldAt b (5040 + 4 * k) 4)) s
    let s := s.wrN CEL_EPOCH (fieldAt b 5064 4)
    let mask := fieldAt b 5080 24
    let w := s.window
    let s := forN 3 (fun p t =>
      let members := (upto 192).filter (fun id => t.phaseOf id == p && bitOf mask id)
      let at_ (k : Nat) : List Nat := members.filter (fun id => fieldAt b (3127 + 8 * id) 1 == k)
      -- a re-spread in progress lasts at most two more carrier periods (R176)
      let resp := if bitOf (fieldAt b 5104 4) p then w.now + 2 * t.nomPeriod w p else 0
      let t := t.updStPhase p (fun q => { q with
        level := toSigned 32 (fieldAt b (5068 + 4 * p) 4), members, we := some (t.weFrom (fieldAt b (5108 + 4 * p) 4)), respEnd := resp
        taken := true })
      t.updTatPhase p (fun q => { q with order := (upto members.length).flatMap at_, members, first := false })) s
    s.celStatus
  else s

/-- R405. Cuts data into segments of at most 1,008 bytes with their addresses. -/
def segments (addr : Nat) : Nat → List Byte → List (Nat × List Byte)
  | 0, _ => []
  | n + 1, l => if l.isEmpty then [] else (addr, l.take 1008) :: segments (addr + 1008) n (l.drop 1008)

/-- A list in the order of a key; equal keys stay in their order. -/
def byKey (key : Nat → Nat) (l : List Nat) : List Nat :=
  l.foldl (fun acc x => acc.takeWhile (fun y => decide (key y ≤ key x)) ++ [x] ++ acc.dropWhile (fun y => decide (key y ≤ key x))) []

/-- R411, R431. The regions of a kind, cycle or snapshot, in increasing address order. -/
def State.regions (s : State) (snap : Bool) : List (Nat × List Byte) :=
  (byKey (fun r => s.fld (RDN_RBASE_ADDR r))
    ((upto 16).filter (fun r => s.bit (RDN_RLEN_EN r) && s.bit (RDN_RLEN_SNAP r) == snap))).flatMap (fun r =>
    let n := 4 * s.fld (RDN_RLEN_LEN r)
    segments (s.fld (RDN_RBASE_ADDR r) * 4) (n / 1008 + 1) (s.memBytes (s.fld (RDN_RBASE_ADDR r) * 4) n))

/-- R402, R405. Sends a list of segments as STATE frames of a kind. The last one completes the snapshot or delta. -/
def State.sendState (s : State) (kind gen : Nat) (segs : List (Nat × List Byte)) : State :=
  forL ((upto segs.length).zip segs) (fun e t =>
    let last := decide (e.1 + 1 = segs.length)
    t.sendShuttle t.shuttleLane ftState (if kind = 2 then clSnap else clDelta) (if last then (if kind = 2 then .snapEnd else .deltaEnd gen) else .plain)
      (leBytes kind 1 ++ leBytes (if last then 1 else 0) 1 ++ leBytes e.1 2 ++ leBytes gen 4 ++ leBytes e.2.1 4 ++ leBytes 0 4 ++ e.2.2)) s

/-- R402. Whether frames of a class wait for a Shuttle lane. -/
def State.shuttleWaits (s : State) (cls : Nat) : Bool := [24, 25].any (fun l => (s.lane l).queue.any (fun i => i.cls == cls))

/-- R402, R411. The frames of a class that wait for the Shuttle lanes are given up. -/
def State.shuttleDrop (s : State) (cls : Nat) : State :=
  forL [24, 25] (fun l t => t.updLane l (fun x => { x with queue := x.queue.filter (fun i => i.cls != cls) })) s

/-- R411. A delta that is not fully sent when the next one is taken is abandoned and counted. -/
def State.deltaAbandon (s : State) : State := if s.shuttleWaits clDelta then (s.shuttleDrop clDelta).count RDN_DROP else s

/-- R411. The delta of this control cycle. -/
def State.sendDelta (s : State) : State :=
  if s.rdState = rdActive then
    let gen := s.rdN GLB_CYCCNT
    let s := s.deltaAbandon
    s.sendState (if s.rdn.hoCycle then 3 else 1) gen (segments 0xFFFF0000 6 s.hwBlock ++ s.regions false)
  else s

/-- R411, R424, R431. The last segment of a snapshot has left: the snapshot is complete, and an accepted handover is armed with it. -/
def State.snapEnd (s : State) : State :=
  if s.rdn.snapSent then
    ((s.updRdn (fun r => { r with snapSent := false, snapFrom := none })).wrN RDN_SNAPGEN s.rdn.snapGen).hoArm
  else s

/-- R411. A snapshot is sent in full; with no region it is complete at once. -/
def State.sendSnapshot (s : State) : State :=
  let gen := (s.rdN RDN_SNAPGEN + 1) % 2 ^ 32
  let segs := s.regions true
  let s := (s.shuttleDrop clSnap).updRdn (fun r => { r with snapGen := gen, snapFrom := some s.tick, snapSent := segs.isEmpty })
  (s.sendState 2 gen segs).snapEnd

/-- R411, R424. A snapshot is due: one that is under way goes on, unless twice PERIOD is over, or a handover has been accepted and wants
its own. -/
def State.snapStart (s : State) : State :=
  if s.rdState = rdActive then
    match s.rdn.snapFrom with
    | none => s.sendSnapshot
    | some t =>
      let over2 := decide (t + 2 * ms (s.rdN RDN_SNAPCFG % 65536) ≤ s.tick)
      let s := if over2 then s.evtRdn RDN_EVT_HOFAIL else s
      if over2 || s.rdn.hcmd == 2 then s.sendSnapshot else s
  else s

/-- R412. STATEOK; with it the saved state is usable, so COLD clears (log entry 78). -/
def State.stateOk (s : State) : State :=
  let ok := s.bit RDN_CTRL_EN && s.rdn.snapDone && decide (s.rdn.deltaAge ≤ 2) && !s.bit RDN_STATUS_CFGMIS
  let s := s.setB RDN_STATUS_STATEOK ok
  if ok then s.setB RDN_STATUS_COLD false else s

/-- R415. A standby runs the delay exchanges of R231 with every node. -/
def State.standbyDelays (s : State) : State :=
  forL ((upto 192).filter (fun id => s.nodeKnown id && !s.agenda.any (fun e => isDelayTimer id e.2)))
    (fun id t => (t.updDly id (fun d => { d with want := true })).delayTimer id) s

/-- R412. A complete delta is applied. -/
def State.applyDelta (s : State) (gen : Nat) : State :=
  let hw := s.rdn.segs.filter (fun e => decide (0xFFFF0000 ≤ e.1))
  let s := s.loadBlock (hw.flatMap (fun e => e.2))
  let s := forL (s.rdn.segs.filter (fun e => decide (e.1 < 0xFFFF0000))) (fun e t => t.setMemBytes e.1 e.2) s
  let s := (s.wrN RDN_DSEQ gen).updRdn (fun r => { r with segs := [], deltaAge := 0 })
  s.standbyDelays.stateOk

/-- R412. A snapshot segment: the snapshot is complete with its last segment if none has been missed. -/
def State.snapSegment (s : State) (last : Bool) (seg gen : Nat) : State :=
  let whole := seg == 0 || s.rdn.snapNext == some (gen, seg)
  let s := s.updRdn (fun r => { r with snapNext := if whole && !last then some (gen, seg + 1) else none })
  let s := s.setB RDN_STATUS_SNAPMIX (!(last && whole))
  if last && whole then ((s.wrN RDN_SNAPGEN gen).updRdn (fun r => { r with snapDone := true })).stateOk else s

/-- R405, R412, R426. A STATE segment in a standby, or in a unit that takes over in a handover. -/
def State.stateSegment (s : State) (f : Frame) : State :=
  let p := f.payload
  let kind := fieldAt p 0 1
  let last := bitOf (fieldAt p 1 1) 0
  let seg := fieldAt p 2 2
  let gen := fieldAt p 4 4
  let addr := fieldAt p 8 4
  let data := p.drop 16
  if (s.rdState ≠ rdStandby ∧ s.rdn.hoTake = false) ∨ s.bit RDN_STATUS_CFGMIS = true then s
  else if kind = 2 then (s.setMemBytes addr data).snapSegment last seg gen
  else
    let r := s.rdn
    let inOrder := seg == r.segNext && (seg == 0 || f.seq == (r.segSeq + 1) % 65536) && !r.segBad
    let s := if seg == 0 && !r.segs.isEmpty then s.count RDN_DROP else s
    if seg = 0 ∨ inOrder = true then
      let s := s.updRdn (fun r => { r with segs := (if seg = 0 then [] else r.segs) ++ [(addr, data)], segNext := seg + 1, segSeq := f.seq, segBad := false })
      if last then s.applyDelta gen else s
    else if r.segBad then s
    else (s.count RDN_DROP).updRdn (fun r => { r with segs := [], segBad := true })

/-- R414. Without a new phase pair at the first latch of a new active unit, the carried NLC reference advances by LSLOPE for
each window since it was latched. -/
def State.carryLevels (s : State) (gen : Nat) : State :=
  let n : Nat := (s.rdN GLB_CYCCNT + 2 ^ 32 - gen) % 2 ^ 32
  forN 3 (fun p t =>
    let same := t.memN (phaseRef p) 4 / 2 ^ 28 == t.memN (phaseLat p) 4 / 2 ^ 28
    if same && t.fld (STCH_PHCFG_MODE p) == 1 then
      t.setMemN (phaseLat p) 4 (t.memN (phaseLat p) 4 / 2 ^ 28 * 2 ^ 28 + ofSigned 28 (t.lref p + (n : Int) * t.lslope p))
    else t) s

/-! ### Partner heartbeats (R399, R403, R406, R408) -/

/-- R408. What the partner's role and epoch do. -/
def State.partnerRole (s : State) (role epoch : Nat) : State :=
  let s := if role = 1 then s.updRdn (fun r => { r with joinMiss := 0 }) else s
  if role = 1 ∧ s.rdState = rdJoin then s.rdnEnter rdStandby
  else if role = 1 ∧ s.rdN CEL_EPOCH < epoch ∧ s.rdState = rdHandoff then s.rdnEnter rdStandby
  else if role = 1 ∧ s.rdN CEL_EPOCH < epoch ∧ s.rdState = rdActive then s.demote
  else s

/-- R433. The partner's state as last received. -/
def State.partnerState (s : State) (epoch role hstat : Nat) : State :=
  let s := (s.setF RDN_PSTAT_HSTAT hstat).setF RDN_PSTAT_ROLE (role % 4)
  (s.setF RDN_PSTAT_AGE 0).wrN RDN_PEPOCH epoch

/-- R399. Whether the units' configurations differ. -/
def State.cfgCheck (s : State) (hash : Nat) (unitB : Bool) : State :=
  let mis := hash != s.cfgHash || unitB == s.bit RDN_CFG_UNITB
  let s := if mis && !s.bit RDN_STATUS_CFGMIS then s.evtRdn RDN_EVT_CFGMIS else s
  let s := s.setB RDN_STATUS_CFGMIS mis
  let s := if mis && s.rdState == rdStandby then s.setB RDN_STATUS_COLD true else s
  s.stateOk

/-- R406. RDN_CTOFS is set, in 2^-16 tick. -/
def State.setCtofs (s : State) (v : Int) : State :=
  let new := ofSigned 80 v
  ((s.wrN RDN_CTOFS_FR (new % 65536)).wrN RDN_CTOFS_LO (new / 65536)).wrN RDN_CTOFS_HI (new / 65536 / 2 ^ 32)

/-- R406. The Shuttle path is lost: at each t0 the loop coasts on its rate estimate. -/
def State.coastCtofs (s : State) : State :=
  if !s.bit RDN_STATUS_SHPATH && decide (s.rdn.ctAt ≠ 0) && (s.rdState == rdJoin || s.rdState == rdStandby || s.rdState == rdClaim) then
    (s.setCtofs (s.ctofs + s.rdn.ctRate * ((s.tick - s.rdn.ctAt : Nat) : Int) / 2 ^ 32)).updRdn (fun r => { r with ctAt := s.tick })
  else s

/-- R406. The pair cell time of a standby. The loop's residual, at most ±0.5 ns, is a free value. -/
def State.trackCtofs (s : State) (pairTime : Nat) (frac : Nat) : State :=
  if s.rdState = rdJoin ∨ s.rdState = rdStandby then
    let meas : Int := (pairTime : Nat) + (s.rdN RDN_SHDLY / 2 : Nat) - (s.tick * 65536 + frac : Nat)
    let err := meas - s.ctofs
    let n := if err.natAbs ≤ 32768 then s.rdn.ctOk + 1 else 0
    let r := s.free 32769
    let s := r.2.setCtofs (meas + (r.1 : Int) - 16384)
    let s := (s.updRdn (fun r => { r with ctOk := n, ctRate := Config.ctRate r.ctRate err, ctAt := s.tick })).setB RDN_STATUS_CTLOCK (s.bit RDN_STATUS_CTLOCK || decide (64 ≤ n))
    (s.unsched (· == .ctlockTimeout)).sched (ms 100) .ctlockTimeout
  else s

/-- R404. What the partner's HCMD does. -/
def State.partnerCmd (s : State) (hcmd : Nat) : State :=
  let was := s.fld RDN_PSTAT_HCMD
  let s := s.setF RDN_PSTAT_HCMD hcmd
  if hcmd = 1 then s.hoGrant
  else if hcmd = 3 ∧ s.rdState = rdStandby ∧ was ≠ 3 ∧ s.bit RDN_STATUS_CFGMIS = false then
    ((s.setB RDN_STATUS_HOARMED true).updRdn (fun r => { r with hcmd := 0 })).rdnRecord 0x05 0 0
  else if hcmd = 4 ∧ s.rdState = rdStandby ∧ s.bit RDN_STATUS_CFGMIS = false then
    let u0 := s.rdN HOOP_H0TURNS * 2 ^ 32 + s.h0Ang
    let rest := (s.nextCycle u0 - u0) * 2 ^ 32 / max 1 s.hoop.h0.step
    (s.unsched (· == .handoverClaim)).sched (rest - 125) .handoverClaim
  else if hcmd = 5 ∧ s.hoBusy = true then s.hoAbandon
  else if hcmd = 6 ∧ s.rdState = rdStandby then s.rdnClaim
  else s

/-- R401. The checks of a Shuttle frame of a type and length; what fails is discarded and counted. -/
def State.shuttleCheck (s : State) (ty : Nat) (lenOk : Nat → Bool) (l : List Byte) : State × Option Frame :=
  if !s.bit RDN_CTRL_EN then (s, none)
  else
    match parseFrame (if fieldAt l 0 1 / 16 = ftTunnel then 1052 else 1024) l with
    | .inr _ => (s.count RDN_SHERR, none)
    | .inl f => if f.ty = ty ∧ f.src = addrUnit ∧ f.dst = addrUnit ∧ lenOk f.payload.length = true then (s, some f) else (s.count RDN_SHERR, none)

/-- R403, R406–R408. A Shuttle heartbeat that arrives `frac` × 2^-16 tick into this tick. -/
def State.shuttleHeartbeat (s : State) (f : Frame) (frac : Nat) : State :=
  let p := f.payload
  let epoch := fieldAt p 0 4
  let s := (s.updRdn (fun r => { r with shSeen := true })).pathSeen RDN_STATUS_SHPATH
  let s := s.partnerState epoch (fieldAt p 8 1) (fieldAt p 9 1)
  let s := s.partnerRole (fieldAt p 8 1) epoch
  let s := s.cfgCheck (fieldAt p 28 4) (bitOf f.flags 5)
  let s := s.trackCtofs ((fieldAt p 12 4 * 500000000 + fieldAt p 16 4) * 65536 + fieldAt p 20 2) frac
  let ahead := s.rdN RDN_SHDLY * s.hoop.h0.step / 2 ^ 49
  let s := s.h0Follow ((fieldAt p 24 4 + ahead) % 2 ^ 32)
  s.partnerCmd (fieldAt p 10 1)

/-! ### The control cycle of the sequencer -/

/-- R408. JOIN counts the cycles without a partner heartbeat of ROLE 1. -/
def State.joinCycle (s : State) : State :=
  if s.rdState = rdJoin then s.updRdn (fun r => { r with joinMiss := r.joinMiss + 1 }) else s

/-- R419. A silent chain is claimed again every 10 control cycles. -/
def State.silentCycle (s : State) : State :=
  if s.rdState = rdActive ∧ s.rdn.silent.isEmpty = false then
    let n := s.rdn.silentCyc + 1
    let s := s.updRdn (fun r => { r with silentCyc := n % 10 })
    if n = 10 then s.sched 0 .chainReclaim else s
  else s

/-- R402, R410, R417, R424–R426. What the sequencer does at each t0. -/
def State.rdnCycle (s : State) : State :=
  if s.bit RDN_CTRL_EN then
    let s := s.hoCycle.rdnNote.shuttleHbt
    let s := s.setF RDN_PSTAT_AGE (min 255 (s.fld RDN_PSTAT_AGE + 1))
    let s := s.pathMisses.coastCtofs.joinCycle.fenceCycle
    let s := (s.updRdn (fun r => { r with deltaAge := min 255 (r.deltaAge + 1), txSync := false, txSlot := false })).stateOk
    s.hoWatch.revertWatch.silentCycle
  else s

/-- R427. A unit that yields control becomes standby at the end of the tick. -/
def State.yieldPass (s : State) : State :=
  if s.rdn.yielding then (s.updRdn (fun r => { r with yielding := false })).rdnEnter rdStandby else s

/-- R411, R413, R426. What the sequencer does at REFS_DUE. -/
def State.rdnRefs (s : State) : State :=
  if s.bit RDN_CTRL_EN then
    let s := if s.rdState = rdActive ∧ s.bit RDN_STATUS_HOARMED = true ∧ s.rdn.hoPoint = true then
        (((s.unsched (· == .hoarmTimeout)).updRdn (fun r => { r with hoCycle := true, hcmd := 4 })).shuttleHbt).rdnRecord 0x05 1 0
      else s
    if s.rdState = rdActive ∨ ((s.rdState = rdStandby ∨ s.rdn.hoTake = true) ∧ s.rdn.deltaAge ≤ 1) then s.ckptWrite else s
  else s

/-! ### The transmit slot of a standby (R415, R421) -/

/-- R244, R421. SYNC on healed chains, in the name of the active unit, after a latched fast trip, and the frames that wait for it. -/
def State.healSync (s : State) : State :=
  let other := if s.bit RDN_CFG_UNITB then 0 else 32
  let s := forL (bitsIn 24 (s.rdN RDN_HEAL)) (fun c t =>
    let t := if t.bit SELV_STATUS_STACK && t.laneTrips c then t.tripOn c else t
    let q := t.nextSeq (stSync c)
    q.2.sendOn c { stamp := .sync c true, bytes := Frame.bytes ⟨ftSync, 2, 0xFE, addrUnit, other + flagHeal, q.1, List.replicate 56 0#8⟩ }) s
  (forL s.rdn.inject (fun e t => t.sendOn e.1 { bytes := e.2 }) s).updRdn (fun r => { r with inject := [], txSync := true })

/-- R415. The transmit slot: HBT, fencing query, requests and CLAIM. -/
def State.standbySlot (s : State) : State :=
  let s := if s.rdn.fenceWant then s.fenceQuery else s
  let s := forL ((upto 24).filter s.chainUp) (fun c t => t.sendHbt c) s
  let s := s.requestSlot
  if s.rdN RDN_HEAL % 2 ^ 24 = 0 then s else s.sched 250 .standbyTxSlot

/-! ### Chain frames in a pair (R421, R422) -/

/-- R421, R422. In a standby, frames with MIR = 0 of a chain are forwarded to the active unit and show that the chain is
broken; a mirror copy shows that it is whole. -/
def State.rxHeal (s : State) (c : Nat) (f : Frame) (l : List Byte) : State :=
  if s.standby && s.bit RDN_CTRL_EN && f.src != addrUnit then
    if bitOf f.flags 7 then (if f.ty = ftUp then s.setHeal c false else s)
    else
      let s := if s.bit RDN_STATUS_SHPATH && s.laneLink c then s.setHeal c true else s
      if s.rbit RDN_HEAL c then s.sendTunnel c 1 l else s
  else s

/-- R216, R275. A frame of a type received on a chain, from a node or from the other unit. Outside LINK it is discarded and
counted. -/
def State.rxChain (s : State) (c ty : Nat) (node : Bool) (l : List Byte) (h : Frame → State → State) : State :=
  if s.laneLink c then
    let r := (s.eccMeet 0x10 c).chainCheck c l
    match r.2 with
    | none => r.1
    | some f => if f.ty = ty ∧ decide (f.src < 192) = node then h f (r.1.rxHeal c f l) else r.1
  else if s.bit (LNK_CTRL_EN c) then s.count (LNK_RXDROP c)
  else s

/-- R223, R410. A partner HBT on a chain. -/
def State.chainHbt (s : State) (c : Nat) (f : Frame) : State :=
  if s.bit RDN_CTRL_EN && f.src == addrUnit && bitOf f.flags 5 != s.bit RDN_CFG_UNITB && decide (0 < s.seqDist (1024 + c) f) then
    let s := s.seqTake (1024 + c) f.seq
    let s := (s.updRdn (fun r => { r with chSeen := true })).pathSeen RDN_STATUS_CHPATH
    let epoch := fieldAt f.payload 0 4
    (s.partnerState epoch (fieldAt f.payload 8 1) (fieldAt f.payload 9 1)).partnerRole (fieldAt f.payload 8 1) epoch
  else s

/-- R242, R408. A CLAIM_RSP. -/
def State.claimAnswer (s : State) (c : Nat) (f : Frame) : State :=
  let r := s.claimRsp c f
  if r.2 then r.1.demote else r.1

/-- R251, R408. A NAK; 0x04 from every admitted node of a chain in one cycle shows that mastership is lost. -/
def State.nakAnswer (s : State) (c : Nat) (f : Frame) : State :=
  let s := s.nakFrame c f
  let adm := ((upto 8).map (fun k => 8 * c + k)).filter s.admitted
  if !adm.isEmpty && adm.all (fun id => s.cel.nak04.contains id) then s.demote else s

/-- R421. A frame of a chain that came through the tunnel. -/
def State.tunnelFrame (s : State) (c : Nat) (l : List Byte) : State :=
  let r := s.chainCheck c l
  match r.2 with
  | none => r.1
  | some f =>
    let s := if r.1.bit RDN_STATUS_SHPATH && (!r.1.laneLink c || r.1.bit (CEL_CHSTAT_BREAK c)) then r.1.setHeal c true else r.1
    if 192 ≤ f.src then s
    else if f.ty = ftUp then s.upFrame f true
    else if f.ty = ftMgmtRsp then s.mgmtRsp c f
    else if f.ty = ftClaimRsp then s.claimAnswer c f
    else if f.ty = ftNak then s.nakAnswer c f
    else s

end Sys2Proof.Machine
end

