-- ==== Sys2Proof/Machine/CelCmds.lean ====
section
/-!
DEFINITION. The commands of the Henlink protocol: received frames, timers, enumeration, host management requests and the
release of tripped nodes (R209–R262, R386, R502–R504).
-/

namespace Sys2Proof.Machine

/-! ### Received frames -/

/-- R228. UP_FRAME_RX. -/
def execUpFrameRx (c : Fin 24) (f : List Byte) (s : State) : Host.Outcome State Fault Refusal :=
  .next (s.rxChain c.val ftUp true f (fun f t => t.upFrame f false))

/-- R221. MGMT_RSP_RX. -/
def execMgmtRspRx (c : Fin 24) (f : List Byte) (s : State) : Host.Outcome State Fault Refusal :=
  .next (s.rxChain c.val ftMgmtRsp true f (fun f t => t.mgmtRsp c.val f))

/-- R242. CLAIM_RSP_RX. -/
def execClaimRspRx (c : Fin 24) (f : List Byte) (s : State) : Host.Outcome State Fault Refusal :=
  .next (s.rxChain c.val ftClaimRsp true f (fun f t => t.claimAnswer c.val f))

/-- R230, R406. A DELAY_RSP on the Shuttle link: the one-way delay of LN24. -/
def State.shuttleDelay (s : State) (lane : Nat) (l : List Byte) (t4 : Nat) : State :=
  if s.laneLink lane then
    let r := s.shuttleCheck ftDelayRsp (· == 32) l
    match r.2 with
    | none => r.1
    | some f =>
      let t1 := fieldAt f.payload 0 8
      if r.1.rdn.shT1 = some t1 ∧ lane = 24 then
        let d := (toSigned 64 (t4 + 2 ^ 64 - t1) - toSigned 64 (fieldAt f.payload 16 8 + 2 ^ 64 - fieldAt f.payload 8 8)) / 2
        (r.1.wrN RDN_SHDLY (ofSigned 32 d)).updRdn (fun x => { x with shT1 := none })
      else r.1
  else if s.bit (LNK_CTRL_EN lane) then s.count (LNK_RXDROP lane)
  else s

/-- R230. DELAY_RSP_RX: `t4` is the unit's stamp at the SOF arrival, in units of 2^-16 ns. -/
def execDelayRspRx (lane : Fin 26) (f : List Byte) (t4 : BitVec 64) (s : State) : Host.Outcome State Fault Refusal :=
  .next (if lane.val < 24 then s.rxChain lane.val ftDelayRsp true f (fun f t => t.delayRsp f t4.toNat)
    else s.shuttleDelay lane.val f t4.toNat)

/-- R251. NAK_RX. -/
def execNakRx (c : Fin 24) (f : List Byte) (s : State) : Host.Outcome State Fault Refusal :=
  .next (s.rxChain c.val ftNak true f (fun f t => t.nakAnswer c.val f))

/-- R223, R410. CHAIN_HBT_RX. -/
def execChainHbtRx (c : Fin 24) (f : List Byte) (s : State) : Host.Outcome State Fault Refusal :=
  .next (s.rxChain c.val ftHbt false f (fun f t => t.chainHbt c.val f))

/-- R236. ENUM_RETURN. -/
def execEnumReturn (c : Fin 24) (f : List Byte) (s : State) : Host.Outcome State Fault Refusal :=
  .next (s.rxChain c.val ftEnum false f (fun f t => t.enumReturn c.val f))

/-- R236, R250. An ENUM of the other unit reaches this end of the chain: it goes back with RET = 1, once. -/
def State.enumFarEnd (s : State) (c : Nat) (f : Frame) : State :=
  if fieldAt f.payload 4 1 = 0 ∧ bitOf f.flags 5 ≠ s.bit RDN_CFG_UNITB ∧ 0 < s.seqDist (1088 + c) f then
    (s.seqTake (1088 + c) f.seq).sendOn c { bytes := Frame.bytes { f with payload := f.payload.take 4 ++ [1#8] ++ f.payload.drop 5 } }
  else s

/-- R236. ENUM_FAR_END_RX. -/
def execEnumFarEndRx (c : Fin 24) (f : List Byte) (s : State) : Host.Outcome State Fault Refusal :=
  .next (s.rxChain c.val ftEnum false f (fun f t => t.enumFarEnd c.val f))

/-- R216, R244, R276, R421. K28.7 characters arrive on a lane that holds alignment. A frame that they interrupt is an abort. A whole
ordered set is a fast trip: counted from a chain; a standby repeats one from the Shuttle link on every healed chain. -/
def State.fastTripRx (s : State) (lane : Nat) (x : TripSet) : State :=
  if s.bit (LNK_STATUS_ALIGNED lane) then
    let s := if x = .whole false then s else s.count CEL_ABORT
    if x = .single then s
    else if lane < 24 then (s.count CEL_TRIPRX).evtCel CEL_EVT_TRIPRX lane
    else if s.standby then forL ((bitsIn 24 (s.rdN RDN_HEAL)).filter s.laneTrips) (fun c t => t.tripOn c) s
    else s
  else s

/-- R216, R244. FAST_TRIP_RX. -/
def execFastTripRx (lane : Fin 26) (x : TripSet) (s : State) : Host.Outcome State Fault Refusal :=
  .next (s.fastTripRx lane.val x)

/-! ### Timers -/

/-- R221. The request of a chain whose answer is overdue: it goes out again, but a broadcast to which responses have come ends. -/
def State.mgmtOverdue (s : State) (c : Nat) : State :=
  match s.cel.mgmt.find? (fun m => m.chain == c && m.at_ == .sent && decide (m.slot + s.fld CEL_MGMTCFG_TMO ≤ s.cel.slot)) with
  | some m => if m.cell = 0xFE ∧ 0 < m.responses then s.mgmtExpire m else s.mgmtAgain m true
  | none => s

/-- R221. MGMT_TIMEOUT. -/
def execMgmtTimeout (c : Fin 24) (s : State) : Host.Outcome State Fault Refusal := .next (s.mgmtOverdue c.val)

/-- R251. A request that a node refused as busy goes out again. -/
def State.mgmtBusy (s : State) (cell : Nat) : State :=
  match s.cel.mgmt.find? (fun m => m.cell == cell && m.at_ == .busy) with
  | some m => s.mgmtAgain m false
  | none => s

/-- R251. MGMT_BUSY_RETRY. -/
def execMgmtBusyRetry (cell : Fin 192) (s : State) : Host.Outcome State Fault Refusal := .next (s.mgmtBusy cell.val)

/-- R231. DELAY_EXCHANGE_PERIOD: an exchange with the node is wanted, and the next follows after PERIOD. -/
def execDelayExchangePeriod (cell : Fin 192) (s : State) : Host.Outcome State Fault Refusal :=
  .next (if s.nodeKnown cell.val then (s.updDly cell.val (fun d => { d with want := true })).delayTimer cell.val else s)

/-- R238. No valid UP of an admitted cell for CELL_HOLD_MAX. -/
def State.cellLost (s : State) (id : Nat) : State :=
  if s.admitted id && decide (ms (s.fld CEL_HOLDMAX_MS) ≤ (s.tick + 2 ^ 32 - s.up id 0x30 4) % 2 ^ 32) then
    (s.setCstat id csLost).evtCel CEL_EVT_LOST id
  else s

/-- R238. CELL_LOST_TIMEOUT. -/
def execCellLostTimeout (cell : Fin 192) (s : State) : Host.Outcome State Fault Refusal := .next (s.cellLost cell.val)

/-! ### Enumeration -/

/-- R235. ENUM_ASSIGN. -/
def execEnumAssign (m : Master) (chains : BitVec 24) (s : State) : Host.Outcome State Fault Refusal :=
  .next (s.gate m (fun s => s.enumGo m false chains.toNat))

/-- R235. ENUM_FILL. -/
def execEnumFill (m : Master) (chains : BitVec 24) (s : State) : Host.Outcome State Fault Refusal :=
  .next (s.gate m (fun s => s.enumGo m true chains.toNat))

/-- R235. The FILL pass of each second while control cycles run. -/
def State.fillPeriod (s : State) : State :=
  if s.bit GLB_STATUS_CTRL_RUN then (s.enumGo .thimble true (2 ^ 24 - 1)).timer 500000000 .enumFillPeriodic else s

/-- R235. ENUM_FILL_PERIODIC. -/
def execEnumFillPeriodic (s : State) : Host.Outcome State Fault Refusal := .next s.fillPeriod

/-- R236. ENUM_BREAK_TIMEOUT. -/
def execEnumBreakTimeout (c : Fin 24) (s : State) : Host.Outcome State Fault Refusal := .next (s.enumBreak c.val)

/-! ### Actions of Pricking -/

/-- R218. CELL_SNAPSHOT is carried in SNAP of the next SYNC of each chain concerned. -/
def State.cellSnapshot (s : State) (target kind : Nat) : State :=
  let low := target % 256
  let chains := if low = 0xFF then upto 24 else if low = 0xFE then [bitsOf target 8 5] else if low < 192 then [low / 8] else []
  forL (chains.filter s.chainOn) (fun c t => t.updCel (fun x => { x with snaps := tput none x.snaps c (some (kind, low)) })) s

/-- R70, R218, R416. CELL_SNAPSHOT. -/
def execCellSnapshot (target : BitVec 16) (kind : BitVec 7) (s : State) : Host.Outcome State Fault Refusal :=
  .next (if s.standby then s else s.cellSnapshot target.toNat kind.toNat)

/-- R70, R449. AGE_PROBE. -/
def execAgeProbe (target : BitVec 16) (params : Word) (s : State) : Host.Outcome State Fault Refusal :=
  .next (s.ageProbe target.toNat params.toNat)

/-! ### TRIPCLR (R385, R386) -/

/-- R386. The TRIPCLR sequence: EXEC to every node that shows STATE 5 on every enabled chain. -/
def State.tripclrStart (s : State) : State :=
  let ids := (upto 192).filter (fun id => s.bit (CEL_CHCFG_EN (id / 8)) && s.up id 0 1 % 16 == 5)
  let s := forL ids (fun id t => t.mgmtAdd { chain := id / 8, cell := id, op := 3, obj := 0x31, off := 0, cnt := 0, data := [], by_ := .tripclr })
    (s.setB FLT_STATUS_TRIPCLR true)
  s.tripclrCheck

/-- R385. FLT_RELEASE with TRIPCLR. -/
def State.releaseTripclr (s : State) (m : Master) (key : Nat) : State :=
  if key ≠ 0xF1E0 ∨ s.bit SELV_STATUS_STACK = true ∨ s.bit FLT_SAFEHOLD_STACK = true ∨ s.bit FLT_SAFEHOLD_ALL = true ∨
      s.bit CEL_STATUS_MASTER = false then s.fltRefuse m
  else s.tripclrStart

/-- R385. FLT_RELEASE_TRIPCLR. -/
def execFltReleaseTripclr (m : Master) (key : BitVec 16) (s : State) : Host.Outcome State Fault Refusal :=
  .next (s.gate m (fun s => s.releaseTripclr m key.toNat))

/-- R385. A write of FLT_RELEASE. -/
def State.fltRelease (s : State) (m : Master) (w : Nat) : State :=
  let key := bitsOf w 16 16
  if key ≠ 0xF1E0 then s.fltRefuse m
  else
    let s := if bitOf w 1 then s.releaseSafe m key else s
    if bitOf w 2 then s.releaseTripclr m key else s

/-! ### Host commands (R502–R504) -/

/-- R500, R504. The STATUS with which a CELL_MGMT command ends at once; none if it goes to the chain. -/
def State.mgmtRefused (s : State) (q : MgmtReq) : Option Nat :=
  let cell := q.cell.toNat
  let op := q.op.toNat
  if (192 ≤ cell ∧ cell ≠ 0xFE) ∨ op < 1 ∨ 3 < op ∨ (cell = 0xFE ∧ 24 ≤ q.chain.toNat) ∨ s.fld CEL_MGMTCFG_MAXLEN < q.data.length + 12 then
    some 0x11
  else
    let chain := if cell = 0xFE then q.chain.toNat else cell / 8
    if s.chainOn chain = false ∨ (cell ≠ 0xFE ∧ (s.cstat cell = csAbsent ∨ s.cstat cell = csExcess)) then some 0x23
    else if 1 < op ∧ s.bit CEL_STATUS_MASTER = false then some 0x24
    else none

/-- R501. CELL_MGMT commands in the device. -/
def State.hostMgmts (s : State) : Nat :=
  (s.cel.mgmt.filter (fun m => match m.by_ with
    | .host _ _ _ => true
    | _ => false)).length

/-- R501, R504. A CELL_MGMT command starts; beyond 64 of them it waits. -/
def State.cellMgmt (s : State) (ring : Nat) (d : Desc) (c : Instr) (q : MgmtReq) : State :=
  if s.cmdReady ring d && decide (s.hostMgmts < 64) then
    let cidx := s.ringDev ring
    let s := s.cmdFetch ring
    match s.mgmtRefused q with
    | some st => s.finish ⟨ring, d.tag.toNat, d.opc.toNat, cidx, st, 0⟩
    | none =>
      let cell := q.cell.toNat
      s.mgmtAdd { chain := if cell = 0xFE then q.chain.toNat else cell / 8, cell, op := q.op.toNat, obj := q.obj.toNat
                  off := q.offset.toNat, cnt := q.cnt.toNat, data := if q.op.toNat = 1 then [] else q.data
                  by_ := .host ring d.tag.toNat cidx }
  else s.cmdLater ring c

/-- R504. CELL_MGMT. -/
def execCellMgmt (ring : Fin 8) (d : Desc) (q : MgmtReq) (s : State) : Host.Outcome State Fault Refusal :=
  .next (s.cellMgmt ring.val d (.cellMgmt ring d q) q)

/-- R31, R238. The cell map entry of a cell has changed. -/
def State.mapChanged (s : State) (id : Nat) : State :=
  if s.cstat id = csHeld ∨ s.cstat id = csUnmapped then s.cellFound id else s.celStatus

/-- R502, R503. CELLMAP_WRITE: the entries are written. -/
def State.cellMapWrite (s : State) (d : Desc) (first : Nat) (entries : List (List Byte)) : State × Nat × Nat :=
  let n := entries.length
  if n = 0 ∨ 192 < first + n ∨ d.len.toNat ≠ 32 * n ∨ entries.any (fun e => e.length != 32) = true then (s, 0x11, 0)
  else
    let l := (upto n).zip entries
    let s := forL l (fun e t => t.setMemBytes (cellMap (first + e.1)) e.2) s
    (forL l (fun e t => t.mapChanged (first + e.1)) s, 0, n)

/-- R503. CELLMAP_WRITE. -/
def execCellmapWrite (ring : Fin 8) (d : Desc) (first : Fin 256) (entries : List (List Byte)) (s : State) :
    Host.Outcome State Fault Refusal :=
  .next (s.runCmd ring.val d (.cellmapWrite ring d first entries) (fun s => s.cellMapWrite d first.val entries))

end Sys2Proof.Machine
end

