-- ==== Sys2Proof/Machine/RdnCmds.lean ====
section
/-!
DEFINITION. The commands of paired operation (R397–R434): Shuttle frames, the writes of RDN_CTRL, the timers of the
redundancy sequencer, its transmit slot and the standby self-test.
-/

namespace Sys2Proof.Machine

/-! ### Shuttle frames -/

/-- R401. A Shuttle frame of a type that arrives on a Shuttle lane in LINK. -/
def State.rxShuttle (s : State) (lane ty : Nat) (lenOk : Nat → Bool) (l : List Byte) (h : Frame → State → State) : State :=
  if s.laneLink lane then
    let r := (s.eccMeet 0x10 lane).shuttleCheck ty lenOk l
    match r.2 with
    | none => r.1
    | some f => h f r.1
  else if s.bit (LNK_CTRL_EN lane) then s.count (LNK_RXDROP lane)
  else s

/-- R403. SHUTTLE_HBT_RX: `frac` is the SOF arrival within this tick, in units of 2^-16 tick. -/
def execShuttleHbtRx (lane : Fin 26) (f : List Byte) (frac : BitVec 16) (s : State) : Host.Outcome State Fault Refusal :=
  .next (if lane.val < 24 then s else s.rxShuttle lane.val ftHbt (· == 40) f (fun f t => t.shuttleHeartbeat f frac.toNat))

/-- R405. Either Shuttle lane is in LINK. -/
def State.shuttleUp (s : State) : Nat := if s.laneLink 24 then 24 else 25

/-- R405, R412. STATE_SEGMENT_RX. -/
def execStateSegmentRx (f : List Byte) (s : State) : Host.Outcome State Fault Refusal :=
  .next (s.rxShuttle s.shuttleUp ftState (fun n => decide (16 ≤ n) && n % 4 == 0) f (fun f t => t.stateSegment f))

/-- R405, R421. A tunnelled frame: injected on a healed chain after SYNC, or handled as received on its chain. -/
def State.tunnelRx (s : State) (f : Frame) : State :=
  let c := fieldAt f.payload 0 1
  let inner := f.payload.drop 16
  if 24 ≤ c then s
  else if bitOf (fieldAt f.payload 1 1) 0 then (if s.commands then s.tunnelFrame c inner else s)
  else if s.standby && s.rbit RDN_HEAL c then
    if s.rdn.txSync then s.sendOn c { bytes := inner } else s.updRdn (fun r => { r with inject := r.inject ++ [(c, inner)] })
  else s

/-- R405. TUNNEL_RX. -/
def execTunnelRx (f : List Byte) (s : State) : Host.Outcome State Fault Refusal :=
  .next (s.rxShuttle s.shuttleUp ftTunnel (fun n => decide (28 ≤ n)) f (fun f t => t.tunnelRx f))

/-- R406. The answer to a delay request of the partner: T2 at its SOF arrival, T3 at departure. -/
def State.shuttleDelayRsp (s : State) (f : Frame) (t2 : Nat) : State :=
  s.sendShuttle 24 ftDelayRsp clDelay .t3 (f.payload.take 8 ++ leBytes t2 8 ++ leBytes 0 8 ++ (f.payload.drop 8).take 4 ++ leBytes 0 4)

/-- R406. SHUTTLE_DELAY_REQ_RX. -/
def execShuttleDelayReqRx (f : List Byte) (t2 : BitVec 64) (s : State) : Host.Outcome State Fault Refusal :=
  .next (s.rxShuttle 24 ftDelayReq (· == 16) f (fun f t => t.shuttleDelayRsp f t2.toNat))

/-- R406. A delay exchange on LN24, once per second. -/
def State.shuttleDelayPeriod (s : State) : State :=
  if s.bit RDN_CTRL_EN then
    let s := s.timer 500000000 .shuttleDelayPeriod
    if s.laneLink 24 then
      (s.updRdn (fun r => { r with shT1 := none })).sendShuttle 24 ftDelayReq clDelay .shT1 (leBytes 0 12 ++ leBytes (s.rdN RDN_SHDLY) 4)
    else s
  else s

/-- R406. SHUTTLE_DELAY_PERIOD. -/
def execShuttleDelayPeriod (s : State) : Host.Outcome State Fault Refusal := .next s.shuttleDelayPeriod

/-! ### RDN_CTRL -/

/-- R400. The enable check: (HBMISS + 4) × T40 + 1 ms ≤ CEL_HOLDMAX, T40 = 1 / (frequency × cycles per turn). A page without
cycles fails it. -/
def State.holdLongEnough (s : State) : Bool :=
  let fc := s.lowFreq * s.cycles
  decide (0 < fc) &&
    decide ((s.fld RDN_CFG_HBMISS + 4) * 50000000000 + ms 1 * fc ≤ ms (s.fld CEL_HOLDMAX_MS) * fc)

/-- R400, R408. EN is set. -/
def State.rdnOn (s : State) : State :=
  if s.holdLongEnough then
    let s := (s.setB RDN_CTRL_EN true).setB RDN_STATUS_HOLDSHORT false
    let s := s.updRdn (fun r => { r with shMiss := 0, chMiss := 0, joinMiss := 0, hcmd := 0, snapDone := false, deltaAge := 255 })
    let s := ((s.sched 0 (.laneEnable .thimble ⟨24, by decide⟩)).sched 0 (.laneEnable .thimble ⟨25, by decide⟩)).rdnEnter rdJoin
    s.timer 500000000 .shuttleDelayPeriod
  else s.setB RDN_STATUS_HOLDSHORT true

/-- R400, R408. EN is cleared. -/
def State.rdnOff (s : State) : State :=
  let s := (s.setB RDN_CTRL_EN false).rdnEnter rdSingle
  let s := (((s.setB RDN_STATUS_SHPATH false).setB RDN_STATUS_CHPATH false).setB RDN_STATUS_FENCED false).setB RDN_STATUS_CTLOCK false
  let s := (s.setCtofs 0).updRdn (fun r => { r with
    fenceSent := false, fenceWant := false, answers := [], hcmd := 0, shSeen := false, chSeen := false, partnerGone := false
    heldOk := false, snapNext := none, ctOk := 0, ctRate := 0, ctAt := 0 })
  (forL (bitsIn 24 (s.rdN RDN_HEAL)) (fun c t => t.setHeal c false) s).stateOk

/-- R400. A write of RDN_CTRL that clears EN in ACTIVE or HANDOFF is ignored. -/
def State.rdnKept (s : State) (w : Nat) : Bool :=
  !bitOf w 0 && s.bit RDN_CTRL_EN && (s.rdState == rdActive || s.rdState == rdHandoff)

/-- R400, R408, R424, R425, R432. A write of RDN_CTRL. -/
def State.rdnCtrl (s : State) (m : Master) (w : Nat) : State :=
  if s.rdnKept w then s.refuse m RDN_CTRL else
  let s := s.setB RDN_CTRL_TEST (bitOf w 1)
  let en := bitOf w 0
  let s := if en && !s.bit RDN_CTRL_EN then s.rdnOn else if !en && s.bit RDN_CTRL_EN then s.rdnOff else s
  let s := if bitOf w 2 && (s.rdState == rdJoin || s.rdState == rdStandby) then s.rdnClaim else s
  let s := if bitOf w 3 then s.hoRequest else s
  if bitOf w 4 && s.hoBusy then s.hoAbandon else s

/-- R400. RDN_ENABLE. -/
def execRdnEnable (m : Master) (s : State) : Host.Outcome State Fault Refusal :=
  .next (s.gate m (fun s => s.rdnCtrl m (putBit (s.rdN RDN_CTRL) 0 true)))

/-- R400. RDN_DISABLE. -/
def execRdnDisable (m : Master) (s : State) : Host.Outcome State Fault Refusal :=
  .next (s.gate m (fun s => s.rdnCtrl m (putBit (s.rdN RDN_CTRL) 0 false)))

/-- R408. RDN_CLAIMGO. -/
def execRdnClaimgo (m : Master) (s : State) : Host.Outcome State Fault Refusal :=
  .next (s.gate m (fun s => s.rdnCtrl m (putBit (s.rdN RDN_CTRL) 2 true)))

/-- R424. RDN_HOREQ. -/
def execRdnHoreq (m : Master) (s : State) : Host.Outcome State Fault Refusal :=
  .next (s.gate m (fun s => s.rdnCtrl m (putBit (s.rdN RDN_CTRL) 3 true)))

/-- R425. RDN_HOABORT. -/
def execRdnHoabort (m : Master) (s : State) : Host.Outcome State Fault Refusal :=
  .next (s.gate m (fun s => s.rdnCtrl m (putBit (s.rdN RDN_CTRL) 4 true)))

/-! ### Claims and handover -/

/-- R242, R418. CLAIM_OUTCOME. -/
def execClaimOutcome (s : State) : Host.Outcome State Fault Refusal := .next s.claimResult

/-- R419. CHAIN_RECLAIM. -/
def execChainReclaim (s : State) : Host.Outcome State Fault Refusal := .next (if s.rdState = rdActive then s.reclaim else s)

/-- R70, R416, R426. HANDOVER_POINT: a standby suppresses it; after HOARM the next REFS_DUE is that of the handover cycle. -/
def execHandoverPoint (s : State) : Host.Outcome State Fault Refusal :=
  .next (if s.standby then s
    else if s.bit RDN_STATUS_HOARMED then s.updRdn (fun r => { r with hoPoint := true }) else s)

/-- R424. The preferred unit asks for control. -/
def State.revertNow (s : State) : State :=
  if s.rdn.revert then (s.updRdn (fun r => { r with revert := false })).hoRequest else s

/-- R424. REVERT_TIMER_EXPIRE. -/
def execRevertTimerExpire (s : State) : Host.Outcome State Fault Refusal := .next s.revertNow

/-- R425. HOARM_TIMEOUT. -/
def execHoarmTimeout (s : State) : Host.Outcome State Fault Refusal :=
  .next (if s.rdState = rdActive ∧ s.bit RDN_STATUS_HOARMED = true ∧ s.rdn.hoPoint = false then s.hoAbandon else s)

/-- R426. The standby claims 0.25 µs before the end of the handover cycle; the outcome is known two control cycles later. -/
def State.handoverClaim (s : State) : State :=
  if s.rdState = rdStandby then
    if s.claimAllowed then
      let u0 := s.rdN HOOP_H0TURNS * 2 ^ 32 + s.h0Ang
      let th := s.nextCycle u0
      let two := (s.nextCycle (s.nextCycle th) - th) * 2 ^ 32 / max 1 s.hoop.h0.step
      let s := (s.rdnEnter rdClaim).updRdn (fun r => { r with hoTake := true, hoAge := 0, claimMax := 0 })
      let s := s.claimSend s.claimE false
      (s.updCel (fun t => { t with claimDue := some (t.slot + 3) })).sched two .claimOutcome
    else s.evtRdn RDN_EVT_CLAIMLOST
  else s

/-- R426. HANDOVER_CLAIM. -/
def execHandoverClaim (s : State) : Host.Outcome State Fault Refusal := .next s.handoverClaim

/-- R408. The partner did not take over within four control cycles: this unit claims again. -/
def State.handoffTimeout (s : State) : State :=
  if s.rdState = rdHandoff then
    let s := s.evtRdn RDN_EVT_HOFAIL
    if s.claimAllowed then s.rdnClaim else s.rdnClaim.rdnEnter rdStandby
  else s

/-- R408. HANDOFF_TIMEOUT. -/
def execHandoffTimeout (s : State) : Host.Outcome State Fault Refusal := .next s.handoffTimeout

/-- R406. CTLOCK_TIMEOUT: 100 ms after the last Shuttle heartbeat. -/
def execCtlockTimeout (s : State) : Host.Outcome State Fault Refusal :=
  .next ((s.setB RDN_STATUS_CTLOCK false).updRdn (fun r => { r with ctOk := 0 }))

/-- R411. A snapshot, and the next after PERIOD. -/
def State.snapshotPeriod (s : State) : State := if s.rdState = rdActive then s.snapTimer.snapStart else s

/-- R411. SNAPSHOT_PERIOD. -/
def execSnapshotPeriod (s : State) : Host.Outcome State Fault Refusal := .next s.snapshotPeriod

/-! ### The transmit slot (R415, R421) -/

/-- R415, R421. The transmit slot of a unit that does not command: at T − 3.0 µs its own frames, 0.5 µs later SYNC and the
injected frames on healed chains. -/
def State.txSlotStep (s : State) : State :=
  if s.bit RDN_CTRL_EN && decide (2 ≤ s.fld GLB_STATUS_ROLE) && !s.commands then
    if s.rdn.txSlot then s.healSync else (s.updRdn (fun r => { r with txSlot := true })).standbySlot
  else s

/-- R415. STANDBY_TX_SLOT. -/
def execStandbyTxSlot (s : State) : Host.Outcome State Fault Refusal := .next s.txSlotStep

/-! ### Standby self-test (R428) -/

/-- R428. Whether the standby tests itself. -/
def State.testRuns (s : State) : Bool := s.rdState == rdStandby && !s.bit RDN_CFG_WIRING && s.bit RDN_CTRL_TEST

/-- R428. A tile has been tested. -/
def State.tileDone (s : State) (fail : Bool) : State :=
  if s.testRuns then
    let s := s.updRdn (fun r => { r with tiles := r.tiles + 1, tilesBad := r.tilesBad + (if fail then 1 else 0) })
    if fail then ((s.setB RDN_STATUS_TESTOK false).count RDN_TESTFAIL).evtRdn RDN_EVT_TESTFAIL else s
  else s

/-- R428. STANDBY_LBIST_TILE. -/
def execStandbyLbistTile (fail : Bool) (s : State) : Host.Outcome State Fault Refusal := .next (s.tileDone fail)

/-- R428, R430. Receive errors: Shuttle frames discarded and chain violations, saturating. -/
def State.rxErrors (s : State) : Nat :=
  min 65535 (bitsOf (s.rdN RDN_SHERR) 0 31 + (upto 24).foldl (fun n c => n + bitsOf (s.rdN (CEL_CHVIOL c)) 0 31) 0)

/-- R428, R430. The health report of each second. -/
def State.healthReport (s : State) : State :=
  if s.rdState = rdStandby then
    let s := s.timer 500000000 .standbyHealthReport
    if s.testRuns then
      let s := s.setB RDN_STATUS_TESTOK (decide (0 < s.rdn.tiles) && s.rdn.tilesBad == 0)
      (s.rdnRecord 0x06 s.rdn.tiles (s.rxErrors * 65536 + min 65535 s.rdn.tilesBad)).updRdn (fun r => { r with tiles := 0, tilesBad := 0 })
    else s
  else s

/-- R428. STANDBY_HEALTH_REPORT. -/
def execStandbyHealthReport (s : State) : Host.Outcome State Fault Refusal := .next s.healthReport

end Sys2Proof.Machine
end

