-- ==== Sys2Proof/Machine/Cycle.lean ====
section
/-!
DEFINITION. The control cycle: the RUN check and the start and stop of control cycles (R22, R33, R34, R445), the marks of a
cycle (R18, R21), and the thermal and ageing commands that need no lane.
-/

namespace Sys2Proof.Machine

/-! ### RUN (R22, R33, R34) -/

/-- R75. CYCLE_START angles with one at angle 0 and spacings around the turn that differ by at most 1 LSB. -/
def anglesEven (l : List Nat) : Bool :=
  match l.foldl (fun acc x => acc.takeWhile (fun y => decide (y ≤ x)) ++ [x] ++ acc.dropWhile (fun y => decide (y ≤ x))) [] with
  | [] => false
  | a :: t =>
    let gaps := ((a :: t).zip (t ++ [2 ^ 32 + a])).map (fun e => e.2 - e.1)
    a == 0 && decide (gaps.foldl max 0 ≤ gaps.foldl min (2 ^ 33) + 1)

/-- R22, R47. The flags of GLB_CFGERR. A turn of `n` cycles at `f` × 0.01 Hz has cycles of 10^8 / (f × n) µs; without a
CYCLE_START there is no cycle to measure, and CYC_UNEVEN alone says so. -/
def State.runFlags (s : State) : Nat :=
  let n := s.cycles
  let pipe := s.bit GLB_CYCCFG_PIPE
  let short := decide (100000000 < (if pipe then 5 else 10) * s.highFreq * n)
  let long := decide (n ≠ 0) && decide (100 * s.lowFreq * n < 100000000)
  let fmax := s.fld GLB_CYCCFG_FMAX
  let range := decide (fmax = 0) || (!s.bit HOOP_CTRL_H0DC && (decide (fmax < 4000) || decide (7000 < fmax)))
  let uneven := !anglesEven (cycleAngles (s.prkPage (s.fld PRK_STATUS_ACTIVE)))
  let nosched := s.h0State == h0Off || !s.bit PRK_CTRL_EN
  (if short then 1 else 0) + (if long then 2 else 0) + (if range then 4 else 0) + (if uneven then 8 else 0) + (if nosched then 16 else 0)

/-- R22, R33. A write of RUN = 1: the checks of the cycle, of Stitch (R173) and of the chains (R228). -/
def State.runSet (s : State) (m : Master) : State :=
  if s.bit THM_STATUS_STOP then s.refuse m GLB_CTRL
  else
    let f := s.runFlags
    let s := ((s.wrN GLB_CFGERR f).stitchCheck (s.rdN STCH_CTRL % 8)).chainCheckRun
    if f = 0 ∧ s.bit GLB_CTRL_RUN = false then ((s.setB GLB_CTRL_RUN true).wrN GLB_CYCCNT 0).updCel (fun t => { t with begun := false }) else s

/-- Which scheduled steps are marks of a control cycle. -/
def isCycleMark : Instr → Bool
  | .refsDue => true
  | .downDeparture => true
  | .standbyTxSlot => true
  | .cellHeadroomUpdate => true
  | .enumFillPeriodic => true
  | .tattingPublish => true
  | .stitchComputeDone => true
  | .handoverClaim => true
  | _ => false

/-- Control cycles stop: RUN and CTRL_RUN clear, the marks fall away, the scheduler passes every 20.0 µs again. -/
def State.ctrlStop (s : State) : State :=
  let s := ((s.setB GLB_CTRL_RUN false).setB GLB_STATUS_CTRL_RUN false).setB STCH_STATUS_BUSY false
  let s := (s.updCel (fun t => { t with slotEnd := none })).updStitch (fun t => { t with images := [] })
  let s := (s.unsched isCycleMark).updHoop (fun h => { h with overFmax := false })
  let s := if s.bit PRK_CTRL_EN then (s.setB PRK_STATUS_PASSMODE true).passTimer else s
  s.slotIdle

/-- R34. A write of RUN = 0. -/
def State.runClear (s : State) : State :=
  if s.bit GLB_STATUS_CTRL_RUN then
    if s.fld GLB_STATUS_ROLE ≤ 1 then s.orderlyStop else s.ctrlStop
  else s.setB GLB_CTRL_RUN false

/-- R33. A write of GLB_CTRL. -/
def State.glbCtrl (s : State) (m : Master) (w : Nat) : State :=
  let s := (s.setB GLB_CTRL_NTM_OPT (bitOf w 1)).updEnerg
  if bitOf w 0 then s.runSet m else s.runClear

/-- R22. RUN_SET: GLB_CTRL.RUN is written 1. -/
def execRunSet (m : Master) (s : State) : Host.Outcome State Fault Refusal :=
  .next (s.gate m (fun s => s.startGate m GLB_CTRL (fun s => s.glbCtrl m (putBit (s.rdN GLB_CTRL) 0 true))))

/-- R34. RUN_CLEAR: GLB_CTRL.RUN is written 0. -/
def execRunClear (m : Master) (s : State) : Host.Outcome State Fault Refusal :=
  .next (s.gate m (fun s => s.glbCtrl m (putBit (s.rdN GLB_CTRL) 0 false)))

/-- R172, R177. What Stitch keeps over a stop of the control cycles: W_e, the level and the phase offset of each phase, not the cells. -/
def StitchSt.restart (t : StitchSt) : StitchSt :=
  { t with cells := [], images := [], sets := [], placed := [], phases := t.phases.map (fun e => (e.1, { e.2 with members := [], respEnd := 0 })) }

/-- R22. Control cycles start at an H0 angle zero. Stitch starts without edges of an earlier run. -/
def State.ctrlRunStart (s : State) : State :=
  if s.bit GLB_CTRL_RUN && !s.bit GLB_STATUS_CTRL_RUN then
    let s := (s.setB GLB_STATUS_CTRL_RUN true).setB PRK_STATUS_PASSMODE false
    let s := ((s.unsched isCycleMark).unsched (· == .prickingPass)).sched 500000000 .enumFillPeriodic
    (s.updStitch StitchSt.restart).fmaxWatch
  else s

/-- R22. CTRL_RUN_START. -/
def execCtrlRunStart (s : State) : Host.Outcome State Fault Refusal := .next s.ctrlRunStart

/-! ### The marks of a cycle (R18, R21) -/

/-- H0's angle from 2 ticks ahead of now on: a CYCLE_START rounded to this tick lies before it. -/
def State.cycleAng (s : State) : Nat := s.rdN HOOP_H0TURNS * 2 ^ 32 + s.h0Ang

/-- R18. The predicted length of the control cycle that starts now, in ticks. -/
def State.cycleTicks (s : State) : Nat :=
  let u := s.cycleAng
  let step := max 1 s.hoop.h0.step
  ((s.nextCycle (u + 2 * step / 2 ^ 32 + 1) - u) * 2 ^ 33 + step) / (2 * step)

/-- R22. Whether the CYCLE_START at angle 0 has been rounded to a tick just before the zero. -/
def State.zeroNear (s : State) : Bool := decide (2 ^ 32 ≤ s.h0Ang + 2 * s.hoop.h0.step / 2 ^ 32 + 1)

/-- R51, R52. The backup source: whether each phase has an admitted cell, and the mean of the phases' summed DC links. -/
def State.backupUpdate (s : State) : State :=
  let cells (p : Nat) : List Nat := (upto 192).filter (fun id => s.phaseOf id == p && s.admitted id)
  let sum (p : Nat) : Nat := (cells p).foldl (fun n id => n + s.up id 0x08 2) 0
  s.h0Backup ((upto 3).all (fun p => !(cells p).isEmpty)) ((sum 0 + sum 1 + sum 2) / 3)

/-- R18, R21, R415, R443. The marks of a cycle of `t` ticks. -/
def State.placeMarks (s : State) (t : Nat) : State :=
  let pipe := s.bit GLB_CYCCFG_PIPE
  let s := s.sched (s.fld CEL_UPWIN_WIN * 5) .cellHeadroomUpdate
  let s := s.sched (if pipe then t - 250 else t - 3000) .refsDue
  let s := s.sched (if pipe then t + 1250 else t - downLead) .downDeparture
  if s.bit RDN_CTRL_EN then s.sched (t - 1500) .standbyTxSlot else s

/-- R18, R44. A control cycle begins. -/
def State.cycleBegin (s : State) : State :=
  let s := if s.cel.begun then s.wrN GLB_CYCSTAT (s.tick - s.cel.t0) else s
  let t := s.cycleTicks
  let s := (s.incr GLB_CYCCNT).updCel (fun x => { x with t0 := s.tick, begun := true, slotEnd := some (s.tick + t - 50) })
  ((s.celCycle.ageCells.probeCycle.rdnCycle.backupUpdate).prkPass t).placeMarks t

/-- R18, R70. CYCLE_START has an effect while control cycles run, or at the zero at which they start. -/
def State.cycleStart (s : State) : State :=
  if s.bit GLB_STATUS_CTRL_RUN then s.cycleBegin
  else if s.bit GLB_CTRL_RUN && s.zeroNear then s.ctrlRunStart.cycleBegin
  else s

/-- R18. CYCLE_START. -/
def execCycleStart (s : State) : Host.Outcome State Fault Refusal := .next s.cycleStart

/-- R186, R414. The first latch of a new active unit: Stitch runs on from the state that it took over. -/
def State.firstLatch (s : State) : State :=
  match s.rdn.carried with
  | some gen =>
    let s := (s.carryLevels gen).updRdn (fun r => { r with carried := none })
    forN 3 (fun p t => t.stitchAdopt t.window p) s
  | none => s

/-- R185. STITCH_COMPUTE_DONE. -/
def execStitchComputeDone (s : State) : Host.Outcome State Fault Refusal :=
  .next (if s.bit STCH_STATUS_BUSY then s.stitchDone else s)

/-- R18, R141, R411. REFS_DUE: window misses, the latch of a unit that commands, and the sequencer's work. -/
def State.refsDue (s : State) : State :=
  if s.bit GLB_STATUS_CTRL_RUN then
    let s := s.windowCheck
    let s := if s.commands then s.firstLatch.stitchLatch.placeProbes else s
    s.rdnRefs
  else s

/-- R18. REFS_DUE. -/
def execRefsDue (s : State) : Host.Outcome State Fault Refusal := .next s.refsDue

/-- R199, R411. TATTING_PUBLISH; the delta of the cycle leaves with it. A standby unit does not rank (R204). -/
def execTattingPublish (s : State) : Host.Outcome State Fault Refusal :=
  .next (if s.standby then s else s.tatPublish.sendDelta)

/-- R18, R20, R227. DOWN_DEPARTURE of a unit that commands; without control cycles the slot of a unit that does not command
only recurs. -/
def execDownDeparture (s : State) : Host.Outcome State Fault Refusal :=
  .next (if s.commands then s.departure else s.slotIdle)

/-! ### The orderly stop (R445) -/

/-- R445. ORDERLY_STOP_STACK. -/
def execOrderlyStopStack (s : State) : Host.Outcome State Fault Refusal :=
  .next (if s.bit THM_STATUS_STOP then s.selvTrip 61 0 true false else s)

/-- R445. ORDERLY_STOP_LEGS. -/
def execOrderlyStopLegs (s : State) : Host.Outcome State Fault Refusal :=
  .next (if s.bit THM_STATUS_STOP then s.selvTrip 61 0xFFF false false else s)

/-- R445. The stop is complete. -/
def State.orderlyEnd (s : State) : State :=
  if s.bit THM_STATUS_STOP then ((s.ctrlStop.setB THM_STATUS_STOP false).thmLimit).thmRecord 0x07 0xFF else s

/-- R445. ORDERLY_STOP_END. -/
def execOrderlyStopEnd (s : State) : Host.Outcome State Fault Refusal := .next s.orderlyEnd

/-! ### Thermal commands -/

/-- R444. DIE_SENSOR_SAMPLE: readings of die sensors 0–7, Q12.4 °C; one that is not given keeps its last reading. -/
def execDieSensorSample (rs : List (BitVec 16)) (s : State) : Host.Outcome State Fault Refusal :=
  .next (s.dieSample ((upto 8).map (fun k => match rs[k]? with
    | some r => toSigned 16 r.toNat
    | none => s.sfld (THM_TEMP_READ (16 + k)))))

/-- R437. DIODE_READING: `bad` says that the junction is open or shorted. -/
def execDiodeReading (k : Fin 8) (bad : Bool) (t : BitVec 16) (s : State) : Host.Outcome State Fault Refusal :=
  .next (s.thmReading k.val bad (toSigned 16 t.toNat))

/-- R439, R441. THROTTLE_EVALUATE, every millisecond; without EN nothing is evaluated. -/
def execThrottleEvaluate (s : State) : Host.Outcome State Fault Refusal :=
  .next ((if s.bit THM_CTRL_EN then s.thmEvaluate else s).timer (ms 1) .throttleEvaluate)

/-- R439. THM_NSTEP_WRITE. -/
def execThmNstepWrite (m : Master) (n : BitVec 4) (s : State) : Host.Outcome State Fault Refusal :=
  .next (s.gate m (fun s => s.thmNstep n.toNat))

/-- R442. THM_ACK. -/
def execThmAck (m : Master) (s : State) : Host.Outcome State Fault Refusal := .next (s.gate m (fun s => s.thmAck))

/-- R443. CELL_HEADROOM_UPDATE. -/
def execCellHeadroomUpdate (s : State) : Host.Outcome State Fault Refusal := .next s.headroom

/-- R446. The fixed comparator of a die sensor decides: source 0x05, Selvage source 62, no new MRAM line, and the halt 10 µs
later. -/
def State.dieTrip (s : State) : State :=
  if s.thm.halted then s
  else if s.thm.decided then s.raise 0x05 0xFF
  else
    let s := ((s.updThm (fun t => { t with decided := true })).setB NVM_STATUS_HALT true).raise 0x05 0xFF
    ((s.setSelvLive 62 true).selvDecide 62).sched (us 10) .thermalHalt

/-- R446. DIE_COMPARATOR_TRIP. -/
def execDieComparatorTrip (s : State) : Host.Outcome State Fault Refusal := .next s.dieTrip

/-! ### Ageing commands -/

/-- R449. PROBE_TIMEOUT: a probe whose TAG has not come back. -/
def execProbeTimeout (cell : Fin 192) (s : State) : Host.Outcome State Fault Refusal :=
  .next (match tget none s.age.pend cell.val with
    | some p => if p.left = 0 then s.probeFail cell.val else s
    | none => s)

/-- R451, R454. The life indices and DERATE of every cell, once per second; in Quiet AGE has stopped. -/
def State.lifeUpdate (s : State) : State :=
  let s := (s.timer 500000000 .ageLifeUpdate).setB AGE_STATUS_RUN (s.bit AGE_CTRL_EN && s.awake)
  if s.bit AGE_STATUS_RUN then forN 192 (fun id t => (t.ageLife id).ageDerate id) s else s

/-- R451. AGE_LIFE_UPDATE. -/
def execAgeLifeUpdate (s : State) : Host.Outcome State Fault Refusal := .next s.lifeUpdate

/-- R452, R454, R476. AGE_SAVE, every SAVEPER seconds and at an orderly stop; not in Quiet, where AGE has stopped. -/
def execAgeSave (s : State) : Host.Outcome State Fault Refusal :=
  .next (if s.awake then (s.timer (s.fld AGE_RPTCFG_SAVEPER * 500000000) .ageSave).ageSave
    else s.timer (s.fld AGE_RPTCFG_SAVEPER * 500000000) .ageSave)

/-- R453, R454. AGE_REPORT: a summary of every cell that has a record; none in Quiet. -/
def execAgeReport (s : State) : Host.Outcome State Fault Refusal :=
  .next (forL ((upto 192).filter (fun id => s.awake && (s.ageRec id).isSome)) (fun id t => t.ageRecord 2 id 0 0)
    (s.timer (s.fld AGE_RPTCFG_RPTPER * 500000000) .ageReport))

/-- R452. A write of AGE_CELLRST. -/
def State.cellRst (s : State) (w : Nat) : State :=
  let id := bitsOf w 0 8
  if bitsOf w 16 16 = 0xA6E0 ∧ id < 192 then s.ageRestart id (((s.ageRec id).map (fun r => r.uid)).getD 0) else s

/-- R452. AGE_CELL_RESET. -/
def execAgeCellReset (m : Master) (w : Word) (s : State) : Host.Outcome State Fault Refusal :=
  .next (s.gate m (fun s => s.cellRst w.toNat))

/-- The smallest of a list with its index, the lowest index on a tie. -/
def minAt : List Nat → Nat → Nat × Nat → Nat × Nat
  | [], _, b => b
  | x :: t, i, b => minAt t (i + 1) (if x < b.1 then (x, i) else b)

/-- R447. The VID code becomes `c`. -/
def State.setVid (s : State) (c slack : Nat) : State :=
  ((s.setF AGE_VID_CODE c).evtAge AGE_EVT_VIDCHG 0xFF).ageRecord 4 0xFF c slack

/-- R447, R458. A reading of the path monitors: the smallest slack, and one step of the VID code. -/
def State.pathRead (s : State) (slacks : List Nat) : State :=
  match slacks with
  | [] => s
  | x :: t =>
    let m := minAt t 1 (x, 0)
    let s := (s.setF AGE_PATHMIN_SLACK m.1).setF AGE_PATHMIN_MON m.2
    let low := decide (m.1 < 2 * s.fld AGE_VIDCFG_SLKLO)
    let s := if low then s.evtAge AGE_EVT_PATHMARG m.2 else s
    if s.bit AGE_VIDCFG_AUTO then
      let hi := s.fld AGE_VIDCFG_VIDMAX
      let lo := min hi (s.fld AGE_VIDCFG_VIDNOM)
      let c := s.fld AGE_VID_CODE
      let k := clampNat lo hi c
      if k ≠ c then s.setVid k m.1
      else if low then (if c < hi then s.setVid (c + 1) m.1 else s.evtAge AGE_EVT_VIDMAX 0xFF)
      else if 2 * s.fld AGE_VIDCFG_SLKHI < m.1 ∧ lo < c then s.setVid (c - 1) m.1
      else s
    else s

/-- R447, R454. PATH_MONITOR_READ: slacks of the path monitors in ps; in Quiet AGE has stopped. -/
def execPathMonitorRead (slacks : List (BitVec 16)) (s : State) : Host.Outcome State Fault Refusal :=
  .next (if s.awake then s.pathRead (slacks.map (fun x => x.toNat)) else s)

end Sys2Proof.Machine
end

