-- ==== Sys2Proof/Machine/Eth.lean ====
section
/-!
DEFINITION. The Ethernet ports: recognition of PTP messages, time-stamps, one-step insertion, PRP, and the transmit and
receive commands (R103–R121, R505, R506). The layout of PTP messages and of the PRP trailer is that of IEEE 1588-2019 and
IEC 62439-3, which the spec names (PRESUMED, log entry 14).
-/

namespace Sys2Proof.Machine

/-- The byte at an offset of a frame. -/
def byteAt (f : List Byte) (i : Nat) : Nat := (f.getD i 0#8).toNat

/-- A big-endian number of `n` bytes at an offset of a frame. -/
def beAt (f : List Byte) (i : Nat) : Nat → Nat
  | 0 => 0
  | n + 1 => beAt f i n * 256 + byteAt f (i + n)

/-- The `n` big-endian bytes of a number. -/
def beBytes (v n : Nat) : List Byte := (leBytes v n).reverse

/-- A frame with bytes replaced from an offset on. -/
def putAt (f : List Byte) (i : Nat) (b : List Byte) : List Byte := f.take i ++ b ++ f.drop (i + b.length)

/-- R103, R120. The offset of the PTP message of a frame, and whether it is layer 2; none where the frame is not recognised.
PTPEN plays no part: it governs stamps and one-step. -/
def State.ptpAt (s : State) (port : Nat) (f : List Byte) : Option (Nat × Bool) :=
  let tagged := beAt f 12 2 == 0x8100
  if tagged && !s.bit (ETH_PTPCFG_VLAN port) then none
  else
    let e := if tagged then 16 else 12
    let at_ : Option (Nat × Bool) :=
      if beAt f e 2 = 0x88F7 then some (e + 2, true)
      else if beAt f e 2 = 0x0800 ∧ s.bit (ETH_PTPCFG_UDP4 port) = true ∧ byteAt f (e + 2) / 16 = 4 ∧ byteAt f (e + 11) = 17 then
        let u := e + 2 + byteAt f (e + 2) % 16 * 4
        if beAt f (u + 2) 2 = 319 ∨ beAt f (u + 2) 2 = 320 then some (u + 8, false) else none
      else none
    match at_ with
    | some (o, l2) => if byteAt f (o + 1) % 16 = 2 ∧ byteAt f (o + 1) / 16 ≤ 1 then some (o, l2) else none
    | none => none

/-- R106. Whether a frame is PTP, by Ethertype or UDP port, for PRP. -/
def isPtp (f : List Byte) : Bool :=
  let e := if beAt f 12 2 = 0x8100 then 16 else 12
  beAt f e 2 == 0x88F7 ||
    (beAt f e 2 == 0x0800 && byteAt f (e + 11) == 17 &&
      (let u := e + 2 + byteAt f (e + 2) % 16 * 4
       beAt f (u + 2) 2 == 319 || beAt f (u + 2) 2 == 320))

/-- R103. The PTP messages the device stamps: Sync, Delay_Req, Pdelay_Req, Pdelay_Resp. -/
def ptpEvent (f : List Byte) (o : Nat) : Bool := decide (byteAt f o % 16 ≤ 3)

/-- R104. The stamp of an event at this tick, in units of 2^-8 ns: network time, the sub-tick instant (a free value below
2 ns) and the latency of the port in 1/16 ns. -/
def State.stamp (s : State) (lat : Nat) : Nat × State :=
  let r := s.free 512
  let t : Int := ((s.ntm.exact / 2 ^ 24 + r.1 : Nat) : Int) + toSigned 16 lat * 16
  (t.toNat, r.2)

/-- A stamp's seconds, nanoseconds and 1/256 ns. -/
def stampSec (t : Nat) : Nat := t / (1000000000 * 256)
def stampNs (t : Nat) : Nat := t / 256 % 1000000000
def stampFrac (t : Nat) : Nat := t % 256

/-- R97. STEPGEN of a stamp taken now. -/
def State.stepGen (s : State) : Nat := s.rdN NTM_STEPCNT % 16

/-- R505, R506. Bytes 16–31 of a slot but for the last: seconds, nanoseconds, fraction. -/
def stampBytes (t : Nat) : List Byte := leBytes (stampSec t) 6 ++ leBytes 0 2 ++ leBytes (stampNs t) 4 ++ leBytes (stampFrac t) 1

/-! ### PRP (R106, R107) -/

/-- R106. PRPEN. -/
def State.prpOn (s : State) : Bool := s.bit (ETH_PRPCFG_PRPEN 0)

/-- R106. The redundancy control trailer of a frame sent on a port. -/
def rct (seq lan size : Nat) : List Byte := beBytes seq 2 ++ beBytes (lan * 4096 + size % 4096) 2 ++ beBytes 0x88FB 2

/-- R106. The LSDU size that a trailer states: everything after the addresses and Ethertype, with the trailer. -/
def lsduSize (f : List Byte) : Nat := f.length - (if beAt f 12 2 = 0x8100 then 18 else 14)

/-- R107. The trailer of a received frame: sequence number and LAN identifier. -/
def rctOf (f : List Byte) : Option (Nat × Nat) :=
  let n := f.length
  if 20 ≤ n ∧ beAt f (n - 2) 2 = 0x88FB ∧ beAt f (n - 4) 2 % 4096 = lsduSize f % 4096 then
    some (beAt f (n - 6) 2, byteAt f (n - 4) / 16)
  else none

/-- R107. A sequence number against the window of an entry: whether it is a duplicate, and the entry after it. -/
def PrpEnt.see (e : PrpEnt) (seq now : Nat) : Bool × PrpEnt :=
  let d := toSigned 16 (seq + 65536 - e.high)
  if 0 < d then
    (false, { e with high := seq, seen := (e.seen * 2 ^ d.toNat + 1) % 2 ^ 64, used := now })
  else if -64 < d then
    let i := (-d).toNat
    (bitOf e.seen i, { e with seen := putBit e.seen i true, used := now })
  else (false, { e with used := now })

/-- R107. The entry used longest ago. -/
def prpOldest (l : List PrpEnt) : Nat := l.foldl (fun m e => min m e.used) (l.foldl (fun m e => max m e.used) 0)

/-- R107. Entries unused for FORGET milliseconds are freed, and the next expiry is scheduled. -/
def State.prpExpire (s : State) : State :=
  let d := ms (s.fld (ETH_PRPCFG_FORGET 0))
  let s := (s.updEth (fun x => { x with prp := x.prp.filter (fun e => decide (s.tick < e.used + d)) })).unsched (· == .prpEntryExpire)
  if s.eth.prp.isEmpty then s else s.schedAt (prpOldest s.eth.prp + d) .prpEntryExpire

/-- R107. A frame of a source with a sequence number: whether it is a duplicate. -/
def State.prpTake (s : State) (mac seq : Nat) : State × Bool :=
  match s.eth.prp.find? (fun e => e.mac == mac) with
  | some e =>
    let r := e.see seq s.tick
    (s.updEth (fun x => { x with prp := x.prp.map (fun y => if y.mac = mac then r.2 else y) }), r.1)
  | none =>
    let new : PrpEnt := ⟨mac, seq, 1, s.tick⟩
    if s.eth.prp.length < 512 then (s.updEth (fun x => { x with prp := x.prp ++ [new] }), false)
    else
      let old := prpOldest s.eth.prp
      match s.eth.prp.find? (fun e => e.used == old) with
      | some v => ((s.updEth (fun x => { x with prp := x.prp.erase v ++ [new] })).count (ETH_PRPEVICT 0), false)
      | none => (s, false)

/-- R107. A frame of a source with a sequence number: entries out of date fall away first. -/
def State.prpSee (s : State) (mac seq : Nat) : State × Bool :=
  let r := s.prpExpire.prpTake mac seq
  (r.1.prpExpire, r.2)

/-! ### Receive -/

/-- R100. A Sync that matches the master, received on a port. -/
def State.syncSeen (s : State) (port : Nat) (f : List Byte) (o : Nat) (l2 : Bool) : State :=
  let portOk := l2 || beAt f (o - 6) 2 == 319
  if byteAt f o % 16 = 0 ∧ portOk ∧ byteAt f (o + 4) = s.fld (ETH_PTPCFG_DOMAIN port) ∧
      beAt f (o + 20) 8 = s.rdN NTM_MASTERID_HI * 2 ^ 32 + s.rdN NTM_MASTERID_LO ∧
      (s.bit NTM_MASTERPORT_ANY || beAt f (o + 28) 2 == s.fld NTM_MASTERPORT_PORT) then
    let s := s.count (ETH_MSYNC port)
    (s.updNtm (fun n => if port = 0 then { n with sync0 := some s.tick } else { n with sync1 := some s.tick })).masterSign
  else s

/-- R497, R506. A frame delivered to a ring as one record. -/
def State.ethDeliver (s : State) (ring : Nat) (f : List Byte) (t : Option Nat) (event lanB : Bool) : State :=
  let info := match t with
    | some x => stampBytes x ++ [BitVec.ofNat 8 (s.stepGen + 16 + (if lanB then 32 else 0) + (if event then 64 else 0))]
    | none => leBytes 0 13 ++ [BitVec.ofNat 8 ((if lanB then 32 else 0) + (if event then 64 else 0))]
  (s.ringRecord ring f info).1

/-- R104, R106, R107. A good frame received on an enabled port. -/
def State.ethRx (s : State) (port : Nat) (f : List Byte) : State :=
  let s := s.count (ETH_RXFRM port)
  let ptp := s.ptpAt port f
  let event := match ptp with
    | some (o, _) => ptpEvent f o
    | none => false
  let r := if event && s.bit (ETH_PTPCFG_PTPEN port) then (let q := s.stamp (s.rdN (ETH_RXLAT port)); (some q.1, q.2)) else (none, s)
  let s := match ptp with
    | some (o, l2) => r.2.syncSeen port f o l2
    | none => r.2
  if !s.prpOn then s.ethDeliver (22 + port) f r.1 event false
  else if isPtp f then s.ethDeliver (22 + port) f r.1 event (port == 1)
  else
    match rctOf f with
    | none => s.ethDeliver 22 f r.1 event (port == 1)
    | some (seq, lan) =>
      let s := if lan ≠ (if port = 0 then 0xA else 0xB) ∧ s.bit (ETH_PRPCFG_WRONGLAN 0) = true then s.count (ETH_WRONGLAN port) else s
      let d := s.prpSee (beAt f 6 6) seq
      if d.2 then d.1.count (ETH_RXDUP port) else d.1.ethDeliver 22 (f.take (f.length - 6)) r.1 event (port == 1)

/-- R104, R118, R506. ETH_RX_FRAME: a frame without its FCS, and whether the FCS was good. In loopback the receiver sees the
own transmitter only. -/
def execEthRxFrame (port : Fin 2) (frame : List Byte) (fcsOk : Bool) (s : State) : Host.Outcome State Fault Refusal :=
  .next (if !s.bit (ETH_CTRL_EN port.val) || s.bit (ETH_CTRL_LOOP port.val) then s
    else if fcsOk then s.ethRx port.val frame else s.count (ETH_CRCERR port.val))

/-! ### Transmit -/

/-- R505. The device writes a transmit slot back. -/
def State.txBack (s : State) (ring : Nat) (d : TxDesc) (status : Nat) (t : Option Nat) : State :=
  let i := s.ringDev ring
  let flags := (if d.stamp then 1 else 0) + (if d.onestep then 2 else 0)
  let mid := match t with
    | some x => leBytes status 1 ++ leBytes (s.stepGen + 16) 1 ++ leBytes 0 2 ++ stampBytes x ++ leBytes 0 2
    | none => leBytes status 1 ++ leBytes 0 1 ++ leBytes 0 17
  let tail := leBytes d.addr.toNat 8 ++ leBytes d.len.toNat 2 ++ leBytes flags 1 ++ leBytes 0 1 ++ mid ++
    [BitVec.ofNat 8 (s.ringPhase ring i * 128)]
  (((s.emit (.writeBack ring i tail)).ringAdvance ring).ringSignal ring)

/-- R105. One-step insertion: originTimestamp of a Sync, the residence correction of a Pdelay_Resp. -/
def oneStep (f : List Byte) (o t : Nat) (d : TxDesc) : List Byte :=
  let corr := beAt f (o + 8) 8
  if byteAt f o % 16 = 0 then
    let f := putAt f (o + 6) [BitVec.ofNat 8 (byteAt f (o + 6) - (if bitOf (byteAt f (o + 6)) 1 then 2 else 0))]
    let f := putAt f (o + 8) (beBytes (corr + stampFrac t * 256) 8)
    putAt f (o + 34) (beBytes (stampSec t) 6 ++ beBytes (stampNs t) 4)
  else
    let t2 := (d.t2sec.toNat * 1000000000 + d.t2ns.toNat) * 256 + d.t2frac.toNat
    putAt f (o + 8) (beBytes (ofSigned 64 (toSigned 64 corr + ((t : Int) - t2) * 256)) 8)

/-- R106, R118. A frame leaves on an enabled port; in PCS loopback it comes back to the port's receiver instead (log
entry 70). -/
def State.ethSend (s : State) (port : Nat) (f : List Byte) : State :=
  if s.bit (ETH_CTRL_EN port) then
    let s := s.count (ETH_TXFRM port)
    if s.bit (ETH_CTRL_LOOP port) then s.ethRx port f else s.emit (.ethFrame port f)
  else s

/-- R105. Transmit stamps pending on a port: those whose write-back is not complete. -/
def State.stampsOf (s : State) (port : Nat) : Nat := tget 0 s.eth.stamps port
def State.setStamps (s : State) (port n : Nat) : State := s.updEth (fun x => { x with stamps := tput 0 x.stamps port n })

/-- R105, R505. A frame of a transmit slot. A frame that is not PTP is sent on ETH1 without a trailer from ring 21, for which
the table of R106 has no row (log entry 59). -/
def State.ethTx (s : State) (port : Nat) (d : TxDesc) (f : List Byte) (returned : Nat) : State :=
  let ring := 20 + port
  let s := s.setStamps port (s.stampsOf port - returned)
  if d.len.toNat < 60 ∨ 1522 < d.len.toNat then s.txBack ring d 2 none
  else
    let f := f.take d.len.toNat
    let ptp := s.ptpAt port f
    match ptp with
    | some (o, l2) =>
      if ptpEvent f o && s.bit (ETH_PTPCFG_PTPEN port) then
        if 64 ≤ s.stampsOf port then ((s.ethSend port f).count (ETH_STAMPLOST port)).txBack ring d 1 none
        else
          let r := s.stamp (s.rdN (ETH_TXLAT port))
          let one := d.onestep && l2 && (byteAt f o % 16 == 0 || byteAt f o % 16 == 3)
          let s := r.2.ethSend port (if one then oneStep f o r.1 d else f)
          (if d.stamp then s.setStamps port (s.stampsOf port + 1) else s).txBack ring d 0 (if d.stamp then some r.1 else none)
      else (s.ethSend port f).txBack ring d 0 none
    | none =>
      if s.prpOn && port == 0 && !isPtp f then
        let seq := s.eth.seq
        let s := s.updEth (fun x => { x with seq := (seq + 1) % 65536 })
        let size := lsduSize f + 6
        (((s.ethSend 0 (f ++ rct seq 0xA size)).ethSend 1 (f ++ rct seq 0xB size)).txBack ring d 0 none)
      else (s.ethSend port f).txBack ring d 0 none

/-- R505. ETH_TX_FRAME: the next slot of ring 20 or 21 with the frame of its buffer; `returned` pending stamps of the port
have been returned to the host since the last frame (R105). -/
def execEthTxFrame (port : Fin 2) (d : TxDesc) (frame : List Byte) (returned : Nat) (s : State) :
    Host.Outcome State Fault Refusal :=
  .next (if s.ringLive (20 + port.val) && !s.ringFull (20 + port.val) && s.bit (ETH_CTRL_EN port.val) then
      s.ethTx port.val d frame returned
    else s)

/-- R107. PRP_ENTRY_EXPIRE: entries unused for FORGET milliseconds are freed. -/
def execPrpEntryExpire (s : State) : Host.Outcome State Fault Refusal :=
  .next s.prpExpire

/-- R118, R119. What the PCS of a port has seen. -/
def State.pcs (s : State) (port : Nat) : PcsSt := tget {} s.eth.pcs port
def State.setPcs (s : State) (port : Nat) (x : PcsSt) : State := s.updEth (fun e => { e with pcs := tput {} e.pcs port x })

/-- R118, R119. ANDONE and LINK follow the PCS: with auto-negotiation, LINK needs it done, and in SGMII 1000 Mb/s. -/
def State.ethLink (s : State) (p : Nat) : State :=
  let x := s.pcs p
  let en := s.bit (ETH_CTRL_EN p)
  let an := s.bit (ETH_CTRL_ANEN p)
  (s.setB (ETH_STATUS_ANDONE p) (en && an && x.anDone)).setB (ETH_STATUS_LINK p)
    (en && x.sync && (!an || (x.anDone && (s.fld (ETH_CTRL_MODE p) != 1 || x.gigabit))))

/-- R119. ETH_LINK_CHANGE: what the PCS of an enabled port sees. -/
def execEthLinkChange (port : Fin 2) (sigdet sync : Bool) (an : Option Bool) (remFlt : Bool) (s : State) :
    Host.Outcome State Fault Refusal :=
  .next (let p := port.val
    let s := (s.setB (ETH_STATUS_SIGDET p) sigdet).setB (ETH_STATUS_REMFLT p) remFlt
    (if s.bit (ETH_CTRL_EN p) then s.setPcs p ⟨sync, an.isSome, an == some true⟩ else s).ethLink p)

/-- R117, R121. A write of ETH_PRPCFG: ETH0 only; a change of PRPEN while a port is enabled is refused, and with it the rest
of the write (log entry 59). A new FORGET holds for the entries at once. -/
def State.prpCfg (s : State) (m : Master) (w : Nat) : State :=
  if bitOf w 0 != s.prpOn && (s.bit (ETH_CTRL_EN 0) || s.bit (ETH_CTRL_EN 1)) then s.refuse m (ETH_PRPCFG 0)
  else (((s.setF (ETH_PRPCFG_FORGET 0) (max 10 (bitsOf w 16 16))).setB (ETH_PRPCFG_WRONGLAN 0) (bitOf w 1)).setB
    (ETH_PRPCFG_PRPEN 0) (bitOf w 0)).prpExpire

/-- R118, R119. A write of ETH_CTRL: a port that is disabled loses its link, and auto-negotiation that is switched on begins
anew. -/
def State.ethCtrl (s : State) (port w : Nat) : State :=
  let x := s.pcs port
  let x : PcsSt := if !bitOf w 0 then {} else if !s.bit (ETH_CTRL_ANEN port) then { x with anDone := false } else x
  let s := (((s.setB (ETH_CTRL_LOOP port) (bitOf w 5)).setF (ETH_CTRL_MODE port) (bitsOf w 2 2)).setB (ETH_CTRL_ANEN port)
    (bitOf w 1)).setB (ETH_CTRL_EN port) (bitOf w 0)
  (s.setPcs port x).ethLink port

end Sys2Proof.Machine
end

