-- ==== Sys2Proof/Machine/Lanes.lean ====
section
/-!
DEFINITION. The serial lanes: PLLs (R264), lane states (R268), training (R269–R274), test patterns (R278, R279) and eye
scans (R280, R448).
-/

namespace Sys2Proof.Machine

/-- R268. The states of a lane. -/
def lnOff : Nat := 0
def lnWait : Nat := 1
def lnAlign : Nat := 2
def lnTrain : Nat := 3
def lnLink : Nat := 4
def lnBackoff : Nat := 5
def lnDown : Nat := 6
def lnPrbs : Nat := 7

/-- A number as a lane index. -/
def laneIx (n : Nat) : Fin 26 := ⟨n % 26, Nat.mod_lt _ (by decide)⟩

/-- An event of LNK_EVT: sources 0x75–0x7A. -/
def State.evtLnk (s : State) (f : Fld) (l : Nat) : State := s.evt f 0x74 l

/-- R268. STATE of a lane. -/
def State.laneState (s : State) (l : Nat) : Nat := s.fld (LNK_STATUS_STATE l)

/-- A lane changes its state; LANES_OK and healing follow. -/
def State.setLane (s : State) (l st : Nat) : State := (s.setF (LNK_STATUS_STATE l) st).celStatus.healCheck

/-! ### PLLs (R45, R264) -/

/-- R264. The PLL of a lane, and the lanes of a PLL. -/
def pllOf (l : Nat) : Nat := min 3 (l / 8)
def pllLanes (p : Nat) : List Nat := (upto 26).filter (fun l => pllOf l == p)

/-- R264. A PLL runs while a lane or port that it serves is enabled. -/
def State.pllRuns (s : State) (p : Nat) : Bool :=
  (pllLanes p).any (fun l => s.bit (LNK_CTRL_EN l)) || (p == 3 && (s.bit (ETH_CTRL_EN 0) || s.bit (ETH_CTRL_EN 1)))

/-- R45. A PLL's lock is shown in PLLOK of its lanes, and LANEPLL while every PLL that runs is locked. -/
def State.setPll (s : State) (p : Nat) (b : Bool) : State :=
  let s := s.updLnk (fun k => { k with pll := if b then k.pll ||| BitVec.twoPow 4 p else k.pll &&& ~~~ BitVec.twoPow 4 p })
  let s := forL (pllLanes p) (fun l t => t.setB (LNK_STATUS_PLLOK l) b) s
  let runs := (upto 4).filter s.pllRuns
  s.setB GLB_CLKSTAT_LANEPLL (!runs.isEmpty && runs.all (fun q => s.lnk.pll.getLsbD q))

/-- R264. A PLL that serves nothing stops. -/
def State.pllCheck (s : State) (p : Nat) : State := s.setPll p (s.pllRuns p && s.lnk.pll.getLsbD p)

/-! ### Starting, failing and leaving (R268) -/

/-- Which scheduled steps belong to the bring-up of a lane. -/
def isTraining (l : Nat) : Instr → Bool
  | .laneTrainTimeout k => k.val == l
  | .laneBackoffEnd k => k.val == l
  | .laneLinkUp k => k.val == l
  | .trainTuneEval k => k.val == l
  | .trainTuneRestart k => k.val == l
  | _ => false

/-- R280. A scan that runs when the lane leaves LINK stops with ABORT. -/
def State.eyeAbort (s : State) (l : Nat) : State :=
  if s.bit (LNK_EYECTL_BUSY l) then
    let s := (s.setB (LNK_EYECTL_BUSY l) false).setB (LNK_EYECTL_ABORT l) true
    if s.age.eyeLane = some l then (s.updAge (fun a => { a with eyeLane := none })).setB AGE_STATUS_EYEBUSY false else s
  else s

/-- What ends when a lane leaves its state: timers, the eye scan, its queue (R275), its TRAIN frames, and what the receivers showed
of each other. -/
def State.laneLeave (s : State) (l : Nat) : State :=
  let s := ((s.unsched (isTraining l)).eyeAbort l).txFlush l
  ((s.setB (LNK_STATUS_RXREADY l) false).setB (LNK_STATUS_FARREADY l) false).updLane l (fun t =>
    { t with phase := 0, farReady := 0, training := false, readyCnt := 0 })

/-- R275. A receiver that stops in LINK discards and counts the frame that is partly received. Whether there is one is a free value. -/
def State.rxCut (s : State) (l : Nat) : State :=
  if s.laneLink l then
    let r := s.free 2
    r.2.countN (LNK_RXDROP l) r.1
  else s

/-- R271, R284. The taps that TRAIN frames start from: the preset, or with STARTLAST the last trained ones. -/
def State.startTaps (s : State) (l : Nat) : State :=
  if s.bit (LNK_CTRL_STARTLAST l) then
    (s.setF (LNK_STATUS_PRE l) (s.fld (LNK_TRLAST_PRE l))).setF (LNK_STATUS_POST l) (s.fld (LNK_TRLAST_POST l))
  else (s.setF (LNK_STATUS_PRE l) (s.fld (LNK_TXFFE_PRE l))).setF (LNK_STATUS_POST l) (s.fld (LNK_TXFFE_POST l))

/-- R264, R268. The signal and the recovered clock of a lane in WAIT, with its PLL locked, take it to ALIGN. -/
def State.laneLocked (s : State) (l : Nat) : State :=
  if s.laneState l = lnWait ∧ s.bit (LNK_STATUS_SIGDET l) ∧ s.bit (LNK_STATUS_CDRLOCK l) ∧ s.bit (LNK_STATUS_PLLOK l) then
    s.setLane l lnAlign
  else s

/-- R268, R270, R281. A blind start: WAIT, TRAIN frames from the first taps once the PLL is locked, TRTMO started. The receiver state of
the lane starts afresh. The seed of the first frame, which may be any, is a free value. -/
def State.blindStart (s : State) (l : Nat) : State :=
  let r := s.free (2 ^ 31 - 1)
  let s := ((r.2.laneLeave l).startTaps l).updLane l (fun _ => { since := s.tick, seed := r.1 + 1, training := s.bit (LNK_STATUS_PLLOK l) })
  let s := (s.setLane l lnWait).sched (us (s.fld (LNK_TRCFG_TRTMO l))) (.laneTrainTimeout (laneIx l))
  s.laneLocked l

/-- R268. A bring-up fails: BACKOFF with the transmitter in electrical idle. -/
def State.laneBackoff (s : State) (l : Nat) : State :=
  let s := ((s.laneLeave l).count (LNK_TRFAIL l)).setLane l lnBackoff
  (s.sched (ms (s.fld (LNK_TRCFG_RETRYDLY l))) (.laneBackoffEnd (laneIx l))).evtLnk (LNK_EVT_TRFAIL l) l

/-- R268. EN is set: blind start. -/
def State.laneEnable (s : State) (l : Nat) : State :=
  if s.bit (LNK_CTRL_EN l) then s
  else ((s.setB (LNK_CTRL_EN l) true).pllCheck (pllOf l)).blindStart l

/-- R279. Adds to a 48-bit pair that saturates. DEDUCED (log entry 17): SAT is set when a count would exceed the maximum. -/
def State.count48 (s : State) (lo hi n : Nat) : State :=
  let v := s.rdN lo + bitsOf (s.rdN hi) 0 16 * 2 ^ 32 + n
  if 2 ^ 48 ≤ v then (s.wrN lo 0xFFFFFFFF).wrN hi (2 ^ 31 + 0xFFFF)
  else (s.wrN lo v).wrN hi (bitsOf (s.rdN hi) 31 1 * 2 ^ 31 + v / 2 ^ 32)

/-- R263. Bits in `t` ticks at the rate of a lane. -/
def State.laneBits (s : State) (l t : Nat) : Nat := t * 5 * 2 ^ min 2 (s.fld (LNK_CTRL_RATE l)) / 2

/-- R279. The bits checked since the last count. -/
def State.prbsFold (s : State) (l : Nat) : State :=
  if s.bit (LNK_PRBS_LOCK l) then
    (s.count48 (LNK_PRBSBIT_LO l) (LNK_PRBSBIT_HI l) (s.laneBits l (s.tick - (s.lane l).bitsFrom))).updLane l
      (fun t => { t with bitsFrom := s.tick })
  else s

/-- R279. The checker is no longer locked. -/
def State.prbsUnlock (s : State) (l : Nat) : State := (s.prbsFold l).setB (LNK_PRBS_LOCK l) false

/-- R275. EN is cleared: OFF; a PLL that serves no other lane or port stops. -/
def State.laneDisable (s : State) (l : Nat) : State :=
  if s.bit (LNK_CTRL_EN l) then
    let s := (((s.rxCut l).prbsUnlock l).laneLeave l).setB (LNK_CTRL_EN l) false
    let s := ((s.setB (LNK_STATUS_SIGDET l) false).setB (LNK_STATUS_CDRLOCK l) false).setB (LNK_STATUS_ALIGNED l) false
    ((s.updLane l (fun _ => {})).setLane l lnOff).pllCheck (pllOf l)
  else s

/-- R268, R273. A lane in LINK trains again from its current taps, its receiver in START; TRTMO runs anew. -/
def State.retrain (s : State) (l : Nat) : State :=
  let s := (s.laneLeave l).updLane l (fun t => { since := s.tick, seed := t.seed, training := true, txFree := t.txFree })
  (s.setLane l lnTrain).sched (us (s.fld (LNK_TRCFG_TRTMO l))) (.laneTrainTimeout (laneIx l))

/-- R268. RETRAIN is written. -/
def State.laneRetrain (s : State) (l : Nat) : State :=
  if s.laneState l = lnLink then s.retrain l
  else if s.laneState l = lnDown then s.blindStart l
  else s

/-- R263, R268. A write of LNK_CTRL: one that changes RATE while EN is 1 is ignored. -/
def State.lnkCtrl (s : State) (l w : Nat) : State :=
  let rate := min 2 (bitsOf w 8 2)
  if s.bit (LNK_CTRL_EN l) && rate != s.fld (LNK_CTRL_RATE l) then s.evtLnk (LNK_EVT_CFGREF l) l
  else
    let s := (s.setF (LNK_CTRL_RATE l) rate).wrN (LNK_CTRL l) (bitsOf w 3 4 * 8 + bitsOf w 1 1 * 2 + rate * 256 + bitsOf (s.rdN (LNK_CTRL l)) 0 1)
    let s := if bitOf w 0 then s.laneEnable l else s.laneDisable l
    if bitOf w 2 then s.laneRetrain l else s

/-! ### Signal and PLL events (R264–R268) -/

/-- R268. Signal detected and clock recovery locked. -/
def State.signalLock (s : State) (l : Nat) : State :=
  if s.bit (LNK_CTRL_EN l) && s.bit (LNK_STATUS_PLLOK l) then
    ((s.setB (LNK_STATUS_SIGDET l) true).setB (LNK_STATUS_CDRLOCK l) true).laneLocked l
  else s

/-- R266, R268. Three commas at one position: alignment, and from ALIGN on CTLE adaptation in TRAIN, also where the receiver has held
its alignment. Inverted commas only show in POLINV. -/
def State.laneAligned (s : State) (l : Nat) (inverted : Bool) : State :=
  if s.bit (LNK_CTRL_EN l) && s.bit (LNK_STATUS_CDRLOCK l) && (!s.bit (LNK_STATUS_ALIGNED l) || s.laneState l == lnAlign) then
    let s := s.setB (LNK_STATUS_POLINV l) inverted
    if inverted then s
    else
      let s := s.setB (LNK_STATUS_ALIGNED l) true
      if s.laneState l = lnAlign then (s.updLane l (fun t => { t with phase := 1, ctleFrom := s.tick })).setLane l lnTrain
      else s
  else s

/-- R268. A lane leaves LINK through a loss. -/
def State.linkLoss (s : State) (l : Nat) : State :=
  let s := (s.count (LNK_LINKDOWN l)).evtLnk (LNK_EVT_LINKDOWN l) l
  if s.bit (LNK_CTRL_AUTORT l) then s.blindStart l else (s.laneLeave l).setLane l lnDown

/-- R266, R268. Signal or clock recovery is lost, or characters of the last 16 are no valid code groups: in LINK these are
counted, and four of them are a loss of sync. -/
def State.laneLoss (s : State) (l : Nat) (signal clock : Bool) (codes : Nat) : State :=
  let st := s.laneState l
  let link := st == lnLink
  let s := if link then s.countN (LNK_CODEERR l) codes else s
  let sync := link && decide (4 ≤ codes)
  let s := if signal then s.setB (LNK_STATUS_SIGDET l) false else s
  let s := if signal || clock then s.setB (LNK_STATUS_CDRLOCK l) false else s
  let s := if signal || clock || sync then s.setB (LNK_STATUS_ALIGNED l) false else s
  if link then (if signal || clock || sync then s.linkLoss l else s)
  else if (signal || clock) && (st == lnAlign || st == lnTrain) then
    let s := s.unsched (fun c => isTraining l c && c != .laneTrainTimeout (laneIx l))
    let s := (s.setB (LNK_STATUS_RXREADY l) false).setB (LNK_STATUS_FARREADY l) false
    (s.updLane l (fun t => { t with phase := 0, farReady := 0, readyCnt := 0, errs := [] })).setLane l lnWait
  else s

/-- R264, R275. A lane whose PLL loses lock: WAIT, with the transmitter in electrical idle and no timer. -/
def State.lanePllLost (s : State) (l : Nat) : State :=
  if s.laneState l = lnOff then s
  else
    let s := ((((s.rxCut l).prbsUnlock l).laneLeave l).setB (LNK_STATUS_CDRLOCK l) false).setB (LNK_STATUS_ALIGNED l) false
    ((s.updLane l (fun _ => { pllLost := true })).setLane l lnWait).evtLnk (LNK_EVT_PLLLOSS l) l

/-- R45, R264. A lane PLL loses lock. -/
def State.pllLoss (s : State) (p : Nat) : State :=
  if s.pllRuns p && s.lnk.pll.getLsbD p then
    let s := (s.setPll p false).setB GLB_CLKSTAT_LANELOSS true
    let s := forL (pllLanes p) (fun l t => t.lanePllLost l) s
    if p = 3 then (s.setB (ETH_STATUS_LINK 0) false).setB (ETH_STATUS_LINK 1) false else s
  else s

/-- R264, R281. The PLL of a lane locks: a lane that lost it starts over, one that waits for it sends TRAIN frames from now on. -/
def State.laneClocked (s : State) (l : Nat) : State :=
  if (s.lane l).pllLost then s.blindStart l
  else if s.laneState l = lnWait then (s.updLane l (fun t => { t with training := true, txFree := s.tick })).laneLocked l
  else s

/-- R264. A lane PLL locks. -/
def State.pllLock (s : State) (p : Nat) : State :=
  if s.pllRuns p && !s.lnk.pll.getLsbD p then
    forL ((pllLanes p).filter (fun l => s.bit (LNK_CTRL_EN l))) (fun l t => t.laneClocked l) (s.setPll p true)
  else s

/-- R281. Every lane restarts from OFF; one whose EN is 1 enters WAIT at once. -/
def State.lanesRestart (s : State) : State :=
  forN 26 (fun l t => if t.bit (LNK_CTRL_EN l) then (t.laneDisable l).laneEnable l else t) s

/-! ### Training (R269–R274) -/

/-- R270. The request fields of a lane's frames: PRE, POST, PRESET. -/
def LaneSt.req (t : LaneSt) : Nat × Nat × Bool :=
  let d := if t.inc = t.undo then 2 else 1
  if t.stage = .asked then (if t.pre then (d, 0, false) else (0, d, false)) else (0, 0, t.stage = .preset)

/-- R270. Bytes 0–7 of the TRAIN frames that a lane sends now. -/
def State.trainHead (s : State) (l : Nat) : List Byte :=
  let t := s.lane l
  let r := t.req
  leBytes t.phase 1 ++ leBytes (r.1 + r.2.1 * 4 + if r.2.2 then 16 else 0) 1 ++
    leBytes (t.rspPre + t.rspPost * 4 + if t.rspPreset then 16 else 0) 1 ++ leBytes (s.fld (LNK_STATUS_PRE l)) 1 ++
    leBytes (s.fld (LNK_STATUS_POST l)) 1 ++ leBytes (s.fld (LNK_CTRL_RATE l)) 1 ++ leBytes (min 255 t.errs.sum) 1 ++ leBytes t.eye 1

/-- R272. Fewer errors, then a larger eye. -/
def betterMetric (a b : Nat × Nat) : Bool := decide (a.1 < b.1) || (a.1 == b.1 && decide (b.2 < a.2))

/-- R272. The tuning of a tap begins, or after the pre-cursor the procedure is complete. -/
def LaneSt.nextTap (t : LaneSt) : LaneSt :=
  if t.pre then { t with stage := .settle, undo := false, good := 0 }
  else { t with stage := .want, pre := true, inc := false, first := true, undo := false }

/-- R272. A step has been undone: after the first DEC step the direction turns, else the tap is done. -/
def LaneSt.undone (t : LaneSt) : LaneSt :=
  if !t.inc && t.first then { t with stage := .want, undo := false, inc := true } else t.nextTap

/-- R270, R272. The evaluation of 16 frames: RXERR, which saturates at 255, and the eye. -/
def LaneSt.evaluate (t : LaneSt) : LaneSt :=
  let m := (min 255 t.sum, t.eye)
  if t.base then { t with base := false, best := m, stage := .want, pre := false, inc := false, first := true, undo := false }
  else if t.undo then t.undone
  else if betterMetric m t.best then { t with best := m, first := t.first && t.inc, stage := .want }
  else { t with stage := .want, undo := true }

/-- R272. The receiver's procedure at a frame with `errs` bit errors, eye height `eye` and the far end's RSP. -/
def LaneSt.frame (t : LaneSt) (errs eye rsp mineye : Nat) : LaneSt :=
  let t := { t with errs := (errs :: t.errs).take 16, eye }
  let st := if t.pre then bitsOf rsp 0 2 else bitsOf rsp 2 2
  if t.phase ≠ 2 then t
  else
    match t.stage with
    | .want => if st = 0 then { t with stage := .asked } else t
    | .asked =>
      if st = 1 then { t with stage := .eval, skip := 1, cnt := 0, sum := 0, frames := 0 }
      else if st = 2 then (if t.undo then t.undone else t.nextTap)
      else t
    | .preset =>
      if bitOf rsp 4 then { t with stage := .eval, base := true, skip := 1, cnt := 0, sum := 0, frames := 0 } else t
    | .eval =>
      if 0 < t.skip then { t with skip := t.skip - 1, frames := t.frames + 1 }
      else { t with cnt := t.cnt + 1, sum := t.sum + errs, frames := t.frames + 1 }
    | .settle => { t with good := if errs = 0 ∧ mineye ≤ eye then t.good + 1 else 0, frames := t.frames + 1 }

/-- R271. The far end's REQ at a frame: a change from HOLD is to be applied; a return to HOLD clears its status. -/
def LaneSt.request (t : LaneSt) (req : Nat) : LaneSt :=
  let p := bitsOf req 0 2
  let q := bitsOf req 2 2
  let x := bitOf req 4
  let act (old new cur : Nat) : Nat := if old = 0 ∧ (new = 1 ∨ new = 2) then new else cur
  { t with
    doPre := act t.gotPre p t.doPre, doPost := act t.gotPost q t.doPost, doPreset := t.doPreset || (x && !t.gotPreset)
    rspPre := if p = 0 then 0 else t.rspPre, rspPost := if q = 0 then 0 else t.rspPost, rspPreset := t.rspPreset && x
    gotPre := p, gotPost := q, gotPreset := x }

/-- R273. The condition of LINK: the own receiver READY, eight READY frames received in a row, eight sent in a row. One that is still
being sent does not count. -/
def State.linkReady (s : State) (l : Nat) : Bool :=
  let t := s.lane l
  t.phase == 3 && decide (8 ≤ t.farReady) && decide (8 ≤ t.readyCnt - (if s.tick < t.txFree then 1 else 0))

/-- R273. LINK follows once its condition holds: now, or when the eighth READY frame has been sent. -/
def State.linkCheck (s : State) (l : Nat) : State :=
  let t := s.lane l
  let up : Instr := .laneLinkUp (laneIx l)
  if s.linkReady l then (s.unsched (· == up)).sched 0 up
  else if t.phase = 3 ∧ 8 ≤ t.farReady ∧ t.readyCnt = 8 then (s.unsched (· == up)).schedAt t.txFree up
  else s

/-! ### Sending TRAIN frames (R269, R270) -/

/-- R270. PRBS31: the state after a bit. DESIGN CHOICE (log entry 71): the bit sent is bit 30 of the state, the new bit 0 is the sum of
bits 30 and 27. -/
def prbsStep (st : Nat) : Nat := (st * 2 + (st / 2 ^ 30 + st / 2 ^ 27) % 2) % 2 ^ 31

/-- R270. Eight bits of PRBS31, bit k of the byte being the k-th, and the state after them. -/
def prbsByte (st : Nat) : Nat × Nat := (upto 8).foldl (fun a k => (a.1 + a.2 / 2 ^ 30 % 2 * 2 ^ k, prbsStep a.2)) (0, st)

/-- R270. `n` bytes of PRBS31, and the state after them. -/
def prbsBytes : Nat → Nat → List Byte × Nat
  | 0, st => ([], st)
  | n + 1, st =>
    let b := prbsByte st
    let r := prbsBytes n b.2
    (BitVec.ofNat 8 b.1 :: r.1, r.2)

/-- The bits in which two bytes differ. -/
def bitErrors (a b : Byte) : Nat := (upto 8).foldl (fun n k => n + (if a.getLsbD k == b.getLsbD k then 0 else 1)) 0

/-- R270. The bit errors of a TRAIN payload: bytes 16–271 against the sequence of SEED. -/
def trainErrors (p : List Byte) : Nat :=
  ((p.drop 16).zip (prbsBytes 256 (fieldAt p 8 4 % 2 ^ 31)).1).foldl (fun n e => n + bitErrors e.1 e.2) 0

/-- The stream of a lane's TRAIN frames. -/
def stTrain (l : Nat) : Nat := 9216 + l

/-- R269, R270. A lane sends its next TRAIN frame. -/
def State.trainSend (s : State) (l : Nat) : State :=
  let t := s.lane l
  let p := prbsBytes 256 t.seed
  let q := s.nextSeq (stTrain l)
  let b := Frame.bytes ⟨ftTrain, 2, 0xFE, addrUnit, s.unitFlag, q.1, s.trainHead l ++ leBytes t.seed 4 ++ leBytes 0 4 ++ p.1⟩
  let s := q.2.updLane l (fun t => { t with
    seed := p.2, txFree := s.tick + s.frameTicks l b.length, readyCnt := if t.phase = 3 then t.readyCnt + 1 else 0 })
  (s.emit (.frame l b)).linkCheck l

/-- R213, R269. A lane whose transmitter is free: the next TRAIN frame, unless LINK follows at this tick; else the next frame of its
queue. -/
def State.laneTx (s : State) (l : Nat) : State :=
  if (s.lane l).training then (if s.linkReady l then s else s.trainSend l) else s.txGo l

/-- R213, R269, R411. What the lanes send at this tick. -/
def State.txPass (s : State) : State :=
  (forL (s.lnk.lanes.filter (fun e => (e.2.training || !e.2.queue.isEmpty) && decide (e.2.txFree ≤ s.tick))) (fun e t => t.laneTx e.1) s).snapEnd

/-! ### Receiving TRAIN frames (R270–R273) -/

/-- R272. What the procedure calls for after a frame. -/
def State.tuneCheck (s : State) (l : Nat) : State :=
  let t := s.lane l
  if t.phase ≠ 2 then s
  else if (t.stage = .eval ∧ 16 ≤ t.cnt) ∨ (t.stage = .settle ∧ 64 ≤ t.good) then s.sched 0 (.trainTuneEval (laneIx l))
  else if t.stage = .settle ∧ 512 ≤ t.frames then s.sched 0 (.trainTuneRestart (laneIx l))
  else s

/-- R270–R273. A TRAIN frame, or one whose CRC fails (2,048 errors), in WAIT, ALIGN or TRAIN; CTLE adaptation begins in TRAIN. -/
def State.trainTake (s : State) (l : Nat) (p : Option (List Byte)) (eye : Nat) : State :=
  let mineye := s.fld (LNK_TRCFG_MINEYE l)
  let s := if (s.lane l).phase = 0 ∧ s.laneState l = lnTrain then s.updLane l (fun t => { t with phase := 1, ctleFrom := s.tick }) else s
  match p with
  | none => ((s.updLane l (fun t => { t.frame 2048 eye 0 mineye with farReady := 0 })).setB (LNK_STATUS_FARREADY l) false).tuneCheck l
  | some p =>
    if fieldAt p 5 1 ≠ s.fld (LNK_CTRL_RATE l) then s.laneBackoff l
    else
      let ready := bitsOf (fieldAt p 0 1) 0 2 == 3
      let s := s.updLane l (fun t =>
        { (t.request (fieldAt p 1 1)).frame (trainErrors p) eye (fieldAt p 2 1) mineye with farReady := if ready then t.farReady + 1 else 0 })
      ((s.setB (LNK_STATUS_FARREADY l) ready).tuneCheck l).linkCheck l

/-- R268, R269. A TRAIN frame arrives: `eye` is the eye height that the receiver measures. In LINK only STATE = 0 counts: the lane
trains again. A bad length is a violation (R217). -/
def State.trainFrame (s : State) (l : Nat) (f : List Byte) (eye : Nat) : State :=
  let bad (t : State) : State := if l < 24 then t.violation l 0x03 (f.take 8) else t.count RDN_SHERR
  let take := decide (lnWait ≤ s.laneState l) && decide (s.laneState l ≤ lnTrain)
  if take || s.laneState l == lnLink then
    match parseFrame 1024 f with
    | .inr c => if take then (if c = 0x03 then bad s else s.trainTake l none eye) else s
    | .inl fr =>
      if fr.ty ≠ ftTrain then s
      else if fr.payload.length ≠ 272 then bad s
      else if take then s.trainTake l (some fr.payload) eye
      else if bitsOf (fieldAt fr.payload 0 1) 0 2 = 0 then (s.retrain l).evtLnk (LNK_EVT_TRAININ l) l
      else s
  else s

/-- R271. A tap of `n` of at most `m` steps moves: 1 INC, towards 0; 2 DEC, away from 0. The second component is RSP. -/
def tapMove (n m d : Nat) : Nat × Nat :=
  if d = 1 then (if n = 0 then (0, 2) else (n - 1, 1)) else if n < m then (n + 1, 1) else (n, 2)

/-- R271. The requested changes are applied, while TRAIN frames are sent. -/
def State.tapUpdate (s : State) (l : Nat) : State :=
  if lnWait ≤ s.laneState l ∧ s.laneState l ≤ lnTrain then
    let t := s.lane l
    let s := if t.doPreset then ((s.setF (LNK_STATUS_PRE l) (s.fld (LNK_TXFFE_PRE l))).setF (LNK_STATUS_POST l) (s.fld (LNK_TXFFE_POST l))).updLane l
        (fun x => { x with doPreset := false, rspPreset := x.gotPreset })
      else s
    let s := if t.doPre = 0 then s
      else
        let r := tapMove (s.fld (LNK_STATUS_PRE l)) 6 t.doPre
        (s.setF (LNK_STATUS_PRE l) r.1).updLane l (fun x => { x with doPre := 0, rspPre := if x.gotPre = 0 then 0 else r.2 })
    if t.doPost = 0 then s
    else
      let r := tapMove (s.fld (LNK_STATUS_POST l)) 12 t.doPost
      (s.setF (LNK_STATUS_POST l) r.1).updLane l (fun x => { x with doPost := 0, rspPost := if x.gotPost = 0 then 0 else r.2 })
  else s

/-- R272. CTLE adaptation ends after 100 µs: TUNE, with the metric of the last 16 frames as the first. -/
def State.ctleDone (s : State) (l boost : Nat) : State :=
  if s.laneState l = lnTrain ∧ (s.lane l).phase = 1 ∧ (s.lane l).ctleFrom + us 100 ≤ s.tick then
    (s.setF (LNK_STATUS_CTLE l) boost).updLane l (fun t =>
      { t with phase := 2, best := (min 255 t.errs.sum, t.eye), stage := .want, pre := false, inc := false, first := true
               undo := false, base := false, frames := 0 })
  else s

/-- R272. The evaluated frames decide the next request, or READY. -/
def State.tuneEval (s : State) (l : Nat) : State :=
  let t := s.lane l
  if s.laneState l = lnTrain ∧ t.phase = 2 then
    if t.stage = .settle ∧ 64 ≤ t.good then
      ((s.updLane l (fun x => { x with phase := 3, readyCnt := 0 })).setB (LNK_STATUS_RXREADY l) true).linkCheck l
    else if t.stage = .eval ∧ 16 ≤ t.cnt then s.updLane l LaneSt.evaluate
    else s
  else s

/-- R272. READY was not reached within 512 frames of the last step: tuning restarts from the preset. -/
def State.tuneRestart (s : State) (l : Nat) : State :=
  if s.laneState l = lnTrain ∧ (s.lane l).phase = 2 ∧ (s.lane l).stage = .settle ∧ 512 ≤ (s.lane l).frames then
    s.updLane l (fun t => { t with stage := .preset })
  else s

/-- R273, R274, R284. A lane enters LINK: LNK_TRLAST, and the next delay exchange with every node of its chain. -/
def State.laneLinkUp (s : State) (l : Nat) : State :=
  let t := s.lane l
  if s.laneState l = lnTrain ∧ s.linkReady l = true then
    let s := s.unsched (isTraining l)
    let s := (s.setF (LNK_TRLAST_TIME l) (min 4095 ((s.tick - t.since) / 5000))).setF (LNK_TRLAST_CTLE l) (s.fld (LNK_STATUS_CTLE l))
    let s := (s.setF (LNK_TRLAST_POST l) (s.fld (LNK_STATUS_POST l))).setF (LNK_TRLAST_PRE l) (s.fld (LNK_STATUS_PRE l))
    let s := if l < 24 ∧ s.bit GLB_STATUS_CTRL_RUN then
        forL (((upto 8).map (fun k => 8 * l + k)).filter s.nodeKnown) (fun id t => t.updDly id (fun d => { d with want := true })) s
      else s
    (s.updLane l (fun x => { x with trackAt := s.tick, training := false })).setLane l lnLink
  else s

/-! ### Test patterns (R278, R279) -/

/-- R278. Whether LNK_PRBS.EN is accepted. -/
def State.prbsOk (s : State) (l : Nat) : Bool := if l < 24 then !s.bit (CEL_CHCFG_EN l) else s.fld RDN_STATUS_STATE == 0

/-- R268, R278. LNK_PRBS.EN is set. -/
def State.prbsEnable (s : State) (l : Nat) : State :=
  if s.bit (LNK_PRBS_EN l) then s
  else if s.prbsOk l then
    let s := s.setB (LNK_PRBS_EN l) true
    let st := s.laneState l
    if (lnWait ≤ st ∧ st ≤ lnLink) ∨ st = lnDown then (s.laneLeave l).setLane l lnPrbs else s
  else s.evtLnk (LNK_EVT_CFGREF l) l

/-- R268. LNK_PRBS.EN is cleared. -/
def State.prbsDisable (s : State) (l : Nat) : State :=
  let s := s.setB (LNK_PRBS_EN l) false
  if s.laneState l = lnPrbs then (s.prbsUnlock l).blindStart l else s

/-- R279. ERRINJ inverts one bit of the pattern that the lane sends. -/
def State.prbsErrinj (s : State) (l : Nat) : State :=
  if s.laneState l = lnPrbs ∧ s.bit (LNK_PRBS_TXEN l) then s.emit (.bitInverted l) else s

/-- R278, R279. A write of LNK_PRBS: refused whole where EN is not accepted. -/
def State.lnkPrbs (s : State) (l w : Nat) : State :=
  if bitOf w 0 && !s.bit (LNK_PRBS_EN l) && !s.prbsOk l then s.evtLnk (LNK_EVT_CFGREF l) l
  else
    let keep := bitOf w 4 && bitsOf w 5 2 == s.fld (LNK_PRBS_RXPAT l)
    let s := if keep then s else s.prbsUnlock l
    let s := (((s.setF (LNK_PRBS_RXPAT l) (bitsOf w 5 2)).setB (LNK_PRBS_RXEN l) (bitOf w 4)).setF (LNK_PRBS_TXPAT l) (bitsOf w 2 2)).setB
      (LNK_PRBS_TXEN l) (bitOf w 1)
    let s := if bitOf w 0 then s.prbsEnable l else s.prbsDisable l
    if bitOf w 8 then s.prbsErrinj l else s

/-- R278, R279. The checker locks, in PRBS. -/
def State.prbsLock (s : State) (l : Nat) : State :=
  if s.laneState l == lnPrbs && s.bit (LNK_PRBS_RXEN l) && !s.bit (LNK_PRBS_LOCK l) then
    (s.setB (LNK_PRBS_LOCK l) true).updLane l (fun t => { t with bitsFrom := s.tick })
  else s

/-- R279. The checker finds errors in 64 bits: counted, and 32 of them lose its lock. -/
def State.prbsErrors (s : State) (l n : Nat) : State :=
  if s.bit (LNK_PRBS_LOCK l) then
    let s := (s.prbsFold l).count48 (LNK_PRBSERR_LO l) (LNK_PRBSERR_HI l) n
    if 32 ≤ n then (s.setB (LNK_PRBS_LOCK l) false).evtLnk (LNK_EVT_PRBSLOSS l) l else s
  else s

/-! ### Eye scans (R280, R448) -/

/-- R280. Ticks that a scan takes: 128 × 2^DWELL bit times. -/
def State.eyeTicks (s : State) (l : Nat) : Nat := 256 * 2 ^ s.fld (LNK_EYECTL_DWELL l) / (5 * 2 ^ min 2 (s.fld (LNK_CTRL_RATE l)))

/-- R280. A scan starts on a lane in LINK that is not BUSY. -/
def State.eyeStart (s : State) (l : Nat) : State :=
  if s.laneLink l && !s.bit (LNK_EYECTL_BUSY l) then
    let e := s.tick + s.eyeTicks l
    (((s.setB (LNK_EYECTL_BUSY l) true).setB (LNK_EYECTL_ABORT l) false).updLane l (fun t => { t with eyeEnd := e }))
  else s

/-- R448. A scan that AGE started ends: the check of HEIGHT, the preset taps and a record. -/
def State.ageEye (s : State) (l height : Nat) : State :=
  let s := (s.updAge (fun a => { a with eyeLane := none })).setB AGE_STATUS_EYEBUSY false
  let s := if height < s.fld AGE_EYECFG_MINH then s.evtAge AGE_EVT_LANEMARG l else s
  let s := if s.bit AGE_EYECFG_PRESET then
      (s.setF (LNK_TXFFE_POST l) (s.fld (LNK_TRLAST_POST l))).setF (LNK_TXFFE_PRE l) (s.fld (LNK_TRLAST_PRE l))
    else s
  s.ageRecord 3 l (s.rdN (LNK_EYE l) % 65536) (s.rdN (LNK_TRLAST l) % 65536)

/-- R280. A scan completes: the widest spans of points without an error, as the samplers found them. -/
def State.eyeDone (s : State) (l height width : Nat) : State :=
  if s.bit (LNK_EYECTL_BUSY l) && decide ((s.lane l).eyeEnd ≤ s.tick) then
    let s := ((s.setB (LNK_EYECTL_BUSY l) false).setF (LNK_EYE_HEIGHT l) height).setF (LNK_EYE_WIDTH l) width
    if s.age.eyeLane = some l then s.ageEye l height else s
  else s

/-- R448. Every PER seconds AGE scans the next lane that is in LINK and not BUSY. -/
def State.ageEyePeriod (s : State) : State :=
  let s := s.timer (max 1 (s.fld AGE_EYECFG_PER) * 500000000) .ageEyeScanPeriod
  if s.bit AGE_CTRL_EYEEN then
    let next := s.fld AGE_STATUS_EYELANE
    match ((upto 26).map (fun k => (next + k) % 26)).find? (fun l => s.laneLink l && !s.bit (LNK_EYECTL_BUSY l)) with
    | none => s
    | some l =>
      (((s.eyeStart l).updAge (fun a => { a with eyeLane := some l })).setF AGE_STATUS_EYELANE ((l + 1) % 26)).setB AGE_STATUS_EYEBUSY true
  else s

/-- R274. A step of the CTLE in LINK with TRACK = 1, at most one per millisecond. -/
def State.ctleTrack (s : State) (l : Nat) (up : Bool) : State :=
  let c := s.fld (LNK_STATUS_CTLE l)
  if s.laneLink l && s.bit (LNK_CTRL_TRACK l) && decide ((s.lane l).trackAt + ms 1 ≤ s.tick) then
    (s.setF (LNK_STATUS_CTLE l) (if up then min 15 (c + 1) else c - 1)).updLane l (fun t => { t with trackAt := s.tick })
  else s

/-! ### Commands -/

/-- R264, R268. LANE_ENABLE. -/
def execLaneEnable (m : Master) (lane : Fin 26) (s : State) : Host.Outcome State Fault Refusal :=
  .next (s.gate m (fun s => s.startGate m (LNK_CTRL lane.val) (fun s => s.laneEnable lane.val)))

/-- R268, R275. LANE_DISABLE. -/
def execLaneDisable (m : Master) (lane : Fin 26) (s : State) : Host.Outcome State Fault Refusal :=
  .next (s.gate m (fun s => s.laneDisable lane.val))

/-- R268. LANE_SIGNAL_LOCK. -/
def execLaneSignalLock (lane : Fin 26) (s : State) : Host.Outcome State Fault Refusal := .next (s.signalLock lane.val)

/-- R266. LANE_ALIGNED. -/
def execLaneAligned (lane : Fin 26) (inverted : Bool) (s : State) : Host.Outcome State Fault Refusal :=
  .next (s.laneAligned lane.val inverted)

/-- R271. TRAIN_FRAME_RX. -/
def execTrainFrameRx (lane : Fin 26) (head body : List Byte) (eye : Byte) (s : State) : Host.Outcome State Fault Refusal :=
  .next (s.trainFrame lane.val (head ++ body) eye.toNat)

/-- R271. FFE_TAP_UPDATE. -/
def execFfeTapUpdate (lane : Fin 26) (s : State) : Host.Outcome State Fault Refusal := .next (s.tapUpdate lane.val)

/-- R272. TRAIN_CTLE_DONE: `boost` is what the adaptation found. -/
def execTrainCtleDone (lane : Fin 26) (boost : Fin 16) (s : State) : Host.Outcome State Fault Refusal :=
  .next (s.ctleDone lane.val boost.val)

/-- R272. TRAIN_TUNE_EVAL. -/
def execTrainTuneEval (lane : Fin 26) (s : State) : Host.Outcome State Fault Refusal := .next (s.tuneEval lane.val)

/-- R272. TRAIN_TUNE_RESTART. -/
def execTrainTuneRestart (lane : Fin 26) (s : State) : Host.Outcome State Fault Refusal := .next (s.tuneRestart lane.val)

/-- R273. LANE_LINK_UP. -/
def execLaneLinkUp (lane : Fin 26) (s : State) : Host.Outcome State Fault Refusal := .next (s.laneLinkUp lane.val)

/-- R268. TRTMO of a lane that has not reached LINK. -/
def State.trainTimeout (s : State) (l : Nat) : State :=
  if lnWait ≤ s.laneState l ∧ s.laneState l ≤ lnTrain ∧ (s.lane l).pllLost = false then s.laneBackoff l else s

/-- R268. LANE_TRAIN_TIMEOUT. -/
def execLaneTrainTimeout (lane : Fin 26) (s : State) : Host.Outcome State Fault Refusal := .next (s.trainTimeout lane.val)

/-- R268. LANE_LOSS. -/
def execLaneLoss (lane : Fin 26) (signal clock : Bool) (codes : Fin 17) (s : State) : Host.Outcome State Fault Refusal :=
  .next (s.laneLoss lane.val signal clock codes.val)

/-- R268. LANE_BACKOFF_END. -/
def execLaneBackoffEnd (lane : Fin 26) (s : State) : Host.Outcome State Fault Refusal :=
  .next (if s.laneState lane.val = lnBackoff then s.blindStart lane.val else s)

/-- R268. LANE_RETRAIN. -/
def execLaneRetrain (m : Master) (lane : Fin 26) (s : State) : Host.Outcome State Fault Refusal :=
  .next (s.gate m (fun s => s.laneRetrain lane.val))

/-- R264. LANE_PLL_LOSS. -/
def execLanePllLoss (pll : Fin 4) (s : State) : Host.Outcome State Fault Refusal := .next (s.pllLoss pll.val)

/-- R264. LANE_PLL_LOCK. -/
def execLanePllLock (pll : Fin 4) (s : State) : Host.Outcome State Fault Refusal := .next (s.pllLock pll.val)

/-- R278. LANE_PRBS_ENABLE. -/
def execLanePrbsEnable (m : Master) (lane : Fin 26) (s : State) : Host.Outcome State Fault Refusal :=
  .next (s.gate m (fun s => s.prbsEnable lane.val))

/-- R278. LANE_PRBS_DISABLE. -/
def execLanePrbsDisable (m : Master) (lane : Fin 26) (s : State) : Host.Outcome State Fault Refusal :=
  .next (s.gate m (fun s => s.prbsDisable lane.val))

/-- R279. PRBS_ERRINJ. -/
def execPrbsErrinj (m : Master) (lane : Fin 26) (s : State) : Host.Outcome State Fault Refusal :=
  .next (s.gate m (fun s => s.prbsErrinj lane.val))

/-- R279. PRBS_CHECKER_LOCK. -/
def execPrbsCheckerLock (lane : Fin 26) (s : State) : Host.Outcome State Fault Refusal := .next (s.prbsLock lane.val)

/-- R279. PRBS_CHECKER_LOSS: `errs` errors within 64 bits. -/
def execPrbsCheckerLoss (lane : Fin 26) (errs : Fin 65) (s : State) : Host.Outcome State Fault Refusal :=
  .next (s.prbsErrors lane.val errs.val)

/-- R280. EYE_SCAN_START. -/
def execEyeScanStart (m : Master) (lane : Fin 26) (s : State) : Host.Outcome State Fault Refusal :=
  .next (s.gate m (fun s => s.eyeStart lane.val))

/-- R280, R448. EYE_SCAN_DONE. -/
def execEyeScanDone (lane : Fin 26) (height width : Fin 65) (s : State) : Host.Outcome State Fault Refusal :=
  .next (s.eyeDone lane.val height.val width.val)

/-- R265. ELASTIC_RECENTER. -/
def execElasticRecenter (lane : Fin 26) (s : State) : Host.Outcome State Fault Refusal :=
  .next (if s.laneState lane.val = lnOff then s else s.count (LNK_ESKIP lane.val))

/-- R274. CTLE_TRACK_STEP. -/
def execCtleTrackStep (lane : Fin 26) (up : Bool) (s : State) : Host.Outcome State Fault Refusal := .next (s.ctleTrack lane.val up)

/-- R448. AGE_EYE_SCAN_PERIOD. -/
def execAgeEyeScanPeriod (s : State) : Host.Outcome State Fault Refusal := .next s.ageEyePeriod

end Sys2Proof.Machine
end

