-- ==== Sys2Proof/Machine/Adc.lean ====
section
/-!
DEFINITION. The measurement converters as shared operations: sequences (R289–R293), the reference (R294, R295), results and
their flags (R296, R297), background conversions (R298–R300), window comparators (R301), the fast stream (R303–R306) and
injection (R307).
-/

namespace Sys2Proof.Machine

/-- An event of ADC_EVT: sources 0x90–0x99. -/
def State.evtAdc (s : State) (f : Fld) (inst : Nat) : State := s.evt f 0x90 inst

/-- R291. The states of a sequencer. -/
def sarIdle : Nat := 0
def sarPending : Nat := 1
def sarRunning : Nat := 2
def sarOff : Nat := 3

/-- The internal state of a converter. -/
def State.conv (s : State) (n : Nat) : ConvSt := tget {} s.adc.convs n

/-- The state with a converter's internal state changed. -/
def State.updConv (s : State) (n : Nat) (f : ConvSt → ConvSt) : State :=
  s.updAdc (fun a => { a with convs := tput {} a.convs n (f (tget {} a.convs n)) })

/-- R289. Entry and result registers of a converter. -/
def seqEnt (n k : Nat) : Nat := if n = 0 then ADC_SEQ0_ENT k else ADC_SEQ1_ENT k
def seqRes (n k : Nat) : Nat := if n = 0 then ADC_SEQ0_RES k else ADC_SEQ1_RES k

/-- R286. Ticks of a conversion slot, and from its start to the hold instant. -/
def slotTicks : Nat := 125
def holdTicks : Nat := 50

/-- The input code of a conversion: 0–23 an input, 24–27 a test point. -/
def State.jobInput (s : State) (n : Nat) (j : SarJob) : Nat :=
  match j with
  | .seq k => (s.conv n).ents.getD k 0
  | .urgent i => i
  | .hk i => i
  | .test p => 24 + p

/-! ### Starting conversions -/

/-- R286, R295. A conversion's slot begins at a tick. -/
def State.startJob (s : State) (n : Nat) (j : SarJob) (t : Nat) : State :=
  s.updConv n (fun c => { c with job := some j, start := t, unsettled := !s.bit ADC_REFSTAT_SETTLED })

/-- R298. An idle converter without a conversion starts a background conversion: housekeeping first, then a test point. -/
def State.bgStart (s : State) (n : Nat) : State :=
  if s.fld (ADC_SEQSTAT_STATE n) = sarIdle ∧ (s.conv n).job = none then
    match s.adc.hkTodo with
    | i :: _ =>
      if s.fld ADC_CTRL_HKCONV = n then s.startJob n (.hk i) s.tick
      else match s.adc.scTodo.find? (fun e => e.1 == n) with
        | some e => s.startJob n (.test e.2) s.tick
        | none => s
    | [] => match s.adc.scTodo.find? (fun e => e.1 == n) with
      | some e => s.startJob n (.test e.2) s.tick
      | none => s
  else s

/-- R291, R317. What a tick does to a converter: the hold instant of its conversion, and the end of the tick that wrote the last
result of a sequence. -/
def State.sarTick (s : State) (n : Nat) : State :=
  let c := s.conv n
  let s := if c.job.isSome && c.start + holdTicks == s.tick then
      s.updConv n (fun c => { c with held := (s.ntm.exact, s.stepGen) })
    else s
  if c.ended then ((s.updConv n (fun c => { c with ended := false })).setF (ADC_SEQSTAT_STATE n) sarIdle).bgStart n else s

/-- R298. A background conversion in progress is aborted and counted. -/
def State.bgAbort (s : State) (n : Nat) : State :=
  match (s.conv n).job with
  | some (.hk _) => (s.updConv n (fun c => { c with job := none })).count ADC_BGABORT
  | some (.test _) => (s.updConv n (fun c => { c with job := none })).count ADC_BGABORT
  | _ => s

/-- R289. A sequence starts at tick `t`. -/
def State.seqStart (s : State) (n t : Nat) (delayed : Bool) : State :=
  let len := s.fld (ADC_SEQCFG_LENM1 n) + 1
  let ents := (upto len).map (fun k => s.rdN (seqEnt n k) % 32)
  let s := forN len (fun k u => u.setBit (seqRes n k) 31 false) s
  let s := (s.incr (ADC_SEQ_CNT n)).wrN (ADC_SEQTS n) t
  let s := ((s.setF (ADC_SEQSTAT_STATE n) sarRunning).setF (ADC_SEQSTAT_CUR n) 0).setB (ADC_SEQSTAT_DELAYED n) delayed
  let s := (s.setB (ADC_SEQSTAT_ABANDON n) false).updConv n (fun c => { c with len, ents, again := false, ended := false, closing := false })
  s.startJob n (.seq 0) t

/-- R290. The trigger sources. -/
inductive TrigSrc where
  | prk | phu | sw
deriving DecidableEq, Repr

/-- R290. Whether a source is enabled on a converter. -/
def State.trigEnabled (s : State) (n : Nat) : TrigSrc → Bool
  | .prk => s.bit (ADC_SEQCFG_PRK n)
  | .phu => s.bit (ADC_SEQCFG_PHU n)
  | .sw => s.bit (ADC_SEQCFG_SW n)

/-- R291. A trigger is dropped. -/
def State.seqDrop (s : State) (n : Nat) : State := (s.count (ADC_SEQ_DROP n)).evtAdc ADC_EVT_SEQDROP 0xFF

/-- R291. Whether this tick writes the last result of the running sequence. -/
def State.lastResultNow (s : State) (n : Nat) : Bool :=
  let c := s.conv n
  match c.job with
  | some (.seq k) => k + 1 == c.len && c.start + slotTicks == s.tick && !c.again
  | _ => false

/-- R290, R291. A trigger; the second component says whether a sequence starts by it. -/
def State.seqTrig (s : State) (n : Nat) (src : TrigSrc) : State × Bool :=
  if !s.trigEnabled n src then (s, false)
  else
    let st := s.fld (ADC_SEQSTAT_STATE n)
    if st = sarOff then (s, false)
    else if st = sarIdle then
      match (s.conv n).job with
      | some (.urgent _) => ((s.setF (ADC_SEQSTAT_STATE n) sarPending).setB (ADC_SEQSTAT_DELAYED n) true, true)
      | _ => ((s.bgAbort n).seqStart n s.tick false, true)
    else if (s.conv n).ended then (s.seqStart n s.tick false, true)
    else if st = sarRunning ∧ s.lastResultNow n = true then (s.updConv n (fun c => { c with again := true }), true)
    else (s.seqDrop n, false)

/-- R292. An urgent request. -/
def State.urgentReq (s : State) (n input : Nat) : State :=
  let input := if 28 ≤ input then 24 else input
  let urgent := match (s.conv n).job with
    | some (.urgent _) => true
    | _ => false
  if s.fld (ADC_SEQSTAT_STATE n) = sarIdle ∧ urgent = false then (s.bgAbort n).startJob n (.urgent input) s.tick
  else (s.count ADC_URG_DROP).evtAdc ADC_EVT_URGDROP (if input < 24 then input else 0xFF)

/-! ### Results (R286, R287, R296, R297) -/

/-- R309. A result word. -/
def resultWord (ovr recov refns : Bool) (cnt code : Nat) : Nat :=
  2 ^ 31 + (if ovr then 2 ^ 30 else 0) + (if recov then 2 ^ 29 else 0) + (if refns then 2 ^ 28 else 0) + cnt % 256 * 2 ^ 16 +
    code % 2 ^ 16

/-- R297. The window after an OVR conversion held at `h`; an input beyond twice full scale opens it for 2 µs on both
converters. -/
def State.openRecov (s : State) (n h : Nat) (far : Bool) : State :=
  let add (stop : Nat) (c : ConvSt) : ConvSt :=
    { c with recov := if h ≤ c.recov.2 then (min h c.recov.1, max stop c.recov.2) else (h, stop) }
  if far then (s.updConv 0 (add (h + us 2))).updConv 1 (add (h + us 2)) else s.updConv n (add (h + 250))

/-- A conversion's outcome: the flags and the 16-bit code. -/
structure SarOut where
  ovr : Bool
  recov : Bool
  refns : Bool
  code : Nat
deriving DecidableEq, Repr

/-- R295–R297, R307. The outcome of the conversion in progress from its ideal code; a code that carries RECOV is not specified
(a free value). -/
def State.convOut (s : State) (n : Nat) (j : SarJob) (ideal : Int) : SarOut × State :=
  let c := s.conv n
  let h := c.start + holdTicks
  let clip := decide (ideal < -32768) || decide (32767 < ideal)
  let ovr := clip || c.ovrNext
  let recov := decide (c.recov.1 < h) && decide (h ≤ c.recov.2)
  let refns := c.unsettled || c.refNext
  let s := s.updConv n (fun c => { c with ovrNext := false, refNext := false })
  let r := if recov then s.free 65536 else (ofSigned 16 (clampInt (-32768) 32767 ideal), s)
  let input := s.jobInput n j
  let t := if ovr then
      let t := r.2.openRecov n h (decide (65536 < ideal.natAbs))
      let t := if input < 24 then t.setBit ADC_OVRSTK input true else t
      t.evtAdc ADC_EVT_OVR input
    else r.2
  (⟨ovr, recov, refns, r.1⟩, t)

/-- R51, R58. A sequence entry has been written: an angle source whose last entry it is has its three results, if all belong
to this run. -/
def State.angleEntry (s : State) (n k : Nat) : State :=
  let ok (e : Nat) : Bool := decide (e < (s.conv n).len) && s.rbit (seqRes n e) 31
  let a := s.fld HOOP_H0SRC_ENT_L1
  let b := s.fld HOOP_H0SRC_ENT_L2
  let c := s.fld HOOP_H0SRC_ENT_L3
  let s' := if s.fld HOOP_H0SRC_CONV = n ∧ k = max a (max b c) ∧ ok a = true ∧ ok b = true ∧ ok c = true then
      s.updH0 (fun l => { l with runDone := true })
    else s
  let a := s.fld HOOP_H1SRC_ENT_L1
  let single := s.bit HOOP_H1SRC_SINGLE
  let b := if single then a else s.fld HOOP_H1SRC_ENT_L2
  let c := if single then a else s.fld HOOP_H1SRC_ENT_L3
  if s.fld HOOP_H1SRC_CONV = n ∧ k = max a (max b c) ∧ ok a = true ∧ ok b = true ∧ ok c = true then
    s'.updH1 (fun l => { l with runDone := true })
  else s'

/-- R289, R291, R293. What follows the result of sequence entry `k`: the next entry, or the end of the sequence, which is RUNNING
to the end of this tick. -/
def State.seqNext (s : State) (n k : Nat) : State :=
  let c := s.conv n
  if c.closing then s.updConv n (fun c => { c with job := none, closing := false, again := false })
  else if k + 1 < c.len then (s.setF (ADC_SEQSTAT_CUR n) (k + 1)).startJob n (.seq (k + 1)) (c.start + slotTicks)
  else
    let s := s.updConv n (fun c => { c with job := none })
    if c.again then s.seqStart n s.tick false else s.updConv n (fun c => { c with ended := true })

/-- R292. An urgent conversion has been written: a pending sequence starts at the next tick. -/
def State.urgentNext (s : State) (n : Nat) : State :=
  let s := s.updConv n (fun c => { c with job := none, closing := false })
  if s.fld (ADC_SEQSTAT_STATE n) = sarPending then s.seqStart n (s.tick + 1) true else s.bgStart n

/-- R300. The expected code of a test point. -/
def testCode (p : Nat) : Int := if p = 0 then 0 else if p = 1 then 16384 else if p = 2 then -16384 else 29491

/-- R300. A round is over when no point is left; one that disabling a converter has cut short is not completed. -/
def State.roundCheck (s : State) : State :=
  if s.bit ADC_SCSTAT_BUSY && s.adc.scTodo.isEmpty then
    let t := s.setB ADC_SCSTAT_BUSY false
    if s.adc.scCut then t
    else (t.setB ADC_SCSTAT_FAIL s.adc.scBad).setF ADC_SCSTAT_ROUNDS ((s.fld ADC_SCSTAT_ROUNDS + 1) % 65536)
  else s

/-- R300. A test point is evaluated. -/
def State.testPoint (s : State) (n p code : Nat) : State :=
  let bad := s.adc.scInj || decide (s.fld ADC_SCCFG_TOL < (toSigned 16 code - testCode p).natAbs)
  let first := bad && !s.adc.scBad
  let s := s.updAdc (fun a => { a with scTodo := a.scTodo.filter (· != (n, p)), scInj := false, scBad := a.scBad || bad })
  let s := if first then
      ((s.setB ADC_SCSTAT_FAIL true).setF ADC_SCSTAT_FCONV n).setF ADC_SCSTAT_FPOINT p
    else s
  (if bad then s.evtAdc ADC_EVT_SCFAIL (24 + p) else s).roundCheck

/-- R298, R299. A housekeeping result: one with RECOV or REFNS is repeated. Thermistors are handed to THM. -/
def State.hkResult (s : State) (i : Nat) (o : SarOut) : State :=
  let s := s.wrN (ADC_HKRES i) (resultWord o.ovr o.recov o.refns s.adc.hkCnt o.code)
  let s := if o.recov || o.refns then s else s.updAdc (fun a => { a with hkTodo := a.hkTodo.filter (· != i) })
  if 16 ≤ i then s.thmNtc (i - 16) o.code (o.ovr || o.recov || o.refns) else s

/-- R293. A converter whose conversion in progress ends, without a next one by itself. -/
def State.bgNext (s : State) (n : Nat) : State := (s.updConv n (fun c => { c with job := none, closing := false })).bgStart n

/-! ### Enabling (R293) -/

/-- R293. SARENn is set: the converter becomes ready later. -/
def State.sarEnable (s : State) (n : Nat) : State := s.setBit ADC_CTRL n true

/-- R293. The converter is ready. -/
def State.sarReady (s : State) (n : Nat) : State :=
  if s.rbit ADC_CTRL n ∧ s.fld (ADC_SEQSTAT_STATE n) = sarOff then (s.setF (ADC_SEQSTAT_STATE n) sarIdle).bgStart n else s

/-- R293. SARENn is cleared: the conversion in progress completes, nothing follows it. -/
def State.sarDisable (s : State) (n : Nat) : State :=
  if s.rbit ADC_CTRL n then
    let c := s.conv n
    let cut := match c.job with
      | some (.seq k) => decide (k + 1 < c.len)
      | _ => false
    let s := (s.setBit ADC_CTRL n false).setF (ADC_SEQSTAT_STATE n) sarOff
    let s := if cut then s.setB (ADC_SEQSTAT_ABANDON n) true else s
    let s := s.updConv n (fun c => { c with closing := c.job.isSome, again := false, ended := false })
    (s.updAdc (fun a => { a with scTodo := a.scTodo.filter (fun e => e.1 != n)
                                 scCut := a.scCut || a.scTodo.any (fun e => e.1 == n) })).roundCheck
  else s

/-! ### Periods (R299, R300) -/

/-- R299, R437. A housekeeping period: a scan that is not complete is late, and the next one starts from its first
unconverted input. -/
def State.hkScan (s : State) : State :=
  let mask := bitsIn 24 (s.fld ADC_HKCFG_MASK)
  let left := s.adc.hkTodo.filter (fun i => mask.contains i)
  let s := if left.isEmpty then s else (s.count ADC_HKLATE).evtAdc ADC_EVT_HKLATE 0xFF
  let todo := match left with
    | [] => mask
    | i :: _ => mask.filter (fun x => decide (i ≤ x)) ++ mask.filter (fun x => decide (x < i))
  let s := s.thmHkPeriod (s.fld ADC_HKCFG_MASK / 65536)
  let s := s.updAdc (fun a => { a with hkTodo := todo, hkCnt := a.hkCnt + (if todo.isEmpty then 0 else 1) })
  s.bgStart (s.fld ADC_CTRL_HKCONV)

/-- R300. A self-check period: a new round of the enabled converters, or one period more of a round that is not complete. -/
def State.scPeriod (s : State) : State :=
  if s.bit ADC_SCSTAT_BUSY then
    let s := s.updAdc (fun a => { a with scAge := a.scAge + 1 })
    if s.adc.scAge = 4 then s.evtAdc ADC_EVT_SCLATE 0xFF else s
  else
    let todo := ((upto 2).filter (fun n => s.fld (ADC_SEQSTAT_STATE n) != sarOff)).flatMap (fun n => (upto 4).map (fun p => (n, p)))
    if todo.isEmpty then s
    else
      let s := (s.setB ADC_SCSTAT_BUSY true).updAdc (fun a => { a with scTodo := todo, scAge := 0, scBad := false, scCut := false })
      (s.bgStart 0).bgStart 1

/-- R300. A write of ADC_SCCFG: the period runs anew. -/
def State.scCfg (s : State) (w : Nat) : State :=
  let s := (s.wrN ADC_SCCFG (bitsOf w 24 8 * 2 ^ 24 + bitsOf w 0 16)).unsched (· == .selfCheckPeriod)
  if s.fld ADC_SCCFG_PERIOD = 0 then s else s.sched (ms (s.fld ADC_SCCFG_PERIOD)) .selfCheckPeriod

/-! ### The reference (R294, R295) -/

/-- R295. A write of ADC_REFCFG that changes SEL, or VNOM with SEL = 1, clears SETTLED. -/
def State.refSelect (s : State) (sel vnom : Nat) : State :=
  let sel := if sel = 3 then 0 else sel
  let vnom := clampNat 1800 2750 vnom
  let same := sel == s.fld ADC_REFCFG_SEL && (sel != 1 || vnom == s.fld ADC_REFCFG_VNOM)
  let s := (s.setF ADC_REFCFG_SEL sel).setF ADC_REFCFG_VNOM vnom
  if same then s
  else (s.setF ADC_REFSTAT_SELACT sel).setB ADC_REFSTAT_SETTLED false

/-- R295. The reference is in band, and settled once it has been so for its settling time. -/
def State.refSettled (s : State) (settled : Bool) : State :=
  let s := s.setB ADC_REFSTAT_INBAND true
  if settled then s.setB ADC_REFSTAT_SETTLED true else s

/-- R295. The reference leaves its band. -/
def State.refLoss (s : State) : State :=
  let was := s.bit ADC_REFSTAT_SETTLED
  let s := (s.setB ADC_REFSTAT_INBAND false).setB ADC_REFSTAT_SETTLED false
  if was then s.evtAdc ADC_EVT_REFLOSS 0xFF else s

/-! ### Window comparators (R301, R307) -/

/-- A number as a comparator index. -/
def wcIx (n : Nat) : Fin 8 := ⟨n % 8, Nat.mod_lt _ (by decide)⟩

/-- R301. Microvolts in one LSB of a threshold. -/
def wcLsb : Int := 4883

/-- R301. What a comparator finds ahead of its filter: "above" from HI on until the input falls below HI − HYST, "below" from LO on
until it rises above LO + HYST. -/
def State.wcAbove (s : State) (k : Nat) : Bool :=
  let v := tget 0 s.adc.wcIn k
  let hi := toSigned 10 (s.fld (ADC_WCTHR_HI k))
  s.bit (ADC_WCCFG_EN k) && s.bit (ADC_WCCFG_HIEN k) &&
    (decide (hi * wcLsb < v) || (s.adc.above.getLsbD k && decide ((hi - s.fld (ADC_WCCFG_HYST k)) * wcLsb ≤ v)))
def State.wcBelow (s : State) (k : Nat) : Bool :=
  let v := tget 0 s.adc.wcIn k
  let lo := toSigned 10 (s.fld (ADC_WCTHR_LO k))
  s.bit (ADC_WCCFG_EN k) && s.bit (ADC_WCCFG_LOEN k) &&
    (decide (v < lo * wcLsb) || (s.adc.below.getLsbD k && decide (v ≤ (lo + s.fld (ADC_WCCFG_HYST k)) * wcLsb)))

/-- R301. The comparator compares: an assertion begins its FILT × 20 ns, a release needs none. -/
def State.wcCompare (s : State) (k : Nat) : State :=
  let put (v : BitVec 8) (b : Bool) : BitVec 8 := if b then v ||| BitVec.twoPow 8 k else v &&& ~~~ BitVec.twoPow 8 k
  let hi := s.wcAbove k
  let lo := s.wcBelow k
  let newHi := hi && !s.adc.above.getLsbD k
  let newLo := lo && !s.adc.below.getLsbD k
  let d := s.fld (ADC_WCCFG_FILT k) * 10
  let s := s.updAdc (fun a => { a with above := put a.above hi, below := put a.below lo
                                       passHi := if newHi then tput 0 a.passHi k (s.tick + d) else a.passHi
                                       passLo := if newLo then tput 0 a.passLo k (s.tick + d) else a.passLo })
  if (newHi || newLo) && d != 0 then s.sched d (.windowComparatorChange (wcIx k) none) else s

/-- R301, R307. The outputs of a comparator: what has passed its filter, and "above" while an injection lasts. Selvage source 4 + k
follows them. -/
def State.wcUpdate (s : State) (k : Nat) : State :=
  let s := s.wcCompare k
  let inj := decide (s.tick < tget 0 s.adc.wcInj k)
  let above := (s.adc.above.getLsbD k && decide (tget 0 s.adc.passHi k ≤ s.tick)) || inj
  let below := s.adc.below.getLsbD k && decide (tget 0 s.adc.passLo k ≤ s.tick)
  let was := s.rbit ADC_WCSTAT k || s.rbit ADC_WCSTAT (8 + k)
  let s := (s.setBit ADC_WCSTAT k below).setBit ADC_WCSTAT (8 + k) above
  if (above || below) && !was then s.selvCondition (4 + k)
  else if was && !(above || below) then s.setSelvLive (4 + k) false
  else s

/-- R301. The input of a comparator changes to a level in microvolts. -/
def State.wcChange (s : State) (k : Nat) (level : Int) : State :=
  (s.updAdc (fun a => { a with wcIn := tput 0 a.wcIn k level })).wcUpdate k

/-- R307. A write of ADC_INJ; the comparator bits are refused while control cycles run. -/
def State.adcInj (s : State) (w : Nat) : State :=
  let s := forL (bitsIn 2 w) (fun n t => t.updConv n (fun c => { c with ovrNext := true })) s
  let s := if bitOf w 2 then forN 2 (fun n t => t.updConv n (fun c => { c with refNext := true })) s else s
  let s := if bitOf w 3 then s.updAdc (fun a => { a with scInj := true }) else s
  let wc := bitsIn 8 (bitsOf w 8 8)
  if wc.isEmpty then s
  else if s.bit GLB_STATUS_CTRL_RUN then s.evtAdc ADC_EVT_CFGREF 0xFF
  else
    forL wc (fun k t =>
      let d := t.fld (ADC_WCCFG_FILT k) * 10 + us 1
      (((t.updAdc (fun a => { a with wcInj := tput 0 a.wcInj k (t.tick + d) })).wcUpdate k).sched d
        (.windowComparatorChange (wcIx k) none))) s

/-! ### The fast stream (R303–R306) -/

/-- R459, R460. The capture bank is owned by the travelling-wave unit. -/
def State.twuBank (s : State) : Bool := s.fld (MEM_OWN_KIND 20) == 3

/-- R304. ADC_FSTART. -/
def State.fstart (s : State) : Nat := s.rdN ADC_FSTART_HI * 2 ^ 32 + s.rdN ADC_FSTART_LO

/-- R304. Sample indices written up to now. -/
def State.fcount (s : State) : Nat :=
  if s.bit ADC_FSTAT_RUNNING then (if s.fstart ≤ s.tick then (s.tick - s.fstart) / 5 + 1 else 0)
  else s.rdN ADC_FCNT_HI * 2 ^ 32 + s.rdN ADC_FCNT_LO

/-- R304. The stream starts at the next edge of the sample clock, while the bank is owned (R306). -/
def State.streamStart (s : State) : State :=
  let s := s.setB ADC_FCTRL_RUN true
  if s.twuBank then
    let f := (s.tick / 5 + 1) * 5
    ((((s.wrN ADC_FSTART_LO f).wrN ADC_FSTART_HI (f / 2 ^ 32)).setB ADC_FSTAT_RUNNING true).setB ADC_FSTAT_OWNSTOP false).updAdc
      (fun a => { a with clipAt := [] })
  else s

/-- R304. Where sample `j` of a channel stands in the capture bank. -/
def fastAddr (c j : Nat) : Nat := 0x60000000 + c * 0x80000 + j % 262144 * 2

/-- R303, R305. Sample `j` of a channel is written: its code is what the input is (a free value, log entry 77), or the clamped one
of either sign while the channel clips; RECOV for 10 samples after a clipped one. -/
def State.fastSample (s : State) (c j : Nat) : State :=
  let clip := s.rbit ADC_FSTAT (4 + c)
  let last := tget 0 s.adc.clipAt c
  let recov := decide (0 < last) && decide (j + 1 ≤ last + 10)
  let r := if clip then s.free 2 else s.free 16384
  let code := if clip then (if r.1 = 0 then 0x1FFF else 0x2000) else r.1
  let t := r.2.setMemN (fastAddr c j) 2 (code * 4 + (if clip then 2 else 0) + (if recov then 1 else 0))
  if clip then (t.updAdc (fun a => { a with clipAt := tput 0 a.clipAt c (j + 1) })).evtAdc ADC_EVT_FCLIP c else t

/-- R303, R304. What a tick does to the stream: every fifth from ADC_FSTART on gives a sample of the channels in CHEN. -/
def State.fastTick (s : State) : State :=
  if s.bit ADC_FSTAT_RUNNING && decide (s.fstart ≤ s.tick) && (s.tick - s.fstart) % 5 == 0 then
    forL (bitsIn 4 (s.fld ADC_FCTRL_CHEN)) (fun c t => t.fastSample c ((s.tick - s.fstart) / 5)) s
  else s

/-- R304. The stream stops after the current sample. -/
def State.streamStop (s : State) : State :=
  let s := s.setB ADC_FCTRL_RUN false
  if s.bit ADC_FSTAT_RUNNING then
    let n := s.fcount
    (((s.setB ADC_FSTAT_RUNNING false).wrN ADC_FCNT_LO n).wrN ADC_FCNT_HI (n / 2 ^ 32)).setF ADC_FSTAT_CLIPNOW 0
  else s

/-- R304. A write of ADC_FCTRL. -/
def State.fctrl (s : State) (w : Nat) : State :=
  let run := s.bit ADC_FCTRL_RUN
  let s := if run then (if bitsOf w 4 4 = s.fld ADC_FCTRL_CHEN then s else s.evtAdc ADC_EVT_CFGREF 0xFF)
    else s.setF ADC_FCTRL_CHEN (bitsOf w 4 4)
  if bitOf w 0 then (if run then s else s.streamStart) else s.streamStop

/-- R306. The capture bank passes to another owner: RUN is cleared. -/
def State.streamOwnStop (s : State) : State :=
  if s.bit ADC_FCTRL_RUN then (s.streamStop.setB ADC_FSTAT_OWNSTOP true).evtAdc ADC_EVT_FSTOP 0xFF else s

/-- R305. The newest sample of a fast channel is clamped, or the next ones are no longer; a run of clipped samples counts once. -/
def State.fastClip (s : State) (c : Nat) (clip : Bool) : State :=
  if s.bit ADC_FSTAT_RUNNING && bitOf (s.fld ADC_FCTRL_CHEN) c then
    if clip then
      if s.rbit ADC_FSTAT (4 + c) then s.evtAdc ADC_EVT_FCLIP c
      else
        let t := ((s.setBit ADC_FSTAT (4 + c) true).count (ADC_FCLIP c)).evtAdc ADC_EVT_FCLIP c
        if s.fcount = 0 then t else t.fastSample c (s.fcount - 1)
    else s.setBit ADC_FSTAT (4 + c) false
  else s

/-! ### Commands -/

/-- R290, R291. ADC_SEQ_TRIG: the Pricking action triggers each converter in its mask. -/
def execAdcSeqTrig (mask : BitVec 2) (s : State) : Host.Outcome State Fault Refusal :=
  .next (forL (bitsIn 2 mask.toNat) (fun n t => (t.seqTrig n .prk).1) s)

/-- R293. SAR_ENABLE. -/
def execSarEnable (m : Master) (conv : Fin 2) (s : State) : Host.Outcome State Fault Refusal :=
  .next (s.gate m (fun s => s.sarEnable conv.val))

/-- R293. SAR_READY. -/
def execSarReady (conv : Fin 2) (s : State) : Host.Outcome State Fault Refusal := .next (s.sarReady conv.val)

/-- R290. A write of ADC_SEQSW.GO. -/
def State.seqSw (s : State) (mask : Nat) : State := forL (bitsIn 2 mask) (fun n t => (t.seqTrig n .sw).1) s

/-- R290. ADC_SEQSW_GO. -/
def execAdcSeqswGo (m : Master) (mask : BitVec 2) (s : State) : Host.Outcome State Fault Refusal :=
  .next (s.gate m (fun s => s.seqSw mask.toNat))

/-- R292. ADC_URGENT_REQUEST. -/
def execAdcUrgentRequest (m : Master) (conv : Fin 2) (input : BitVec 5) (s : State) : Host.Outcome State Fault Refusal :=
  .next (s.gate m (fun s => s.urgentReq conv.val input.toNat))

/-- R299. HK_SCAN_PERIOD. -/
def execHkScanPeriod (s : State) : Host.Outcome State Fault Refusal :=
  .next (s.hkScan.timer (ms (max 1 (s.fld ADC_HKCFG_PERIOD))) .hkScanPeriod)

/-- R300. SELF_CHECK_PERIOD. -/
def execSelfCheckPeriod (s : State) : Host.Outcome State Fault Refusal :=
  .next (if s.fld ADC_SCCFG_PERIOD = 0 then s else s.scPeriod.timer (ms (s.fld ADC_SCCFG_PERIOD)) .selfCheckPeriod)

/-- R295. REF_SELECT. -/
def execRefSelect (m : Master) (sel : BitVec 2) (vnom : BitVec 12) (s : State) : Host.Outcome State Fault Refusal :=
  .next (s.gate m (fun s => s.refSelect sel.toNat vnom.toNat))

/-- R295. REF_SETTLED. -/
def execRefSettled (settled : Bool) (s : State) : Host.Outcome State Fault Refusal := .next (s.refSettled settled)

/-- R295. REF_INBAND_LOSS. -/
def execRefInbandLoss (s : State) : Host.Outcome State Fault Refusal := .next s.refLoss

/-- R301. WINDOW_COMPARATOR_CHANGE: the input of a comparator changes to a level in microvolts, or the time of its filter or of an
injection is over. -/
def execWindowComparatorChange (k : Fin 8) (level : Option Int) (s : State) : Host.Outcome State Fault Refusal :=
  .next (match level with
    | some v => s.wcChange k.val v
    | none => s.wcUpdate k.val)

/-- R307. ADC_INJECT. -/
def execAdcInject (m : Master) (w : Word) (s : State) : Host.Outcome State Fault Refusal :=
  .next (s.gate m (fun s => s.adcInj w.toNat))

/-- R304. FAST_STREAM_START: a write of ADC_FCTRL with RUN = 1. -/
def execFastStreamStart (m : Master) (chen : BitVec 4) (s : State) : Host.Outcome State Fault Refusal :=
  .next (s.gate m (fun s => s.fctrl (chen.toNat * 16 + 1)))

/-- R304. FAST_STREAM_STOP: RUN is cleared. -/
def execFastStreamStop (m : Master) (s : State) : Host.Outcome State Fault Refusal := .next (s.gate m (fun s => s.streamStop))

/-- R305. FAST_CHANNEL_CLIP. -/
def execFastChannelClip (c : Fin 4) (clip : Bool) (s : State) : Host.Outcome State Fault Refusal := .next (s.fastClip c.val clip)

end Sys2Proof.Machine
end

