-- ==== Sys2Proof/Machine/Trig.lean ====
section
/-!
DEFINITION. Sine, cosine and the angle of a vector in fixed point of 96 bits, for the CORDIC unit (R129) and the phasor unit
(R320, R328).
-/

namespace Sys2Proof.Machine

/-- π × 2^96, rounded down. -/
def piFix : Nat := 248902613312231085230521944622

/-- A Taylor series in fixed point of 96 bits: the sum of the terms that follow, with alternating sign; `n` is the last factor
of the factorial so far. -/
def taylorGo (x2 : Int) : Nat → Nat → Int → Int → Int
  | 0, _, _, acc => acc
  | k + 1, n, t, acc =>
    let t' := -(t * x2 / (2 ^ 96 : Nat) / ((n + 1) * (n + 2) : Nat))
    taylorGo x2 k (n + 2) t' (acc + t')

/-- The sine and the cosine, × 2^96, of an angle of the first quarter turn in units of 2^-b turn. -/
def sinQuarter (b r : Nat) : Int :=
  let x : Int := (2 * piFix * r / 2 ^ b : Nat)
  taylorGo (x * x / (2 ^ 96 : Nat)) 18 1 x x
def cosQuarter (b r : Nat) : Int :=
  let x : Int := (2 * piFix * r / 2 ^ b : Nat)
  taylorGo (x * x / (2 ^ 96 : Nat)) 18 0 (2 ^ 96 : Nat) (2 ^ 96 : Nat)

/-- The sine, × 2^96, of an angle in units of 2^-b turn; exact at the quarter turns. -/
def sinTurn (b a : Nat) : Int :=
  let r := a % 2 ^ (b - 2)
  match a / 2 ^ (b - 2) % 4 with
  | 0 => if r = 0 then 0 else sinQuarter b r
  | 1 => if r = 0 then (2 ^ 96 : Nat) else cosQuarter b r
  | 2 => if r = 0 then 0 else -sinQuarter b r
  | _ => if r = 0 then -((2 ^ 96 : Nat) : Int) else -cosQuarter b r

/-- The cosine, × 2^96, of an angle in units of 2^-b turn. -/
def cosTurn (b a : Nat) : Int := sinTurn b ((a + 2 ^ (b - 2)) % 2 ^ b)

/-- The sine and the cosine of an angle word (R11), × 2^96. -/
def sinWord (a : Nat) : Int := sinTurn 32 a
def cosWord (a : Nat) : Int := cosTurn 32 a

/-- The angle of a vector of the first quarter in units of 2^-64 turn, bit by bit: `k` bits are still to be tried. -/
def atanGo (x y : Rat) : Nat → Nat → Nat
  | 0, a => a
  | k + 1, a =>
    let t := a + 2 ^ k
    atanGo x y k (if x * ((sinTurn 64 t : Int) : Rat) ≤ y * ((cosTurn 64 t : Int) : Rat) then t else a)

/-- The angle of a vector in units of 2^-64 turn, from −half a turn to half a turn; 0 of the zero vector. -/
def atanTurn (x y : Rat) : Int :=
  let q : Int := (2 ^ 62 : Nat)
  if 0 ≤ y then (if 0 ≤ x then (if y = 0 then 0 else (atanGo x y 62 0 : Nat)) else q + (atanGo y (-x) 62 0 : Nat))
  else (if 0 ≤ x then -((atanGo x (-y) 62 0 : Nat) : Int) else -(q + (atanGo (-y) (-x) 62 0 : Nat)))

end Sys2Proof.Machine
end

