-- ==== Sys2Proof/Machine/Phu.lean ====
section
/-!
DEFINITION. The phasor unit (R315–R329): its enable check, the sample grid and the guard, samples and history, the estimation,
frames in both output formats; and the results of SAR conversions, which it samples (R286–R300, R317).
-/

namespace Sys2Proof.Machine

/-- An event of PHU_EVT: sources 0xA0–0xA6. -/
def State.evtPhu (s : State) (f : Fld) (inst : Nat) : State := s.evt f 0xA0 inst

/-! ### Grid and rates (R316, R323) -/

/-- R339. Nominal frequency, and samples per nominal cycle. -/
def State.phuF0 (s : State) : Nat := if s.bit PHU_CTRL_F0SEL then 60 else 50
def State.phuK (s : State) : Nat := 64 * 2 ^ min 2 (s.fld PHU_CTRL_SPC)

/-- R316. Grid instants in a second. -/
def State.phuN (s : State) : Nat := s.phuK * s.phuF0

/-- R323. Frames per second of a RATE code. -/
def rateFs (r : Nat) : Nat := [10, 12, 15, 20, 25, 30, 50, 60, 100, 120, 1000].getD r 0

/-- R323. The rates listed for a nominal frequency. -/
def rateListed (f0 r : Nat) : Bool :=
  r == 10 || (if f0 = 50 then [0, 4, 6, 8].contains r else [0, 1, 2, 3, 5, 7, 9].contains r)

/-- R323. Fs. -/
def State.phuFs (s : State) : Nat := max 1 (rateFs (s.fld PHU_CTRL_RATE))

/-- R316. Grid instant `g` in nanoseconds of network time. -/
def gridNs (n g : Nat) : Nat := g / n * 1000000000 + (g % n * 1000000000 * 2 + n) / (2 * n)

/-- R95. The effective increment of the network clock in units of 2^-32 ns per tick. -/
def State.ntmEff (s : State) : Int :=
  let r := s.ntm.rem
  (s.ntmInc : Nat) + (if r = 0 then 0 else if 0 < r then (s.slewDelta : Int) else -(s.slewDelta : Int))

/-- R319. Network time 0.5 µs ahead has reached the trigger instant t_j − 100 ns of grid instant `g`. -/
def State.gridDue (s : State) (g : Nat) : Bool :=
  decide (((gridNs s.phuN g : Nat) - 100 : Int) * 2 ^ 32 ≤ (s.ntm.exact : Nat) + 250 * s.ntmEff)

/-- R316. The first grid instant that is not yet due. -/
def State.gridNext (s : State) : Nat :=
  let n := s.phuN
  let g := ((s.ntm.exact / 2 ^ 32) + 600) * n / 1000000000
  if s.gridDue g then (if s.gridDue (g + 1) then g + 2 else g + 1) else g

/-- R323. The first frame after now. -/
def State.frameNext (s : State) : Nat := (s.ntm.exact / 2 ^ 32) * s.phuFs / 1000000000 + 1

/-! ### Enabling (R315) -/

/-- R315. The enabled channels and groups. -/
def State.phuChans (s : State) : List Nat := (upto 12).filter (fun n => s.bit (PHU_CHCFG_EN n))
def State.phuGroups (s : State) : List Nat := (upto 4).filter (fun g => s.bit (PHU_GRP_EN g))

/-- R341. The channels of a group: L1, L2, L3. -/
def State.groupChans (s : State) (g : Nat) : List Nat := [s.fld (PHU_GRP_CHL1 g), s.fld (PHU_GRP_CHL2 g), s.fld (PHU_GRP_CHL3 g)]

/-- R315. PHU_CFGERR of the configuration. -/
def State.phuCheck (s : State) : Nat :=
  let c := s.fld PHU_CTRL_CONV
  let len := s.fld (ADC_SEQCFG_LENM1 c) + 1
  let ch := s.phuChans
  let rate := !rateListed s.phuF0 (s.fld PHU_CTRL_RATE)
  let seq := !s.bit (ADC_SEQCFG_PHU c) || s.bit (ADC_SEQCFG_PRK c) || s.bit (ADC_SEQCFG_SW c) || decide (12 < len)
  let aaf := ch.any (fun n =>
    let i := s.rdN (seqEnt c (s.fld (PHU_CHCFG_ENT n))) % 32
    decide (i < 24) && s.fld (ADC_INCFG_AAF i) != 3)
  let map := ch.any (fun n => decide (len ≤ s.fld (PHU_CHCFG_ENT n)) ||
    ch.any (fun k => k != n && s.fld (PHU_CHCFG_ENT k) == s.fld (PHU_CHCFG_ENT n)))
  let grp := s.phuGroups.any (fun g => ((upto 3).zip (s.groupChans g)).any (fun e =>
    !ch.contains e.2 || s.fld (PHU_CHCFG_PH e.2) != e.1))
  (if rate then 1 else 0) + (if seq then 2 else 0) + (if aaf then 4 else 0) + (if map then 8 else 0) + (if grp then 16 else 0)

/-- R318. The history of the channels in a mask starts from the next grid instant. -/
def State.phuClear (s : State) (mask : Nat) : State :=
  forL (bitsIn 12 mask) (fun n t =>
    t.updPhu (fun p => { p with start := tput 0 p.start n p.next, samples := tput [] p.samples n [] })) s

/-- R315, R318. The whole history starts anew, with the next grid instant and the next frame. -/
def State.phuFresh (s : State) : State :=
  let s := s.unsched (· == .phuTrigger)
  let f := s.frameNext
  let s := s.updPhu (fun p => { p with next := s.gridNext, trigs := [], cur := none, again := none, last := 0, frame := f, mark := f
                                       marks := [] })
  (s.phuClear 0xFFF).setB PHU_STATUS_FILL true

/-- R339. PHU_STATUS.EMIT. -/
def State.phuEmit (s : State) : State := s.setB PHU_STATUS_EMIT (s.bit PHU_STATUS_RUN && !s.bit PHU_STATUS_ALIGNPEND)

/-- R315. EN is set: the check, and the start of the PHU. -/
def State.phuStart (s : State) : State :=
  let e := s.phuCheck
  let s := s.wrN PHU_CFGERR e
  if e ≠ 0 then s.evtPhu PHU_EVT_CFGREF 0xFF
  else
    let s := ((s.setB PHU_CTRL_EN true).setB PHU_STATUS_RUN true).setB PHU_STATUS_ALIGNPEND (s.bit PHU_CTRL_ALIGNWAIT)
    s.phuFresh.phuEmit

/-- R315. EN is cleared. -/
def State.phuStop (s : State) : State :=
  let s := ((s.setB PHU_CTRL_EN false).setB PHU_STATUS_RUN false).setB PHU_STATUS_ALIGNPEND false
  ((s.setB PHU_STATUS_FILL false).unsched (· == .phuTrigger)).phuEmit

/-- R315, R339. A write of PHU_CTRL: while EN is 1 only one that clears EN is taken. -/
def State.phuCtrl (s : State) (w : Nat) : State :=
  let w := if bitsOf w 12 2 = 3 then putBits w 12 2 2 else w
  if s.bit PHU_CTRL_EN then (if bitOf w 0 then s.evtPhu PHU_EVT_CFGREF 0xFF else (s.wrN PHU_CTRL (w % 65536)).phuStop)
  else
    let s := s.wrN PHU_CTRL (putBits (w % 65536) 0 1 0)
    if bitOf w 0 then s.phuStart else s

/-- R315. A write of PHU_CHCFGn, PHU_GRPn or PHU_C37CFG, refused while EN is 1. -/
def State.phuLocked (s : State) (a w : Nat) : State := if s.bit PHU_CTRL_EN then s.evtPhu PHU_EVT_CFGREF 0xFF else s.wrN a w

/-- R315. PHU_ENABLE. -/
def execPhuEnable (m : Master) (s : State) : Host.Outcome State Fault Refusal :=
  .next (s.gate m (fun s => s.phuCtrl (putBits (s.rdN PHU_CTRL) 0 1 1)))

/-- R318. PHU_ALIGN: the history of the named channels is cleared and frames are numbered from 0. -/
def State.phuAlign (s : State) (mask : Nat) : State :=
  if s.bit PHU_STATUS_RUN then
    (((s.phuClear mask).setB PHU_STATUS_FILL (s.bit PHU_STATUS_FILL || mask % 4096 != 0)).setB PHU_STATUS_ALIGNPEND false).phuEmit.wrN
      PHU_FRCNT 0
  else s

/-- R318. PHU_ALIGN. -/
def execPhuAlign (mask : BitVec 12) (s : State) : Host.Outcome State Fault Refusal := .next (s.phuAlign mask.toNat)

/-! ### Guard and trigger (R316, R319) -/

/-- R319. The considered edges in units of 2^-16 tick. -/
def State.guardEdges (s : State) : List Int :=
  ((s.stitch.placed.filter (fun e => bitOf (s.fld PHU_GUARD_PHMASK) e.1))).map (fun e => e.2 * 8192 - s.ctofs)

/-- R319. Whether every hold instant of a sequence that starts at tick `t` keeps the guard to every edge. -/
def guardClear (edges : List Int) (len guard : Nat) (t : Int) : Bool :=
  (upto len).all (fun k => edges.all (fun e => decide (guard * 32768 ≤ ((t + 50 + 125 * k) * 65536 - e).natAbs)))

/-- R319. The candidates 0, +1, −1, … ±`n`. -/
def guardSeries (n : Nat) : List Int := 0 :: (upto n).flatMap (fun k => [((k + 1 : Nat) : Int), -((k + 1 : Nat) : Int)])

/-- R319. The shift of the next grid instant is decided and its trigger set up. -/
def State.phuDecide (s : State) : State :=
  if s.bit PHU_STATUS_RUN then
    let nom : Int := (s.tick + 250 : Nat)
    let edges := s.guardEdges
    let len := s.fld (ADC_SEQCFG_LENM1 (s.fld PHU_CTRL_CONV)) + 1
    let g := s.phu.next
    let s := s.updPhu (fun p => { p with next := p.next + 1, trigs := p.trigs ++ [g] })
    match (guardSeries (s.fld PHU_GUARD_GMAX)).find? (fun d => guardClear edges len (s.fld PHU_GUARD_GUARD) (nom + d)) with
    | some d =>
      let s := if s.fld PHU_SHIFTMAX_MAX < d.natAbs then s.setF PHU_SHIFTMAX_MAX d.natAbs else s
      s.schedAt (nom + d).toNat .phuTrigger
    | none => ((s.count PHU_GUARDFAIL).evtPhu PHU_EVT_GUARDFAIL 0xFF).schedAt nom.toNat .phuTrigger
  else s

/-- R319. PHU_GUARD_DECISION. -/
def execPhuGuardDecision (s : State) : Host.Outcome State Fault Refusal := .next s.phuDecide

/-- R317. A channel has a sample; those of the last two seconds are kept. -/
def State.phuSample (s : State) (n : Nat) (x : PhuSample) : State :=
  let keep := x.g - 2 * s.phuN
  s.updPhu (fun p => { p with samples := tput [] p.samples n (x :: (tget [] p.samples n).filter (fun y => decide (keep ≤ y.g))) })

/-- R317. A sample of a channel is invalid. -/
def State.phuBad (s : State) (n g : Nat) : State :=
  ((s.count PHU_SMPMISS).evtPhu PHU_EVT_SMPMISS n).phuSample n ⟨g, none⟩

/-- R317. The sequence of the running grid instant ends; channels whose entries it has not written have no sample. -/
def State.phuSeqEnd (s : State) (written : Nat) : State :=
  match s.phu.cur with
  | none => s
  | some g =>
    let s := forL (s.phuChans.filter (fun n => decide (written ≤ s.fld (PHU_CHCFG_ENT n)))) (fun n t => t.phuBad n g) s
    s.updPhu (fun p => { p with cur := p.again, again := none, last := g })

/-- R290, R291, R316. The trigger of a grid instant; a dropped one gives no samples, and one in the tick of a sequence's last result
waits for that result. -/
def State.phuTrig (s : State) : State :=
  if s.bit PHU_STATUS_RUN then
    match s.phu.trigs with
    | [] => s
    | g :: rest =>
      let s := s.updPhu (fun p => { p with trigs := rest })
      let r := s.seqTrig (s.fld PHU_CTRL_CONV) .phu
      if r.2 then r.1.updPhu (fun p => if p.cur.isSome then { p with again := some g } else { p with cur := some g })
      else (forL r.1.phuChans (fun n t => t.phuBad n g) r.1).updPhu (fun p => { p with last := max p.last g })
  else s

/-- R316. PHU_TRIGGER. -/
def execPhuTrigger (s : State) : Host.Outcome State Fault Refusal := .next s.phuTrig

/-- R317. Entry `k` of a converter's sequence has been written with a code: the sample of the channel that reads it has the network
time and STEPGEN of the hold instant. -/
def State.phuEntry (s : State) (conv k code : Nat) (flagged lastOne : Bool) : State :=
  if s.bit PHU_STATUS_RUN && s.fld PHU_CTRL_CONV == conv then
    match s.phu.cur with
    | none => s
    | some g =>
      let h := (s.conv conv).held
      let s := forL (s.phuChans.filter (fun n => s.fld (PHU_CHCFG_ENT n) == k)) (fun n t =>
        if flagged then t.phuBad n g else t.phuSample n ⟨g, some (toSigned 16 code, h.1, h.2)⟩) s
      if lastOne then s.phuSeqEnd (k + 1) else s
  else s

/-! ### Results of SAR conversions -/

/-- R286–R300, R317. The slot of the conversion in progress ends with an ideal code. -/
def State.sarResult (s : State) (n : Nat) (ideal : Int) : State :=
  let c := s.conv n
  match c.job with
  | none => s
  | some j =>
    if s.tick < c.start + slotTicks then s
    else
      let r := s.convOut n j ideal
      let o := r.1
      let s := r.2
      let flagged := o.ovr || o.recov || o.refns
      match j with
      | .seq k =>
        let s := s.wrN (seqRes n k) (resultWord o.ovr o.recov o.refns (s.rdN (ADC_SEQ_CNT n)) o.code)
        let s := (s.angleEntry n k).phuEntry n k o.code flagged (k + 1 == c.len || c.closing)
        s.seqNext n k
      | .urgent _ =>
        let s := s.updConv n (fun c => { c with urgent := c.urgent + 1 })
        (s.wrN (ADC_URGRES n) (resultWord o.ovr o.recov o.refns (s.conv n).urgent o.code)).urgentNext n
      | .hk i => (s.hkResult i o).bgNext n
      | .test p => (if o.recov || o.refns || !s.bit ADC_REFSTAT_SETTLED then s else s.testPoint n p o.code).bgNext n

/-- R286, R289. SAR_CONVERSION_RESULT: `code` is the ideal code of the input at the hold instant, signed. -/
def execSarConversionResult (conv : Fin 2) (code : BitVec 20) (s : State) : Host.Outcome State Fault Refusal :=
  .next (s.sarResult conv.val (toSigned 20 code.toNat))

/-- R293, R317. SARENn is cleared: the PHU's sequence is cut short with the entry in conversion. -/
def State.sarOff (s : State) (n : Nat) : State :=
  let t := s.sarDisable n
  match (s.conv n).job with
  | some (.seq _) => t
  | _ => if t.bit PHU_STATUS_RUN && t.fld PHU_CTRL_CONV == n then t.phuSeqEnd 0 else t

/-- R293. SAR_DISABLE. -/
def execSarDisable (m : Master) (conv : Fin 2) (s : State) : Host.Outcome State Fault Refusal :=
  .next (s.gate m (fun s => s.sarOff conv.val))

/-- R293, R298, R309. A write of ADC_CTRL: the converter of the housekeeping scan uses its free slots at once. -/
def State.adcCtrl (s : State) (w : Nat) : State :=
  let s := s.setF ADC_CTRL_HKCONV (bitsOf w 9 1)
  (forN 2 (fun n t => if bitOf w n then t.sarEnable n else t.sarOff n) s).bgStart (bitsOf w 9 1)

/-! ### Frames (R320–R328) -/

/-- R322. The quiet NaN of an invalid float. -/
def quietNaN : Nat := 0x7FC00000

/-- The value of a float32 word; infinities read as the largest finite magnitude and NaN as 0. -/
def floatRat (w : Nat) : Rat :=
  let e := bitsOf w 23 8
  let f := bitsOf w 0 23
  let m : Rat := if e = 0 then (f : Rat) / (2 ^ 149 : Nat)
    else if e = 255 then (if f = 0 then ((2 ^ 128 : Nat) : Rat) else 0)
    else if e < 150 then ((2 ^ 23 + f : Nat) : Rat) / (2 ^ (150 - e) : Nat) else (((2 ^ 23 + f) * 2 ^ (e - 150) : Nat) : Rat)
  if bitOf w 31 then -m else m

/-- R328. A 16-bit field: saturated to ±32,767. -/
def int16 (x : Rat) : Nat := ofSigned 16 (clampInt (-32767) 32767 (roundAway x))

/-- R320. Half of a window in grid instants: one nominal cycle (P, and 1,000 frames/s), or 5 / Fs (M). -/
def State.phuHalf (s : State) : Nat := if s.bit PHU_CTRL_CLASSM && s.phuFs != 1000 then 5 * s.phuN / s.phuFs else s.phuK

/-- R320. The grid instant nearest to a frame's reporting instant. -/
def State.frameGrid (s : State) (frame : Nat) : Nat := (frame * s.phuN * 2 + s.phuFs) / (2 * s.phuFs)

/-- R320, R323. The window of a frame as grid instants: half-length of one nominal cycle (P, and 1,000 frames/s) or 5 / Fs
(M), about the grid instant nearest to t_r, of samples whose effective instants lie in it (166.4 µs after them, R317). -/
def State.phuWindow (s : State) (frame : Nat) : Nat × Nat :=
  let n := s.phuN
  let gc := s.frameGrid frame
  let h := s.phuHalf
  (gc - h + (1664 * n + 9999999) / 10000000, gc + h + 1664 * n / 10000000)

/-- The samples of a channel in a window. -/
def State.chanSamples (s : State) (w : Nat × Nat) (n : Nat) : List PhuSample :=
  (tget [] s.phu.samples n).filter (fun x => decide (w.1 ≤ x.g) && decide (x.g ≤ w.2))

/-- R317. What becomes of a channel in a window: 0 complete, 1 interpolated, 2 invalid. -/
def State.chanState (s : State) (w : Nat × Nat) (n : Nat) : Nat :=
  let bad := ((s.chanSamples w n).filter (fun x => x.val.isNone)).map (fun x => x.g)
  if bad.isEmpty then 0
  else if 2 < bad.length ∨ bad.any (fun g => bad.contains (g + 1)) then 2
  else 1

/-- R318. Every enabled channel has a complete window. -/
def State.phuComplete (s : State) (w : Nat × Nat) : Bool := s.phuChans.all (fun n => decide (tget 0 s.phu.start n ≤ w.1))

/-- R325. Time quality of STAT [8:6] and of the message. -/
def State.phuTq (s : State) : Nat × Nat :=
  let st := s.ntmState
  let e := s.rdN NTM_HOLD
  if st = ntmLocked then (s.fld PHU_TQ_TQLOCK, s.fld PHU_TQ_MTQLOCK)
  else if st = ntmHoldover then
    (if e < 100 then (1, 3) else if e < 1000 then (2, 4) else if e < 10000 then (3, 5) else if e < 100000 then (4, 6)
      else if e < 1000000 then (5, 7) else if e < 10000000 then (6, 8) else if e < 100000000 then (7, 9)
      else if e < 1000000000 then (7, 10) else if e < 10000000000 then (7, 11) else (7, 15))
  else (7, 15)

/-- R326. STAT [5:4]. -/
def State.unlockedTime (s : State) : Nat :=
  let t := (s.tick - s.ntm.unlocked) / 500000000
  if s.bit GLB_STATUS_NTMLOCK then 0 else if t < 10 then 0 else if t < 100 then 1 else if t < 1000 then 2 else 3

/-- R326. A travelling-wave record has its first arrival in (t_r − 1 / Fs, t_r]. -/
def State.twInFrame (s : State) (frame : Nat) : Bool :=
  let fs := s.phuFs
  s.twu.firsts.any (fun t => decide ((frame - 1) * 256000000000 < t * fs) && decide (t * fs ≤ frame * 256000000000))

/-- R326. The STAT word. -/
def State.phuStat (s : State) (frame : Nat) (bad interp : Bool) : Nat :=
  let tw := s.twInFrame frame
  (if bad then 2 ^ 14 else 0) + (if s.bit GLB_STATUS_NTMLOCK then 0 else 2 ^ 13) + (if tw then 2 ^ 11 else 0) +
    (if s.bit PHU_TQ_CFGCHG then 2 ^ 10 else 0) + (if interp then 2 ^ 9 else 0) + s.phuTq.1 * 64 + s.unlockedTime * 16 +
    (if tw then 8 else 0)

/-- A phasor of a frame: validity, real and imaginary part as float32 words, PHUNIT. -/
structure PhOut where
  valid : Bool
  re : Nat
  im : Nat
  unit : Nat
deriving DecidableEq, Repr

/-! #### Estimation (R317, R320, R321) -/

/-- R317. The effective instant of a sample in ns, from the network time of its hold instant. -/
def State.effInstant (s : State) (n time : Nat) : Rat :=
  ((time : Nat) : Rat) / ((2 ^ 32 : Nat) : Rat) - 166400 - ((toSigned 16 (s.fld (PHU_CHCFG_CALDLY n)) : Int) : Rat) / 16

/-- R317. Effective instant and code of the sample at a grid instant, if it is valid. -/
def State.sampleAt (s : State) (n g : Nat) : Option (Rat × Rat) :=
  match (tget [] s.phu.samples n).find? (fun x => x.g == g) with
  | some ⟨_, some v⟩ => some (s.effInstant n v.2.1, ((v.1 : Int) : Rat))
  | _ => none

/-- R317. The samples of a channel in a window: grid instant, effective instant and code; an invalid one is replaced by linear
interpolation of its neighbours, and by the one neighbour where the other is not there (log entry 47). -/
def State.windowSamples (s : State) (w : Nat × Nat) (n : Nat) : List (Nat × Rat × Rat) :=
  (s.chanSamples w n).filterMap (fun x =>
    match x.val with
    | some v => some (x.g, s.effInstant n v.2.1, ((v.1 : Int) : Rat))
    | none =>
      match s.sampleAt n (x.g - 1), s.sampleAt n (x.g + 1) with
      | some a, some b => some (x.g, (a.1 + b.1) / 2, (a.2 + b.2) / 2)
      | some a, none => some (x.g, a)
      | none, some b => some (x.g, b)
      | none, none => none)

/-- Turns as a number of 2^-64 turn. -/
def turnWord (x : Rat) : Nat := ((x - x.floor) * ((2 ^ 64 : Nat) : Rat)).floor.toNat

/-- A complex number. -/
abbrev Cplx := Rat × Rat

def Cplx.add (a b : Cplx) : Cplx := (a.1 + b.1, a.2 + b.2)
def Cplx.mul (a b : Cplx) : Cplx := (a.1 * b.1 - a.2 * b.2, a.1 * b.2 + a.2 * b.1)

/-- e^(j 2π x) for x turns. -/
def Cplx.unit (x : Rat) : Cplx :=
  let a := turnWord x
  (((cosTurn 64 a : Int) : Rat) / ((2 ^ 96 : Nat) : Rat), ((sinTurn 64 a : Int) : Rat) / ((2 ^ 96 : Nat) : Rat))

/-- The square root of a number that is not negative, to 2^-96. -/
def sqrtRat (x : Rat) : Rat := ((Nat.sqrt (x * ((2 ^ 192 : Nat) : Rat)).floor.toNat : Nat) : Rat) / ((2 ^ 96 : Nat) : Rat)

/-- R320. The weight of the sample `k` grid instants from the centre: triangular in P class. -/
def State.phuWeight (s : State) (k : Nat) : Int :=
  if s.bit PHU_CTRL_CLASSM && s.phuFs != 1000 then Config.phuWeight s.phuFs s.phuHalf k else ((s.phuHalf - k : Nat) : Int)

/-- R317, R320. The grid instant whose sample is the centre of a frame's window: the first whose effective instant is not before
the centre t_c (log entry 47). -/
def State.phuCentre (s : State) (gc : Nat) : Nat := gc + (1664 * s.phuN + 9999999) / 10000000

/-- R320. The phasor of a channel over a window with centre grid instant `gc`. -/
def State.chanPhasor (s : State) (w : Nat × Nat) (gc n : Nat) : Cplx :=
  let c := s.phuCentre gc
  let f0 : Rat := ((s.phuF0 : Nat) : Rat)
  let xs := (s.windowSamples w n).map (fun x => (((s.phuWeight ((x.1 : Int) - c).natAbs : Int) : Rat), x.2))
  let sum := xs.foldl (fun a x => a + x.1) 0
  let z := xs.foldl (fun a x =>
    let u := Cplx.unit (-(f0 * x.2.1 / 1000000000))
    Cplx.add a (x.1 * x.2.2 * u.1, x.1 * x.2.2 * u.2)) (0, 0)
  let k := sqrtRat 2 * floatRat (s.rdN (PHU_CHSCL n)) / sum
  (z.1 * k, z.2 * k)

/-- R321. The positive sequence of three phasors. -/
def posSeq (x y z : Cplx) : Cplx :=
  let r := sqrtRat 3 / 2
  let t := Cplx.add x (Cplx.add (Cplx.mul (-1 / 2, r) y) (Cplx.mul (-1 / 2, -r) z))
  (t.1 / 3, t.2 / 3)

/-- R321. The group that supplies frequency and ROCOF. -/
def State.freqGroup (s : State) : Option Nat := s.phuGroups.find? (fun g => s.bit (PHU_GRP_FREQ g))

/-- R321. Frequency and ROCOF of a window, from the samples of the group that supplies them. -/
def State.phuFreq (s : State) (w : Nat × Nat) : Rat × Rat :=
  match s.freqGroup with
  | none => (0, 0)
  | some g =>
    let xs := (s.groupChans g).map (fun n => (s.windowSamples w n).map (fun x => x.2))
    let m := s.bit PHU_CTRL_CLASSM
    (Config.phuFreq m s.phuF0 s.phuFs xs, Config.phuRocof m s.phuF0 s.phuFs xs)

/-- R320, R321, R327. The phasors of a frame: the enabled channels, then the enabled groups; rotated to t_r by the estimated
frequency, or not where there is none (log entry 47). -/
def State.estimates (s : State) (frame : Nat) (w : Nat × Nat) (f : Option Rat) : List Cplx :=
  let gc := s.frameGrid frame
  let dt : Rat := ((frame : Nat) : Rat) / ((s.phuFs : Nat) : Rat) - ((gc : Nat) : Rat) / ((s.phuN : Nat) : Rat)
  let rot := match f with
    | some f => Cplx.unit ((f - ((s.phuF0 : Nat) : Rat)) * dt)
    | none => (1, 0)
  let x (n : Nat) : Cplx := Cplx.mul (s.chanPhasor w gc n) rot
  s.phuChans.map x ++ s.phuGroups.map (fun g => posSeq (x (s.fld (PHU_GRP_CHL1 g))) (x (s.fld (PHU_GRP_CHL2 g))) (x (s.fld (PHU_GRP_CHL3 g))))

/-- A number as a float32 word: the neighbour above it where `up`, else the one below. -/
def floatOf (up : Bool) (x : Rat) : Nat :=
  let k := bitLen x.den + 40
  let m := x.num.natAbs * 2 ^ k
  (fRound (if up then 3 else 2) (decide (x.num < 0)) (m / x.den) (-(k : Int)) (m % x.den != 0)).1

/-- Phasors as float32 words: the choices are for the real and the imaginary part of each in turn, down after the last. -/
def floatsOf (up : List Bool) : List Cplx → List (Nat × Nat)
  | [] => []
  | z :: t => (floatOf (up.getD 0 false) z.1, floatOf (up.getD 1 false) z.2) :: floatsOf (up.drop 2) t

/-- A number as a float32 word: one of the two neighbours, which one is a free value (log entry 47). -/
def State.toFloat (s : State) (x : Rat) : Nat × State :=
  let r := s.free 2
  (floatOf (r.1 == 1) x, r.2)

/-- R320–R322, R327. The phasors of a frame: channels, then groups, with the values that the estimator found. -/
def State.phuOut (s : State) (complete : Bool) (w : Nat × Nat) (xs : List (Nat × Nat)) : List PhOut :=
  let ok (n : Nat) : Bool := complete && s.chanState w n != 2
  let ents := s.phuChans.map (fun n => (ok n, n)) ++ s.phuGroups.map (fun g => ((s.groupChans g).all ok, s.fld (PHU_GRP_CHL1 g)))
  ((upto ents.length).zip ents).map (fun e =>
    match xs[e.1]? with
    | some x => if e.2.1 then ⟨true, x.1, x.2, s.fld (PHU_CHUNIT_PHUNIT e.2.2)⟩
      else ⟨false, quietNaN, quietNaN, s.fld (PHU_CHUNIT_PHUNIT e.2.2)⟩
    | none => ⟨false, quietNaN, quietNaN, s.fld (PHU_CHUNIT_PHUNIT e.2.2)⟩)

/-- R321. Whether frequency and ROCOF are valid: the first enabled group with FREQ set has no invalid channel. -/
def State.freqValid (s : State) (complete : Bool) (w : Nat × Nat) : Bool :=
  match s.freqGroup with
  | some g => complete && (s.groupChans g).all (fun n => s.chanState w n != 2)
  | none => false

/-- R327. NTM_HOLD at the reporting instant of a frame. -/
def State.holdAt (s : State) (frame : Nat) : Nat := tget (s.rdN NTM_HOLD) s.phu.marks frame

/-- R327. What a tick does to the frames: those that fall in it keep NTM_HOLD of now. -/
def State.phuTick (s : State) : State :=
  if s.bit PHU_STATUS_RUN && decide (s.phu.mark < s.frameNext) then
    s.updPhu (fun p => { p with mark := p.mark + 1, marks := p.marks ++ [(p.mark, s.rdN NTM_HOLD)] })
  else s

/-- R327. The native record. -/
def State.phuNative (s : State) (frame stat : Nat) (out : List PhOut) (freq rocof : Nat) : List Byte :=
  let fs := s.phuFs
  let mask := ((upto out.length).zip out).foldl (fun m e => if e.2.valid then m + 2 ^ e.1 else m) 0
  leBytes (frame / fs) 6 ++ leBytes stat 2 ++ leBytes ((frame % fs * 2000000000 + fs) / (2 * fs)) 4 ++
    leBytes (s.stepGen + (if s.bit PHU_CTRL_CLASSM then 16 else 0) + (if fs = 1000 then 32 else 0)) 1 ++ leBytes out.length 1 ++
    leBytes mask 2 ++ leBytes freq 4 ++ leBytes rocof 4 ++ leBytes (s.holdAt frame) 4 ++ leBytes (s.rdN PHU_FRCNT) 4 ++
    out.flatMap (fun p => leBytes p.re 4 ++ leBytes p.im 4)

/-- CRC-CCITT over bytes: polynomial 0x1021, not reflected. -/
def crcCcitt (init : Nat) (l : List Byte) : Nat :=
  l.foldl (fun c b => (upto 8).foldl (fun c _ => (if bitOf c 15 then (c * 2) ^^^ 0x1021 else c * 2) % 65536) (c ^^^ (b.toNat * 256))) init

/-- R328. The angle of a phasor in radians. -/
def phAngle (p : PhOut) : Rat :=
  2 * ((piFix : Nat) : Rat) / ((2 ^ 96 : Nat) : Rat) * ((atanTurn (floatRat p.re) (floatRat p.im) : Int) : Rat) / ((2 ^ 64 : Nat) : Rat)

/-- R328. The magnitude of a phasor. -/
def phMag (p : PhOut) : Rat := sqrtRat (floatRat p.re * floatRat p.re + floatRat p.im * floatRat p.im)

/-- R328. A component over its unit as an integer; the spec states no result for a unit of 0 (a free value, log entry 47). -/
def State.perUnit (s : State) (x : Rat) (unit : Nat) : Nat × State :=
  if unit = 0 then s.free 65536 else (int16 (x / (((unit : Nat) : Rat) / 100000)), s)

/-- R328. A phasor of the C37.118.2 frame: float32 or int16, rectangular or polar (magnitude, then angle). -/
def State.c37Phasor (s : State) (p : PhOut) : List Byte × State :=
  let flt := s.bit PHU_C37CFG_PHFLT
  let pol := s.bit PHU_C37CFG_PHPOL
  if !p.valid then (if flt then beBytes quietNaN 4 ++ beBytes quietNaN 4 else beBytes 0x8000 2 ++ beBytes 0x8000 2, s)
  else if flt && !pol then (beBytes p.re 4 ++ beBytes p.im 4, s)
  else if flt then
    let a := s.toFloat (phMag p)
    let b := a.2.toFloat (phAngle p)
    (beBytes a.1 4 ++ beBytes b.1 4, b.2)
  else if pol then
    let a := s.perUnit (phMag p) p.unit
    (beBytes a.1 2 ++ beBytes (int16 (phAngle p * 10000)) 2, a.2)
  else
    let a := s.perUnit (floatRat p.re) p.unit
    let b := a.2.perUnit (floatRat p.im) p.unit
    (beBytes a.1 2 ++ beBytes b.1 2, b.2)

/-- The phasor bytes of a C37.118.2 frame. -/
def State.c37Phasors (s : State) : List PhOut → List Byte × State
  | [] => ([], s)
  | p :: t =>
    let a := s.c37Phasor p
    let b := State.c37Phasors a.2 t
    (a.1 ++ b.1, b.2)

/-- R328. The C37.118.2 data frame. -/
def State.phuC37 (s : State) (frame stat : Nat) (out : List PhOut) (fvalid : Bool) (freq rocof : Nat) : List Byte × State :=
  let fs := s.phuFs
  let ph := s.c37Phasors out
  let f := if s.bit PHU_C37CFG_FRQFLT then beBytes freq 4 ++ beBytes rocof 4
    else if fvalid then beBytes (int16 ((floatRat freq - (s.phuF0 : Nat)) * 1000)) 2 ++ beBytes (int16 (floatRat rocof * 100)) 2
    else beBytes 0x8000 2 ++ beBytes 0x8000 2
  let tq := bitsOf (s.rdN PHU_TQ) 8 3 * 16 + s.phuTq.2
  let body := beBytes (frame / fs) 4 ++ beBytes tq 1 ++ beBytes ((frame % fs * 2000000 + fs) / (2 * fs)) 3 ++ beBytes stat 2 ++ ph.1 ++ f
  let msg := beBytes 0xAA 1 ++ beBytes (s.fld PHU_C37CFG_VER) 1 ++ beBytes (body.length + 8) 2 ++ beBytes (s.fld PHU_C37CFG_IDCODE) 2 ++ body
  (msg ++ beBytes (crcCcitt 0xFFFF msg) 2, ph.2)

/-- R324. A frame is written to ring 16, or dropped. -/
def State.phuWrite (s : State) (bytes : List Byte) : State :=
  let r := s.ringRecord 16 bytes []
  if r.2 then r.1.incr PHU_FRCNT else (r.1.count PHU_FRDROP).evtPhu PHU_EVT_FRDROP 0xFF

/-- R322–R328. A frame is written in the form that PHU_CTRL.FMT selects. -/
def State.phuFormat (s : State) (frame stat : Nat) (out : List PhOut) (fv : Bool) (fr : Nat × Nat) : State :=
  if s.bit PHU_CTRL_FMT then
    let b := s.phuC37 frame stat out fv fr.1 fr.2
    b.2.phuWrite b.1
  else s.phuWrite (s.phuNative frame stat out fr.1 fr.2)

/-- R339. CHINVAL of the channels whose results are invalid in a complete window. -/
def State.phuInvalid (s : State) (w : Nat × Nat) (complete : Bool) : State :=
  if complete then forL (s.phuChans.filter (fun n => s.chanState w n == 2)) (fun n t => t.evtPhu PHU_EVT_CHINVAL n) s else s

/-- R318, R322–R328. A frame is reported: skipped where its window is not complete and EMITBAD is 0, else written. `up`: which
float32 neighbours its phasors, its frequency and its ROCOF take (log entry 47). -/
def State.phuReport (s : State) (frame : Nat) (w : Nat × Nat) (complete : Bool) (up : List Bool × Bool × Bool) : State :=
  if !s.bit PHU_STATUS_EMIT then s
  else if !complete && !s.bit PHU_CTRL_EMITBAD then (s.count PHU_FRSKIP).evtPhu PHU_EVT_FRSKIP 0xFF
  else
    let fv := s.freqValid complete w
    let f := s.phuFreq w
    let fr := if fv then (floatOf up.2.1 f.1, floatOf up.2.2 f.2) else (quietNaN, quietNaN)
    let xs := if complete then s.estimates frame w (if fv then some f.1 else none) else []
    let out := s.phuOut complete w (floatsOf up.1 xs)
    let interp := complete && s.phuChans.any (fun n => s.chanState w n == 1)
    let s := s.phuInvalid w complete
    s.phuFormat frame (s.phuStat frame (!fv || out.any (fun p => !p.valid)) interp) out fv fr

/-- R317–R328. A frame falls due and its window is over. -/
def State.phuFrame (s : State) (up : List Bool × Bool × Bool) : State :=
  let frame := s.phu.frame
  let w := s.phuWindow frame
  if s.bit PHU_STATUS_RUN && decide (w.2 ≤ s.phu.last) then
    let complete := s.phuComplete w
    let s := s.updPhu (fun p => { p with frame := p.frame + 1 })
    let s := if complete then s.setB PHU_STATUS_FILL false else s
    (s.phuReport frame w complete up).updPhu (fun p => { p with marks := p.marks.filter (fun e => decide (frame < e.1)) })
  else s

/-- R324. PHU_FRAME_EMIT. -/
def execPhuFrameEmit (phasors : List Bool) (freq rocof : Bool) (s : State) : Host.Outcome State Fault Refusal :=
  .next (s.phuFrame (phasors, freq, rocof))

/-- R318. The whole history is rebuilt. The frames before `next` have fallen due and their windows are not complete. -/
def State.phuRebuild (s : State) (next : Nat) : State :=
  if s.bit PHU_STATUS_RUN then
    let f := s.phu.frame
    (forN (next - f) (fun i t => t.phuReport (f + i) (0, 0) false ([], false, false)) s).phuFresh
  else s

/-- R338. The history is rebuilt after a warm reset. -/
def State.phuWarm (s : State) : State := s.phuRebuild s.frameNext

/-- R318. A time step or set has been applied; `next` is the first frame that had not fallen before it. -/
def State.phuStep (s : State) (next : Nat) : State :=
  if s.bit PHU_STATUS_RUN then (s.phuRebuild next).evtPhu PHU_EVT_STEP 0xFF else s

/-- R319, R325, R326, R339. PHU_STATUS as it reads: while the PHU runs, STAT bit 13, the time qualities and GUARDPART are those of
now; without RUN there is no STAT and they read 0 (log entry 47). -/
def State.phuStatusNow (s : State) : Nat :=
  if !s.bit PHU_STATUS_RUN then s.rdN PHU_STATUS
  else
  let part := s.bit GLB_CYCCFG_PIPE && s.bit GLB_STATUS_CTRL_RUN && decide (s.cycleTicks < 2643)
  let w := putBits (s.rdN PHU_STATUS) 12 1 (if s.bit GLB_STATUS_NTMLOCK then 0 else 1)
  putBits (putBits (putBits w 8 4 s.phuTq.2) 4 3 s.phuTq.1) 7 1 (if part then 1 else 0)

end Sys2Proof.Machine
end

