-- ==== Sys2Proof/Machine/Twu.lean ====
section
/-!
DEFINITION. The travelling-wave unit (R330–R337): arming, the modal trigger, arrival stamps and reflections, records and
captures, and double-ended location. The samples it works on stand in the capture bank; the operands of a command say what the
newest ones are.
-/

namespace Sys2Proof.Machine

/-- An event of TWU_EVT: sources 0xA8–0xB0. -/
def State.evtTwu (s : State) (f : Fld) : State := s.evt f 0xA8 0xFF

/-! ### Arming (R331) -/

/-- R331. The TWU is armed. -/
def State.twArmed (s : State) : Bool := s.bit TWU_CTRL_EN && (s.bit TWU_CTRL_CONT || decide (s.tick < s.twu.armEnd))

/-- R331. TWU_ARMLEFT as it reads. -/
def State.armLeft (s : State) : Nat :=
  if s.bit TWU_CTRL_CONT then 0xFFFFFFFF else min 0xFFFFFFFF ((s.twu.armEnd - s.tick + 499) / 500)

/-- R331. The stream carries the channels in a mask. -/
def State.twStream (s : State) (mask : Nat) : Bool :=
  s.bit ADC_FSTAT_RUNNING && (bitsIn 4 mask).all (fun c => bitOf (s.fld ADC_FCTRL_CHEN) c)

/-- R331. The channels that an armed TWU needs. -/
def State.twMask (s : State) : Nat := if s.bit TWU_CTRL_AUXTRIG then 15 else 7

/-- R331. TW_ARM. -/
def State.twArm (s : State) (mask window : Nat) : State :=
  if !s.twStream mask then s.evtTwu TWU_EVT_NOSTREAM
  else
    let e := if window = 0 then s.tick else max s.twu.armEnd (s.tick + us window)
    let s := (s.updTwu (fun t => { t with armEnd := e })).unsched (· == .twArmExpire)
    let s := if s.tick < e then s.schedAt e .twArmExpire else s
    s.setB TWU_STATUS_ARMED s.twArmed

/-- R331. TW_ARM. -/
def execTwArm (mask : BitVec 4) (window : Word) (s : State) : Host.Outcome State Fault Refusal :=
  .next (s.twArm mask.toNat window.toNat)

/-- R331. TW_ARM_EXPIRE. -/
def execTwArmExpire (s : State) : Host.Outcome State Fault Refusal := .next (s.setB TWU_STATUS_ARMED s.twArmed)

/-- R342. A write of TWU_CTRL: MODE and LAGM1 change only while EN is 0. -/
def State.twuCtrl (s : State) (w : Nat) : State :=
  let mode := if bitsOf w 4 2 = 3 then 0 else bitsOf w 4 2
  let lag := bitsOf w 8 3
  let bad := s.bit TWU_CTRL_EN && (mode != s.fld TWU_CTRL_MODE || lag != s.fld TWU_CTRL_LAGM1)
  let s := if bad then s.evtTwu TWU_EVT_CFGREF else (s.setF TWU_CTRL_MODE mode).setF TWU_CTRL_LAGM1 lag
  let s := s.setF ⟨TWU_CTRL, 0, 4⟩ (bitsOf w 0 4)
  s.setB TWU_STATUS_ARMED s.twArmed

/-- R342. A write of TWU_WIN or TWU_CHDLYc, refused while EN is 1. -/
def State.twuLocked (s : State) (a w : Nat) : State := if s.bit TWU_CTRL_EN then s.evtTwu TWU_EVT_CFGREF else s.wrN a w

/-! ### Samples (R303, R304) -/

/-- R304. The sample set of an index as it stands in the capture bank. -/
def State.fastSet (s : State) (j : Nat) : FastSet :=
  let w (c : Nat) : BitVec 16 := BitVec.ofNat 16 (s.memN (fastAddr c j) 2)
  ⟨w 0, w 1, w 2, w 3⟩

/-- R304. The sample sets from index `j` on are these, in the channels of CHEN. -/
def State.putSets (s : State) (j : Nat) (xs : List FastSet) : State :=
  if s.bit ADC_FSTAT_RUNNING then
    forL ((upto xs.length).zip xs) (fun e t => forL (bitsIn 4 (t.fld ADC_FCTRL_CHEN)) (fun c u =>
      u.setMemN (fastAddr c (j + e.1)) 2 (if c = 0 then e.2.t0 else if c = 1 then e.2.t1 else if c = 2 then e.2.t2 else e.2.t3).toNat) t) s
  else s

/-- R304. The oldest sample index that stands in the bank. -/
def State.fastFirst (s : State) : Nat := s.fcount - 262144

/-! ### Modes and derivatives (R330, R332) -/

/-- R303. The code of a sample word. -/
def sampleCode (w : BitVec 16) : Int := toSigned 14 (w.toNat / 4)

/-- R330. The aerial modes of a sample set, scaled: 3 α, √3 β, and TWIN3 (modes 0, 1, 2). -/
def modal (mode : Nat) (x : FastSet) : Int :=
  if mode = 0 then 2 * sampleCode x.t0 - sampleCode x.t1 - sampleCode x.t2
  else if mode = 1 then sampleCode x.t1 - sampleCode x.t2
  else sampleCode x.t3

/-- The square of the scale of `modal`. -/
def modalK (mode : Nat) : Nat := if mode = 0 then 9 else if mode = 1 then 3 else 1

/-- R332. A scaled derivative reaches a threshold in codes. -/
def reaches (mode : Nat) (d : Int) (thr : Nat) : Bool := decide (modalK mode * thr * thr ≤ d.natAbs * d.natAbs)

/-- R332. The larger of two derivatives in modes; the first on a tie. -/
def largerMode (a b : Nat × Int) : Nat × Int :=
  if a.2.natAbs * a.2.natAbs * modalK b.1 < b.2.natAbs * b.2.natAbs * modalK a.1 then b else a

/-- R330. The modes that may trigger. -/
def State.twModes (s : State) : List Nat :=
  (if s.fld TWU_CTRL_MODE = 2 then [] else [0]) ++ (if s.fld TWU_CTRL_MODE = 1 then [] else [1]) ++
    (if s.bit TWU_CTRL_AUXTRIG then [2] else [])

/-- R332. A trigger at sample `j`, in the mode of the largest derivative: POST begins, and what the record needs of this tick
is latched. -/
def State.twStart (s : State) (j mode : Nat) : State :=
  let e : TwEvent := ⟨j, mode, s.tick, s.ntm.exact, s.ntmEff, s.stepGen, s.rdN NTM_HOLD, s.ntmState, s.bit TWU_CTRL_CONT⟩
  (s.updTwu (fun t => { t with event := some e })).setB TWU_STATUS_POST true

/-- R330–R332. The trigger at the newest sample of the stream. -/
def State.twTriggerNow (s : State) : State :=
  let lag := s.fld TWU_CTRL_LAGM1 + 1
  let ok := s.twArmed && !s.bit TWU_STATUS_POST && !s.bit TWU_STATUS_HOLDOFF && s.twuBank && s.twStream s.twMask &&
    decide (s.fstart + 5 * lag ≤ s.tick)
  if ok then
    let j := (s.tick - s.fstart) / 5
    match s.twModes.map (fun m => (m, modal m (s.fastSet j) - modal m (s.fastSet (j - lag)))) with
    | [] => s
    | h :: t =>
      let best := t.foldl largerMode h
      if reaches best.1 best.2 (s.fld TWU_THR_THR) then s.twStart j best.1 else s
  else s

/-- R332. The newest sample sets of the stream are these, oldest first; whether they trigger. -/
def State.twTrigger (s : State) (xs : List FastSet) : State := (s.putSets (s.fcount - xs.length) xs).twTriggerNow

/-- R332. TW_TRIGGER: the newest sample sets of this tick, oldest first. -/
def execTwTrigger (xs : List FastSet) (s : State) : Host.Outcome State Fault Refusal := .next (s.twTrigger xs)

/-! ### Arrival stamps (R333, R334) -/

/-- R333. The first peak from sample `j`, within `n` samples; none if there is none. -/
def firstPeak (d : Nat → Int) (j : Nat) : Nat → Option Nat
  | 0 => none
  | n + 1 =>
    if (d (j - 1)).natAbs ≤ (d j).natAbs ∧ (d (j + 1)).natAbs < (d j).natAbs then some j else firstPeak d (j + 1) n

/-- R333. The last crossing of the level `a`/`b` of the peak magnitude `p` before sample `j`, back over `n` samples, as a
sample position; none if there is none. -/
def lastCross (d : Nat → Int) (p a b j : Nat) : Nat → Option Rat
  | 0 => none
  | n + 1 =>
    let x := (d (j - 1)).natAbs
    let y := (d j).natAbs
    if x * b < p * a ∧ p * a ≤ y * b then
      some (((j : Nat) : Rat) - 1 + (((p * a : Nat) : Rat) / (b : Nat) - (x : Nat)) / ((y - x : Nat) : Rat))
    else lastCross d p a b (j - 1) n

/-- R333. A front: its peak sample, the scaled peak with its sign, and the position of its arrival. -/
structure Front where
  jp : Nat
  peak : Int
  pos : Rat
deriving DecidableEq, Repr

/-- R333. The front whose search begins at sample `j`. Without a peak within 32 samples, or without a crossing of P / 2 in the
samples, the spec names none (free values). -/
def State.front (s : State) (d : Nat → Int) (j first : Nat) : Front × State :=
  let r := match firstPeak d j 33 with
    | some p => (p, s)
    | none => let q := s.free 33; (j + q.1, q.2)
  let p := r.1
  match lastCross d (d p).natAbs 1 2 p (p - first) with
  | some x => (⟨p, d p, x⟩, r.2)
  | none => let q := r.2.free 33; (⟨p, d p, ((p - q.1 : Nat) : Rat)⟩, q.2)

/-- R333. The delay of a mode's channels in sixteenths of a nanosecond: the mean of TWIN0–TWIN2, or TWIN3. -/
def State.twDelay (s : State) (mode : Nat) : Rat :=
  let d (c : Nat) : Int := toSigned 16 (s.rdN (TWU_CHDLY c) % 65536)
  if mode = 2 then (d 3 : Int) else ((d 0 + d 1 + d 2 : Int) : Rat) / 3

/-- R333. The network time of a sample position in units of 1/256 ns, to the nearest. -/
def State.twTime (s : State) (e : TwEvent) (pos : Rat) : Nat :=
  let lag := s.fld TWU_CTRL_LAGM1 + 1
  let tick : Rat := (s.fstart : Nat) + 5 * (pos - ((lag : Nat) : Rat) / 2) - s.twDelay e.mode / 32
  let t : Rat := (e.time : Nat) + (tick - (e.tick : Nat)) * (e.inc : Int)
  (t / (2 ^ 24 : Nat) + 1 / 2).floor.toNat

/-- A scaled magnitude in codes, to the nearest. -/
def inCodes (mode : Nat) (d : Int) : Nat := (Nat.sqrt (4 * d.natAbs * d.natAbs / modalK mode) + 1) / 2

/-- R333. Quality: P / σ_n, to the nearest, at most 255; σ_n is at least 1 code. -/
def quality (mode : Nat) (d : Nat → Int) (peak : Int) (jt : Nat) : Nat :=
  let sum := (upto 256).foldl (fun a i => a + (d (jt - 1 - i)).natAbs * (d (jt - 1 - i)).natAbs) 0
  let x := 4 * peak.natAbs * peak.natAbs * 256 / max sum (256 * modalK mode)
  min 255 ((Nat.sqrt x + 1) / 2)

/-- R334. Fronts of at least REFTHR from sample `j` up to sample `e`, at most `n`. -/
def State.reflections (d : Nat → Int) (mode thr e first : Nat) : Nat → Nat → Nat → State → List Front × State
  | 0, _, _, s => ([], s)
  | _, 0, _, s => ([], s)
  | fuel + 1, n + 1, j, s =>
    if e < j then ([], s)
    else if reaches mode (d j) thr then
      let f := s.front d j first
      let r := State.reflections d mode thr e first fuel n (f.1.jp + 32) f.2
      (f.1 :: r.1, r.2)
    else State.reflections d mode thr e first fuel (n + 1) (j + 1) s

/-- R334, R337. A distance in 0.1 m from a velocity in m/ms and a time in units of 1/256 ns, halved. -/
def halfDist (v t : Nat) : Int := roundAway (((v * t : Nat) : Rat) / ((2 * 256 * 100000 : Nat) : Rat))

/-! ### Records (R335, R336) -/

/-- R335. The 12 bytes of a reflection. -/
def State.reflBytes (s : State) (e : TwEvent) (t1 : Nat) (f : Front) : List Byte :=
  let dt := s.twTime e f.pos - t1
  leBytes ((dt * 2 + 16) / 32) 4 ++ leBytes (halfDist (s.rdN TWU_VEL) dt).toNat 4 ++
    leBytes (ofSigned 16 (satSigned 16 (if f.peak < 0 then -(inCodes e.mode f.peak : Int) else inCodes e.mode f.peak))) 2 ++ leBytes 0 2

/-- R330. The difference of an event's mode over the lag at a sample. -/
def State.twDiff (s : State) (mode : Nat) (get : Nat → FastSet) (j : Nat) : Int :=
  modal mode (get j) - modal mode (get (j - (s.fld TWU_CTRL_LAGM1 + 1)))

/-- R332. The last sample of POST. -/
def State.twStop (s : State) (e : TwEvent) : Nat := e.jt + 100 * s.fld TWU_WIN_POST

/-- R335. Whether a bit of some channel is set in one of `n` sample sets from `j` on. -/
def setsWith (get : Nat → FastSet) (b j n : Nat) : Bool :=
  (upto n).any (fun i => bitOf (get (j + i)).t0.toNat b || bitOf (get (j + i)).t1.toNat b || bitOf (get (j + i)).t2.toNat b)

/-- R335. The clipping flag of an event. -/
def twClip (e : TwEvent) (get : Nat → FastSet) (f : Front) : Bool := setsWith get 1 (e.jt - 16) (f.jp + 33 - e.jt)

/-- R333. The rise from a tenth to nine tenths of the peak, in hundredths of a sample. -/
def twRise (d : Nat → Int) (f : Front) (first : Nat) : Rat :=
  match lastCross d f.peak.natAbs 9 10 f.jp (f.jp - first), lastCross d f.peak.natAbs 1 10 f.jp (f.jp - first) with
  | some hi, some lo => (hi - lo) * 100
  | _, _ => 0

/-- R335. FLAGS of a record. -/
def State.twFlags (s : State) (e : TwEvent) (get : Nat → FastSet) (f : Front) : Nat :=
  (if twClip e get f then 1 else 0) + (if setsWith get 0 e.jt (s.twStop e + 1 - e.jt) then 2 else 0) +
    (if e.ntm = ntmLocked then 0 else 4) + (if e.ntm = ntmHoldover then 8 else 0) +
    (if s.bit TWU_CTRL_CAPEN && !s.bit TWU_STATUS_COPY then 16 else 0) +
    (if s.bit TWU_CTRL_CAPEN && !s.bit TWU_STATUS_COPY && decide (e.jt - 100 * s.fld TWU_WIN_PRE < s.fastFirst) then 32 else 0) +
    (if e.mode = 2 then 64 else 0) +
    (if e.mode = 1 then 128 else 0) + (if e.cont then 256 else 0)

/-- R335. The 128 bytes of a record. -/
def State.twBytes (s : State) (e : TwEvent) (get : Nat → FastSet) (first : Nat) (f : Front) (rs : List Front) : List Byte :=
  let d := s.twDiff e.mode get
  let t1 := s.twTime e f.pos
  let refl := rs.flatMap (s.reflBytes e t1)
  leBytes (s.rdN TWU_RECID) 4 ++ leBytes (s.twFlags e get f) 2 ++ leBytes e.gen 1 ++ leBytes rs.length 1 ++
    leBytes (t1 / 256000000000) 6 ++ leBytes 0 2 ++ leBytes (t1 / 256 % 1000000000) 4 ++ leBytes t1 1 ++
    leBytes (if f.peak < 0 then 0xFF else 1) 1 ++ leBytes (quality e.mode d f.peak e.jt) 1 ++ leBytes 0 1 ++
    leBytes (min 65535 (inCodes e.mode f.peak)) 2 ++ leBytes (min 65535 (roundAway (twRise d f first)).toNat) 2 ++
    leBytes e.hold 4 ++ refl ++ List.replicate (96 - refl.length) 0#8

/-- R336. The waveform of an event is copied, unless a copy runs. -/
def State.twCopy (s : State) (e : TwEvent) (get : Nat → FastSet) : State :=
  if !s.bit TWU_CTRL_CAPEN then s
  else if s.bit TWU_STATUS_COPY then (s.count TWU_CAPSKIP).evtTwu TWU_EVT_CAPSKIP
  else
    let mask := s.fld ADC_FCTRL_CHEN
    let from_ := e.jt - 100 * s.fld TWU_WIN_PRE
    let word (x : FastSet) (c : Nat) : Nat := (if c = 0 then x.t0 else if c = 1 then x.t1 else if c = 2 then x.t2 else x.t3).toNat
    let data := (upto (s.twStop e + 1 - from_)).flatMap (fun i => (bitsIn 4 mask).flatMap (fun c => leBytes (word (get (from_ + i)) c) 2))
    (s.updTwu (fun t => { t with copy := some ⟨s.rdN TWU_RECID, from_, 2 * (bitsIn 4 mask).length, mask, data⟩ })).setB
      TWU_STATUS_COPY true

/-- R335, R336. The record of an event: its number, its place in ring 17, and what it counts and flags. -/
def State.twEmit (s : State) (e : TwEvent) (get : Nat → FastSet) (first : Nat) (f : Front) (rs : List Front) : State :=
  let s := s.incr TWU_RECID
  let bytes := s.twBytes e get first f rs
  let t1 := s.twTime e f.pos
  let rec_ : TwRec := ⟨s.rdN TWU_RECID, s.twFlags e get f, t1, e.hold⟩
  let s := s.updTwu (fun t => { t with event := none, recs := (rec_ :: t.recs).take 16
                                       firsts := t1 :: t.firsts.filter (fun x => decide (t1 ≤ x + 4 * 256000000000)) })
  let r := s.ringRecord 17 bytes []
  let s := if r.2 then r.1 else (r.1.count TWU_RECDROP).evtTwu TWU_EVT_RECDROP
  let s := (s.count TWU_TRIGCNT).evtTwu TWU_EVT_TRIG
  if twClip e get f then s.evtTwu TWU_EVT_CLIP else s

/-- R332–R336. POST ends: the record, and the copy of the waveform. `get` gives the sample sets. -/
def State.twRecord (s : State) (e : TwEvent) (get : Nat → FastSet) (first : Nat) : State :=
  let d := s.twDiff e.mode get
  let fr := s.front d e.jt first
  let stop := s.twStop e
  let rf := State.reflections d e.mode (s.fld TWU_THR_REFTHR) stop first (stop + 1) 7 (fr.1.jp + 32) fr.2
  (rf.2.twEmit e get first fr.1 rf.1).twCopy e get

/-- R332. POST ends for the event in progress. -/
def State.twPostNow (s : State) : State :=
  match s.twu.event with
  | none => s
  | some e =>
    let stop := s.fstart + 5 * e.jt + us (s.fld TWU_WIN_POST)
    if s.tick < stop then s
    else
      let s := (s.twRecord e s.fastSet s.fastFirst).setB TWU_STATUS_POST false
      (s.setB TWU_STATUS_HOLDOFF true).schedAt (max s.tick (stop + us (s.rdN TWU_HOLDOFF % 65536))) .twHoldoffEnd

/-- R332. The sample sets from index `first` on are these, and POST ends. -/
def State.twPost (s : State) (first : Nat) (xs : List FastSet) : State := (s.putSets first xs).twPostNow

/-- R332. TW_POST_END. -/
def execTwPostEnd (first : BitVec 64) (xs : List FastSet) (s : State) : Host.Outcome State Fault Refusal :=
  .next (s.twPost first.toNat xs)

/-- R332. TW_HOLDOFF_END. -/
def execTwHoldoffEnd (s : State) : Host.Outcome State Fault Refusal := .next (s.setB TWU_STATUS_HOLDOFF false)

/-- R336. The waveform copy goes to ring 19 when it has a buffer; sample sets that the stream has overwritten are not
copied, and the header and the held record carry OVERRUN. -/
def State.twCapture (s : State) : State :=
  match s.twu.copy with
  | none => s
  | some c =>
    if s.ringLive 19 && !s.ringFull 19 then
      let w := max 1 c.width
      let n := c.data.length / w
      let lost := if s.bit ADC_FSTAT_RUNNING then min n (s.fcount - 262144 - c.first) else 0
      let head := leBytes c.id 4 ++ leBytes 0 4 ++ leBytes (c.first + lost) 8 ++ leBytes (n - lost) 4 ++ leBytes c.mask 1 ++
        leBytes (if 0 < lost then 1 else 0) 1 ++ leBytes 0 10
      let s := s.ringPut 19 (head ++ c.data.drop (lost * w))
      let mark (r : TwRec) : TwRec := if r.id = c.id ∧ 0 < lost ∧ bitOf r.flags 5 = false then { r with flags := r.flags + 32 } else r
      let s := (s.updTwu (fun t => { t with copy := none, recs := t.recs.map mark })).setB TWU_STATUS_COPY false
      if 0 < lost then (s.count TWU_OVERRUN).evtTwu TWU_EVT_OVERRUN else s
    else s

/-- R336. TW_CAPTURE_DONE. -/
def execTwCaptureDone (s : State) : Host.Outcome State Fault Refusal := .next s.twCapture

/-! ### Location (R337) -/

/-- R337. ERR, LOCRES and EST of a location. -/
def State.locate (s : State) : Nat × Int × Nat :=
  match s.twu.recs.find? (fun r => r.id == s.rdN TWU_LOCID) with
  | none => (1, 0, 0)
  | some r =>
    let sec := toSigned 32 (r.time / 256000000000 + 2 ^ 32 - s.rdN TWU_RMT_SECL)
    let dt : Int := sec * 256000000000 + (r.time % 256000000000 : Nat) -
      (bitsOf (s.rdN TWU_RMT_NS) 0 30 * 256 + s.fld TWU_RMT_FRAC_FR : Nat)
    let v := s.rdN TWU_VEL
    let len := s.rdN TWU_LINELEN
    -- |dt| / 256 > len × 10^6 / v + 1000 ns
    if (256000000 * len + 256000 * v : Nat) < dt.natAbs * v then (2, 0, 0)
    else if len = 0 then (3, 0, 0)
    else
      let x : Rat := (((len : Nat) : Rat) + ((v : Nat) : Rat) * (dt : Int) / ((256000000 : Nat) : Rat)) / 2
      let e : Rat := ((v * (50 + r.hold + s.fld TWU_RMT_FRAC_ERR) : Nat) : Rat) / ((2000000 : Nat) : Rat)
      (0, roundAway (x * 10), min 65535 (roundAway (e * 10)).toNat)

/-- R337. A write of TWU_LOCCMD.GO. -/
def State.twLocate (s : State) : State :=
  if s.bit TWU_LOCSTAT_BUSY then s else (s.updTwu (fun t => { t with loc := s.locate })).setB TWU_LOCSTAT_BUSY true

/-- R337. TW_LOCATE. -/
def execTwLocate (m : Master) (s : State) : Host.Outcome State Fault Refusal := .next (s.gate m (fun s => s.twLocate))

/-- R337. The location is complete. -/
def State.locateDone (s : State) : State :=
  if s.bit TWU_LOCSTAT_BUSY then
    let r := s.twu.loc
    let s := (s.setB TWU_LOCSTAT_BUSY false).setF TWU_LOCSTAT_ERR r.1
    if r.1 = 0 then
      (((s.setB TWU_LOCSTAT_VALID true).wrN TWU_LOCRES (ofSigned 32 r.2.1)).setF TWU_LOCSTAT_EST r.2.2).evtTwu TWU_EVT_LOCDONE
    else (s.setB TWU_LOCSTAT_VALID false).evtTwu TWU_EVT_LOCERR
  else s

/-- R337. TW_LOCATE_DONE. -/
def execTwLocateDone (s : State) : Host.Outcome State Fault Refusal := .next s.locateDone

/-- R331, R343. TWU_STATUS as it reads: NOSTREAM and NOBANK are those of now. -/
def State.twuStatusNow (s : State) : Nat :=
  let w := putBits (s.rdN TWU_STATUS) 0 1 (if s.twArmed then 1 else 0)
  putBits (putBits w 4 1 (if s.twuBank then 0 else 1)) 5 1 (if s.twArmed && !s.twStream s.twMask then 1 else 0)

end Sys2Proof.Machine
end

