-- ==== Sys2Proof/Machine/Mem.lean ====
section
/-!
DEFINITION. The SRAM banks: owners and readers (R459–R463), wrong bits (R388, R467, R468), power states (R469–R471), and the
host's BAR4 window and memory commands (R491, R502).
-/

namespace Sys2Proof.Machine

/-- An event of MEM_EVT: sources 0xD8–0xE0. -/
def State.evtMem (s : State) (f : Fld) (inst : Nat) : State := s.evt f 0xD8 inst

/-! ### Banks (R459) -/

/-- A number as a bank index. -/
def bankIx (n : Nat) : Fin 21 := ⟨n % 21, Nat.mod_lt _ (by decide)⟩

/-- Bytes of memory from an address on are lost: they read as nothing has written. -/
def State.clearRange (s : State) (a n : Nat) : State :=
  { s with mem := s.mem.filter (fun e => decide (e.1 < a) || decide (a + n ≤ e.1))
           flips := s.flips.filter (fun e => decide (e.1 < a) || decide (a + n ≤ e.1)) }

/-! ### Owners (R460–R463) -/

/-- R460. Who asks for an access to a bank. -/
inductive Asker where
  | eng (e : Nat)
  | host
  | hif
  | twu

/-- R460. Whether the asker owns a bank. -/
def State.ownsBank (s : State) (n : Nat) (who : Asker) : Bool :=
  let k := s.fld (MEM_OWN_KIND n)
  match who with
  | .eng e => k == 0 && bitOf (s.fld (MEM_OWN_EMASK n)) e
  | .host => k == 1
  | .hif => k == 2
  | .twu => k == 3

/-- R460. Whether the asker may write or read a bank. -/
def State.mayAccess (s : State) (n : Nat) (who : Asker) (write : Bool) : Bool :=
  s.ownsBank n who ||
    (!write && (match who with
      | .eng e => bitOf (s.fld (MEM_RD_ENG n)) e
      | .host => s.bit (MEM_RD_HOST n)
      | _ => false))

/-- R461. A refused access of BAR4, HIF or TWU. -/
def State.ownRefused (s : State) (n : Nat) : State := (s.count MEM_OWNREFCNT).evtMem MEM_EVT_OWNREF n

/-- R463. Whether a write of MEM_OWNn is refused. -/
def State.ownBad (s : State) (n w : Nat) : Bool :=
  let kind := bitsOf w 28 4
  let mask := bitsOf w 0 16
  s.bit (MEM_BSTAT_DRAIN n) || (decide (n < 16) && s.bit (BOB_CTRL_EN n)) || decide (3 < kind) ||
    (kind == 0 && (mask == 0 || !bitOf mask (bitsOf w 24 4))) || (kind == 3 && decide (17 ≤ n) && decide (n ≤ 19))

/-- R463. The order of the masters that write one MEM_OWNn in the same tick. -/
def masterRank : Master → Nat
  | .thimble => 0
  | .host => 1
  | .eng e _ => 2 + e.val

/-- R462. An accepted write of MEM_OWNn: the bank stops serving the old owner and drains. -/
def State.ownTake (s : State) (m : Master) (n w : Nat) : State :=
  let s := s.updBank (fun b => { b with taken := tput none b.taken n (some (s.tick, masterRank m, s.rdN (MEM_OWN n))) })
  let s := (s.wrN (MEM_OWN n) (putBits w 16 8 0)).setB (MEM_BSTAT_DRAIN n) true
  if n = 20 ∧ bitsOf w 28 4 ≠ 3 then s.streamOwnStop else s

/-- R463. The owner of a bank before a write accepted in this tick from a master that this one goes before. -/
def State.ownBefore (s : State) (m : Master) (n : Nat) : Option Nat :=
  match tget none s.bank.taken n with
  | some (t, r, old) => if t = s.tick ∧ masterRank m < r then some old else none
  | none => none

/-- R462, R463. A write of MEM_OWNn: from an engine only the home engine of the owner. Of several in one tick the first in the order
Thimble, host, engines is taken. -/
def State.ownWrite (s : State) (m : Master) (n w : Nat) : State :=
  let mine := match m with
    | .eng e _ => s.fld (MEM_OWN_KIND n) == 0 && s.fld (MEM_OWN_HOME n) == e.val
    | _ => true
  let back := match s.ownBefore m n with
    | some old => (s.wrN (MEM_OWN n) old).setB (MEM_BSTAT_DRAIN n) false
    | none => s
  if !mine then s
  else if back.ownBad n w then s.evtMem MEM_EVT_OWNBUSY n
  else
    let s := if (s.ownBefore m n).isSome then back.evtMem MEM_EVT_OWNBUSY n else s
    s.ownTake m n w

/-- The commands that wait for a bank go on. -/
def State.bankServe (s : State) (n : Nat) : State :=
  let mine := s.bank.waits.filter (fun e => e.1 == n)
  let s := s.updBank (fun b => { b with waits := b.waits.filter (fun e => e.1 != n) })
  forL mine (fun e t => t.sched 0 e.2) s

/-- R306, R462. The drain ends: LOADED of an engine bank's engine clears, and the new owner goes on; so does a fast stream whose
RUN is set and whose bank it now is. -/
def State.drainEnd (s : State) (n : Nat) : State :=
  if s.bit (MEM_BSTAT_DRAIN n) then
    let s := (s.setB (MEM_BSTAT_DRAIN n) false).evtMem MEM_EVT_OWNCHG n
    let s := if n < 16 then s.setB (BOB_STATUS_LOADED n) false
      else if n = 20 ∧ s.bit ADC_FCTRL_RUN = true ∧ s.bit ADC_FSTAT_RUNNING = false then s.streamStart else s
    s.bankServe n
  else s

/-! ### Power (R469–R471) -/

/-- R483. The codes of PSTATE. -/
def psOn : Nat := 0
def psRet : Nat := 1
def psOff : Nat := 2
def psWaking : Nat := 3
def psInit : Nat := 4

def State.pstate (s : State) (n : Nat) : Nat := s.fld (MEM_BSTAT_PSTATE n)

/-- R482, R483. PSTATE of a bank, and its bit in MEM_STATUS. -/
def State.setPstate (s : State) (n p : Nat) : State := (s.setF (MEM_BSTAT_PSTATE n) p).setBit MEM_STATUS n (p != 0)

/-- The transition in progress. -/
def State.bankGo (s : State) (n : Nat) : BankGo := tget .none s.bank.go n
def State.setGo (s : State) (n : Nat) (g : BankGo) : State := s.updBank (fun b => { b with go := tput .none b.go n g })

/-- R469. A transition starts and ends `d` ticks on. -/
def State.bankStart (s : State) (n : Nat) (g : BankGo) (d : Nat) : State := (s.setGo n g).sched d (.bankPowerDone (bankIx n))

/-- R469. A request acts on a bank without a transition in progress. -/
def State.bankTo (s : State) (n req : Nat) : State :=
  let p := s.pstate n
  if req = 0 then
    if p = psRet then (s.setPstate n psWaking).bankStart n .wakeRet (us 8)
    else if p = psOff then (s.setPstate n psWaking).bankStart n .wakeOff (us 20)
    else s
  else if req = 1 then (if p = psOn then s.bankStart n .toRet (us 1) else s)
  else if p = psOn ∨ p = psRet then s.bankStart n .toOff (us 1)
  else s

/-- R469. A request to a bank: it acts at once, or after the transition in progress. -/
def State.bankReq (s : State) (n req : Nat) : State :=
  if s.bankGo n = .none then s.bankTo n req
  else s.updBank (fun b => { b with again := if b.again.contains n then b.again else n :: b.again })

/-- R469, R470. A write of MEM_PWRn. A refused request leaves REQ as it was. -/
def State.pwrWrite (s : State) (n w : Nat) : State :=
  let req := min 2 (bitsOf w 0 2)
  let s := (s.setF (MEM_PWR_AUTOWAKE n) (bitsOf w 8 1)).setF (MEM_PWR_QUIET n) (min 2 (bitsOf w 4 2))
  if req ≠ 0 ∧ ((n < 16 ∧ s.bit (BOB_CTRL_EN n) = true) ∨ (n = 20 ∧ s.bit ADC_FCTRL_RUN = true)) then s.evtMem MEM_EVT_PWRREF n
  else (s.setF (MEM_PWR_REQ n) req).bankReq n req

/-- R469. A bank has reached OFF: its contents are lost, and with them the section of its engine (log entry 42). -/
def State.bankLost (s : State) (n : Nat) : State :=
  let s := s.clearRange (bankBase n) (bankSize n)
  if n < 16 then s.setB (BOB_STATUS_LOADED n) false else s

/-- R469. A transition is over: a request that came meanwhile acts, and waiting commands go on at ON. -/
def State.bankSettled (s : State) (n : Nat) : State :=
  let s := s.setGo n .none
  let s := if s.pstate n = psOn then s.bankServe n else s
  if s.bank.again.contains n then
    (s.updBank (fun b => { b with again := b.again.filter (· != n) })).bankTo n (s.fld (MEM_PWR_REQ n))
  else s

/-- R469. A step of a power transition completes. -/
def State.bankDone (s : State) (n : Nat) : State :=
  match s.bankGo n with
  | .none => s
  | .toRet => (s.setPstate n psRet).bankSettled n
  | .toOff => ((s.setPstate n psOff).bankLost n).bankSettled n
  | .wakeRet => (s.setPstate n psOn).bankSettled n
  | .wakeOff => (s.setPstate n psInit).bankStart n .init (bankSize n / 16)
  | .init => (s.setPstate n psOn).bankSettled n

/-! ### Access (R461, R462, R470) -/

/-- What becomes of an access to a bank. -/
inductive BankAns where
  | ok
  | refused
  | wait
  | off
deriving DecidableEq, Repr

/-- R461, R462, R470. The answer to an access: ownership, the drain, the power state. -/
def State.bankAns (s : State) (n : Nat) (who : Asker) (write : Bool) : BankAns :=
  if !s.mayAccess n who write then .refused
  else if s.bit (MEM_BSTAT_DRAIN n) then .wait
  else if s.pstate n = psOn then .ok
  else if s.bit (MEM_PWR_AUTOWAKE n) && (s.pstate n == psRet || s.bankGo n == .wakeRet) then .wait
  else .off

/-- R470. An access wakes a bank in RET; MEM_WAKECNT counts once per wake. -/
def State.autoWake (s : State) (n : Nat) : State :=
  if s.pstate n = psRet ∧ s.bit (MEM_BSTAT_DRAIN n) = false then
    if s.bankGo n = .none then (s.count MEM_WAKECNT).bankTo n 0
    else s.updBank (fun b => { b with again := if b.again.contains n then b.again else n :: b.again })
  else s

/-- A command waits for a bank. -/
def State.bankWait (s : State) (n : Nat) (c : Instr) : State :=
  (s.autoWake n).updBank (fun b => { b with waits := b.waits ++ [(n, c)] })

/-! ### Wrong bits (R467, R468) -/

/-- R467. One word with wrong bits has been read from a bank: correctable ones are corrected and written back. The syndrome
is a free value. -/
def State.eccWord (s : State) (n a k : Nat) : State :=
  let r := s.free 256
  let s := (r.2.wrN MEM_ERRADDR a).wrN MEM_ERRINFO ((if k = 1 then 0 else 2 ^ 31) + n * 2 ^ 24 + r.1)
  if k = 1 then
    let s := if s.bank.wb.contains a then s else (s.updBank (fun b => { b with wb := b.wb ++ [a] })).sched 1 .eccWriteback
    (s.count MEM_CECNT).evtMem MEM_EVT_CE n
  else (s.count MEM_UECNT).evtMem MEM_EVT_UE n

/-- R474. One word with wrong bits has been read from the MRAM. -/
def State.nvmWord (s : State) (a k : Nat) : State :=
  let s := s.wrN NVM_ERRADDR (a - 0x50000000)
  if k = 1 then ((s.count NVM_CECNT).setWrong a 0).evt NVM_EVT_CE 0xE8 0xFF else (s.count NVM_UECNT).evt NVM_EVT_UE 0xE8 0xFF

/-- R467, R474. What a read of `n` bytes finds. -/
def State.eccRead (s : State) (a n : Nat) : State :=
  forL (s.flips.filter (fun e => decide (a < e.1 + 4) && decide (e.1 < a + n))) (fun e t =>
    match bankOf e.1 with
    | some b => t.eccWord b e.1 e.2
    | none => if 0x50000000 ≤ e.1 ∧ e.1 < 0x50800000 then t.nvmWord e.1 e.2 else t) s

/-- R467. The oldest corrected word is written back. -/
def State.writeBack (s : State) : State :=
  match s.bank.wb with
  | [] => s
  | a :: t => (s.updBank (fun b => { b with wb := t })).setWrong a 0

/-- R468. A pass of the scrubber over every bank that is ON, and the next one SCRUBPER seconds on. -/
def State.scrub (s : State) : State :=
  let s := if s.bit MEM_CTRL_SCRUBEN then
      forL (s.flips.filter (fun e => (bankOf e.1).any (fun n => s.pstate n == psOn))) (fun e t => t.eccRead e.1 4) s
    else s
  s.timer (500000000 * max 1 (s.fld MEM_CTRL_SCRUBPER)) .scrubPass

/-! ### BAR4 (R491) -/

/-- R491. The engine address of a BAR4 offset. -/
def bar4Addr (off : Nat) : Option Nat :=
  if off < 0x400000 then some (0x10000000 + off)
  else if off < 0x800000 then some (0x20000000 + (off - 0x400000))
  else if off < 0x840000 then some (0x30000000 + (off - 0x800000))
  else if 0x1000000 ≤ off ∧ off < 0x1800000 then some (0x50000000 + (off - 0x1000000))
  else if 0x1800000 ≤ off ∧ off < 0x1A00000 then some (0x60000000 + (off - 0x1800000))
  else none

/-- R491. The parts of an access: offset and length, split at the boundaries of regions and banks. -/
def bar4Parts (off len : Nat) : List (Nat × Nat) :=
  let next := (off / 0x40000 + 1) * 0x40000
  if len = 0 then []
  else if off + len ≤ next ∨ (bar4Addr off).bind bankOf = (bar4Addr next).bind bankOf ∧ ((bar4Addr off).bind bankOf).isSome then [(off, len)]
  else [(off, next - off), (next, off + len - next)]

/-- R164, R257, R491. What the host may write in the cell table and the Stitch tables. -/
def tableWritable (a : Nat) : Bool :=
  (decide (0x30008000 ≤ a) && decide (a < 0x30009800)) || (decide (0x30010000 ≤ a) && decide (a < 0x30010C30)) ||
    (decide (0x30011000 ≤ a) && decide (a < 0x30011300)) || (decide (0x30020000 ≤ a) && decide (a < 0x30040000))

/-- R413. The checkpoint area, while only the redundancy sequencer writes it. -/
def State.ckptLocked (s : State) (a n : Nat) : Bool :=
  s.bit RDN_CTRL_EN && decide (0x1003FFE0 < a + n) && decide (a < 0x10040000)

/-- R491. A refused BAR4 access. -/
def State.bar4Refused (s : State) : State := (s.count HIF_BAR4REF).raise 0x07 0xFD

/-- R238. The cell map entries that a write of `n` bytes touched have changed. -/
def State.mapTouched (s : State) (a n : Nat) : State :=
  forL ((upto 192).filter (fun id => decide (cellMap id < a + n) && decide (a < cellMap id + 0x20))) (fun id t => t.mapChanged id) s

/-- R491. A host write of bytes to the cell table and Stitch tables, at the addresses it may write; whether all were. -/
def State.tableStore (s : State) (a : Nat) (bs : List Byte) : State × Bool :=
  let l := ((upto bs.length).zip bs).map (fun e => (a + e.1, e.2))
  let ok := l.filter (fun e => tableWritable e.1)
  let s := forL ok (fun e t => t.setMemBytes e.1 [e.2]) s
  (s.mapTouched a bs.length, ok.length == l.length)

/-- The bank, if any, whose answer makes the whole access wait. -/
def State.bar4Wait (s : State) (write : Bool) (parts : List (Nat × Nat)) : Option Nat :=
  (parts.filterMap (fun p => (bar4Addr p.1).bind bankOf)).find? (fun n => s.bankAns n .host write == .wait)

/-- R461, R470, R491. One part of a read: its data. -/
def State.bar4ReadPart (s : State) (p : Nat × Nat) : List Byte × State :=
  let none_ := List.replicate p.2 0#8
  match bar4Addr p.1 with
  | none => (none_, s.bar4Refused)
  | some a =>
    match bankOf a with
    | none => (s.memBytes a p.2, s.eccRead a p.2)
    | some n =>
      match s.bankAns n .host false with
      | .ok => (s.memBytes a p.2, s.eccRead a p.2)
      | .refused => (none_, s.ownRefused n)
      | _ => (none_, (s.bar4Refused).evtMem MEM_EVT_PWRACC n)

/-- R461, R470, R491. One part of a write. -/
def State.bar4WritePart (s : State) (p : Nat × Nat) (bs : List Byte) : State :=
  match bar4Addr p.1 with
  | none => s.bar4Refused
  | some a =>
    match bankOf a with
    | none =>
      if a < 0x30040000 then (let r := s.tableStore a bs; if r.2 then r.1 else r.1.bar4Refused) else s.bar4Refused
    | some n =>
      match s.bankAns n .host true with
      | .ok => if s.ckptLocked a p.2 then s.bar4Refused else s.setMemBytes a bs
      | .refused => s.ownRefused n
      | _ => (s.bar4Refused).evtMem MEM_EVT_PWRACC n

/-- R518, R522. Whether BAR4 is served: after READY; in ROM loader mode only shared bank 1. -/
def State.bar4Open (s : State) (off len : Nat) : Bool :=
  s.bit GLB_STATUS_READY ||
    (s.bit BST_STATUS_NOIMG && decide (0x500000 ≤ off) && decide (off + len ≤ 0x600000))

/-- R491, R509, R518. A BAR4 read. -/
def State.bar4Read (s : State) (off len : Nat) (c : Instr) : State :=
  if !s.bar4Open off len then s
  else if s.bit GLB_STATUS_BUSY then s.emit (.hostData off (List.replicate len 0xFF#8))
  else
    let parts := bar4Parts off len
    match s.bar4Wait false parts with
    | some n => s.bankWait n c
    | none =>
      let r := parts.foldl (fun acc p => let q := acc.2.bar4ReadPart p; (acc.1 ++ q.1, q.2)) (([] : List Byte), s)
      r.2.emit (.hostData off r.1)

/-- R491. BAR4_READ. -/
def execBar4Read (off : BitVec 26) (len : Fin 65) (s : State) : Host.Outcome State Fault Refusal :=
  .next (s.bar4Read off.toNat len.val (.bar4Read off len))

/-- R491, R509, R518. A BAR4 write. -/
def State.bar4Write (s : State) (off : Nat) (data : List Byte) (c : Instr) : State :=
  if !s.bar4Open off data.length then s
  else if s.bit GLB_STATUS_BUSY then s.count GLB_REJECT
  else
    let parts := bar4Parts off data.length
    match s.bar4Wait true parts with
    | some n => s.bankWait n c
    | none => forL parts (fun p t => t.bar4WritePart p ((data.drop (p.1 - off)).take p.2)) s

/-- R491. BAR4_WRITE. -/
def execBar4Write (off : BitVec 26) (data : List Byte) (s : State) : Host.Outcome State Fault Refusal :=
  .next (s.bar4Write off.toNat data (.bar4Write off data))

/-! ### MEM_READ and MEM_WRITE (R502) -/

/-- R491, R502. Whether a range lies in one region of R491. -/
def oneRegion (a n : Nat) : Bool :=
  let inside (b z : Nat) : Bool := decide (b ≤ a) && decide (a + n ≤ b + z)
  inside 0x10000000 0x400000 || inside 0x20000000 0x400000 || inside 0x30000000 0x40000 || inside 0x50000000 0x800000 ||
    inside 0x60000000 0x200000

/-- The banks that a range touches. -/
def rangeBanks (a n : Nat) : List Nat :=
  (upto 21).filter (fun b => decide (bankBase b < a + n) && decide (a < bankBase b + bankSize b))

/-- R502. LEN or the range is not as the operation requires. -/
def memCmdBad (a n : Nat) : Bool := n % 4 != 0 || decide (0x400000 < n) || !oneRegion a n

/-- R461, R470. The effect of a host access that a bank refuses. -/
def State.bankRefuse (s : State) (b : Nat) (write : Bool) : State :=
  if s.bankAns b .host write = .refused then s.ownRefused b else (s.bar4Refused).evtMem MEM_EVT_PWRACC b

/-- R502. The first bank of a range that refuses. -/
def State.rangeRefused (s : State) (a n : Nat) (write : Bool) : Option Nat :=
  (rangeBanks a n).find? (fun b => s.bankAns b .host write != .ok)

/-- R502. MEM_READ as it runs: STATUS and RESULT, the data to the host buffer. -/
def State.memRead (s : State) (d : Desc) (a : Nat) : State × Nat × Nat :=
  let n := d.len.toNat
  if memCmdBad a n then (s, 0x11, 0)
  else match s.rangeRefused a n false with
    | some b => (s.bankRefuse b false, 0x13, 0)
    | none => ((s.eccRead a n).emit (.hostData d.addr.toNat (s.memBytes a n)), 0x00, n)

/-- R413, R491, R502, R509. MEM_WRITE as it runs; `data` is what the host buffer held. -/
def State.memWrite (s : State) (d : Desc) (a : Nat) (data : List Byte) : State × Nat × Nat :=
  let n := d.len.toNat
  let table := (List.range n).all (fun i => tableWritable (a + i))
  let op := s.bst.longop.elim 0 (·.1)
  if memCmdBad a n then (s, 0x11, 0)
  else if data.length ≠ n then (s, 0x12, 0)
  else if s.bit GLB_STATUS_BUSY && (op == 1 || op == 3) && (rangeBanks a n).contains 17 then (s, 0x13, 0)
  else match s.rangeRefused a n true with
    | some b => (s.bankRefuse b true, 0x13, 0)
    | none =>
      if s.ckptLocked a n then (s.bar4Refused, 0x13, 0)
      else if (rangeBanks a n).isEmpty && !(decide (a < 0x30040000) && table) then (s.bar4Refused, 0x13, 0)
      else ((s.setMemBytes a data).mapTouched a n, 0x00, n)

/-- A memory command waits for a bank of its range before it starts. -/
def State.memCmdWait (s : State) (ring : Nat) (d : Desc) (a : Nat) (write : Bool) : Option Nat :=
  if s.cmdReady ring d && !memCmdBad a d.len.toNat then
    (rangeBanks a d.len.toNat).find? (fun b => s.bankAns b .host write == .wait)
  else none

/-- R502. MEM_READ. -/
def execMemRead (ring : Fin 8) (d : Desc) (addr : Word) (s : State) : Host.Outcome State Fault Refusal :=
  .next (match s.memCmdWait ring.val d addr.toNat false with
    | some n => s.bankWait n (.memRead ring d addr)
    | none => s.runCmd ring.val d (.memRead ring d addr) (fun s => s.memRead d addr.toNat))

/-- R502. MEM_WRITE. -/
def execMemWrite (ring : Fin 8) (d : Desc) (addr : Word) (data : List Byte) (s : State) : Host.Outcome State Fault Refusal :=
  .next (match s.memCmdWait ring.val d addr.toNat true with
    | some n => s.bankWait n (.memWrite ring d addr data)
    | none => s.runCmd ring.val d (.memWrite ring d addr data) (fun s => s.memWrite d addr.toNat data))

/-! ### Commands of the banks -/

/-- R462. MEM_OWNER_WRITE. -/
def execMemOwnerWrite (m : Master) (n : Fin 21) (w : Word) (s : State) : Host.Outcome State Fault Refusal :=
  .next (s.gate m (fun s => s.ownWrite m n.val w.toNat))

/-- R462. OWNERSHIP_DRAIN_END. -/
def execOwnershipDrainEnd (n : Fin 21) (s : State) : Host.Outcome State Fault Refusal := .next (s.drainEnd n.val)

/-- R469. BANK_POWER_REQUEST. -/
def execBankPowerRequest (m : Master) (n : Fin 21) (w : Word) (s : State) : Host.Outcome State Fault Refusal :=
  .next (s.gate m (fun s => s.pwrWrite n.val w.toNat))

/-- R469. BANK_POWER_DONE. -/
def execBankPowerDone (n : Fin 21) (s : State) : Host.Outcome State Fault Refusal := .next (s.bankDone n.val)

/-- R468. SCRUB_PASS. -/
def execScrubPass (s : State) : Host.Outcome State Fault Refusal := .next s.scrub

/-- R467. ECC_WRITEBACK. -/
def execEccWriteback (s : State) : Host.Outcome State Fault Refusal := .next s.writeBack

/-- R464. STARVE_TIMEOUT: a request of the lowest level has waited more than 1,024 engine cycles. -/
def execStarveTimeout (s : State) : Host.Outcome State Fault Refusal :=
  .next ((s.count MEM_STARVE).evtMem MEM_EVT_STARVE 0xFF)

end Sys2Proof.Machine
end

