-- ==== Sys2Proof/Machine/RegOps.lean ====
section
/-!
DEFINITION. What a write of a word does to the fields of a register by their types (R5, R10, R41), and the value ranges
whose out-of-range writes are stored as another value.
-/

namespace Sys2Proof.Machine

/-- The value that a field stores when `v` is written. -/
def FRow.stored (f : FRow) (v : Nat) : Nat :=
  match f.subs.find? (fun r => decide (r.1 ≤ v) && decide (v ≤ r.2.1)) with
  | some r => r.2.2
  | none => v

/-- R5. The register after a write of `w`, one field. `locked` says that the lock of the register is set. -/
def FRow.merge (f : FRow) (locked : Bool) (w old : Nat) : Nat :=
  let v := bitsOf w f.lo f.width
  let o := bitsOf old f.lo f.width
  match f.ty with
  | .rw => putBits old f.lo f.width (f.stored v)
  | .rwl => if locked then old else putBits old f.lo f.width (f.stored v)
  | .w1c => putBits old f.lo f.width (o - (o &&& v))
  | .w1s => putBits old f.lo f.width (o ||| v)
  | .ro => old
  | .wo => old

/-- R5, R6, R41. The register after a write of `w`: reserved bits stay 0; a 1 to SAT of a counter clears the count too. -/
def RegRow.merge (r : RegRow) (locked : Bool) (w old : Nat) : Nat :=
  if r.counter && bitOf w 31 then 0 else r.fields.foldl (fun acc f => f.merge locked w acc) old

/-- R5. Stores a written word by the field types of its register; an address without a register stores nothing (R6). -/
def State.regStore (s : State) (a : Nat) (locked : Bool) (w : Nat) : State :=
  match regRow a with
  | some r => s.wrN a (r.merge locked w (s.rdN a))
  | none => s

/-- The word that a register would hold after a write, without the effect of the write. -/
def State.regWould (s : State) (a w : Nat) : Nat :=
  match regRow a with
  | some r => r.merge false w (s.rdN a)
  | none => 0

/-- Whether a field has a type under which a write changes it later or at once. -/
def FTy.writable : FTy → Bool
  | .ro => false
  | _ => true

/-- Whether a register has only fields of the type RO. -/
def RegRow.readOnly (r : RegRow) : Bool := r.fields.all (fun f => !f.ty.writable)

end Sys2Proof.Machine
end

