-- ==== Sys2Proof/Machine/Hif.lean ====
section
/-!
DEFINITION. The host interface: ring configuration and doorbells (R494–R498), the command rings (R499–R503), mailboxes (R507),
MSI-X (R492) and the PCIe link (R489, R514).
-/

namespace Sys2Proof.Machine

/-- An event of HIF_EVT: sources 0xF8–0xFB. -/
def State.evtHif (s : State) (f : Fld) : State := s.evt f 0xF8 0xFF

/-! ### Ring states (R495) -/

/-- R495. EN is set: a ring in OFF or DISABLED runs, with both indices at 0. -/
def State.ringEnable (s : State) (r : Nat) : State :=
  let st := s.fld (HIF_RSTAT_STATE r)
  let s := s.setB (HIF_RCFG_EN r) true
  if st = ringOff ∨ st = ringDisabled then
    ((s.setF (HIF_RSTAT_STATE r) ringRun).wrN (HIF_RIDX r) 0).updRing r (fun q => { q with bufs := [] })
  else s

/-- R495. EN is cleared. -/
def State.ringDisable (s : State) (r : Nat) : State :=
  let st := s.fld (HIF_RSTAT_STATE r)
  let s := s.setB (HIF_RCFG_EN r) false
  if st = ringRun then
    let s := s.setF (HIF_RSTAT_STATE r) ringStopping
    if s.fld (HIF_RSTAT_INFLT r) = 0 then s.sched 0 (.ringStopDone (ringIx r)) else s
  else if st = ringError then s.setF (HIF_RSTAT_STATE r) ringDisabled
  else s

/-- R495. Whether the base and the size of a ring can be written. -/
def State.ringIdle (s : State) (r : Nat) : Bool :=
  s.fld (HIF_RSTAT_STATE r) == ringOff || s.fld (HIF_RSTAT_STATE r) == ringDisabled

/-- R493, R495, R515. A write of HIF_RCFGn: LOG2SZ, DIR and CQ only while the ring is idle; DIR only on rings 28–31. -/
def State.rcfgWrite (s : State) (m : Master) (r w : Nat) : State :=
  let new := s.regWould (HIF_RCFG r) w
  let new := if r < 28 then putBit new 29 false else new
  let old := s.rdN (HIF_RCFG r)
  let fixed (v : Nat) : Nat × Nat × Nat := (bitsOf v 29 1, bitsOf v 24 4, bitsOf v 0 3)
  let s' := s.setB (HIF_RCFG_IRQEN r) (bitOf new 30) |>.setF (HIF_RCFG_VEC r) (bitsOf new 16 6) |>.setF (HIF_RCFG_IMOD r) (bitsOf new 8 8)
  let s' := if s.ringIdle r then
      ((s'.setF (HIF_RCFG_DIR r) (bitsOf new 29 1)).setF (HIF_RCFG_LOG2SZ r) (bitsOf new 24 4)).setF (HIF_RCFG_CQ r) (bitsOf new 0 3)
    else if fixed new = fixed old then s' else s'.refuse m (HIF_RCFG r)
  if bitOf new 31 && !bitOf old 31 then s'.ringEnable r
  else if !bitOf new 31 && bitOf old 31 then s'.ringDisable r
  else s'

/-- R495. RING_ENABLE: EN of HIF_RCFGn is written 1. -/
def execRingEnable (m : Master) (ring : Fin 32) (s : State) : Host.Outcome State Fault Refusal :=
  .next (s.gate m (fun s => s.rcfgWrite m ring.val (putBit (s.rdN (HIF_RCFG ring.val)) 31 true)))

/-- R495. RING_DISABLE: EN of HIF_RCFGn is written 0. -/
def execRingDisable (m : Master) (ring : Fin 32) (s : State) : Host.Outcome State Fault Refusal :=
  .next (s.gate m (fun s => s.rcfgWrite m ring.val (putBit (s.rdN (HIF_RCFG ring.val)) 31 false)))

/-- R495. RING_STOP_DONE. -/
def execRingStopDone (ring : Fin 32) (s : State) : Host.Outcome State Fault Refusal := .next (s.ringStopCheck ring.val)

/-- R498. A DMA error on a ring. -/
def State.dmaError (s : State) (r : Nat) (write : Bool) (cpl addr : Nat) : State :=
  let st := s.fld (HIF_RSTAT_STATE r)
  if st = ringRun ∨ st = ringStopping then
    let s := s.setF (HIF_RSTAT_STATE r) ringError
    let s := s.wrN HIF_DMAERRINFO ((if write then 2 ^ 16 else 0) + cpl % 256 * 2 ^ 8 + r % 32)
    ((s.wrN HIF_DMAERRADDR_LO addr).wrN HIF_DMAERRADDR_HI (addr / 2 ^ 32)).evtHif HIF_EVT_DMAERR
  else s

/-- R498. DMA_ERROR. -/
def execDmaError (ring : Fin 32) (write : Bool) (cpl : Byte) (addr : BitVec 64) (s : State) : Host.Outcome State Fault Refusal :=
  .next (s.dmaError ring.val write cpl.toNat addr.toNat)

/-! ### Doorbells (R490, R494) -/

/-- R494. Whether a doorbell value is accepted by a ring that is RUN. Bits [31:16] must be 0 (R490). -/
def State.doorbellOk (s : State) (r v : Nat) : Bool :=
  let dev := s.ringDev r
  let host := s.ringHost r
  let size := s.ringSize r
  let dist (a b : Nat) : Nat := (a + 65536 - b) % 65536
  s.fld (HIF_RSTAT_STATE r) == ringRun && decide (v < 65536) && decide (dist v host ≤ size) &&
    (if s.ringIsEntry r then decide (dist dev v ≤ size) else decide (dist v dev ≤ size))

/-- R134. A doorbell of a mailbox ring wakes the slots that select it. -/
def State.mailWake (s : State) (r : Nat) : State :=
  if 28 ≤ r then
    forN 16 (fun e t =>
      if bitOf (t.fld (BOB_MBWAKE_RINGS e)) (r - 28) then t.wake e (t.fld (BOB_MBWAKE_SLOT e)) (wakeWord (r * 256) 1) else t) s
  else s

/-- R497. The slots that a doorbell hands over; one that is not given is empty. -/
def postedSlots : Nat → List Slot → List Slot
  | 0, _ => []
  | n + 1, [] => ⟨0, 0⟩ :: postedSlots n []
  | n + 1, b :: t => b :: postedSlots n t

/-- R494, R496, R507. A doorbell: the host index moves; a completion that waited for room is written. -/
def State.doorbell (s : State) (r v : Nat) (slots : List Slot) : State :=
  if s.doorbellOk r v then
    let n := (v + 65536 - s.ringHost r) % 65536
    let s := s.setF (HIF_RIDX_HOST r) v
    let s := if s.ringIsEntry r then s else s.updRing r (fun q => { q with bufs := q.bufs ++ postedSlots n slots })
    let s := if 8 ≤ r ∧ r ≤ 15 then s.sched 0 (.commandComplete ⟨(r - 8) % 8, Nat.mod_lt _ (by decide)⟩) else s
    let s := if 28 ≤ r ∧ s.ringIsEntry r = true ∧ s.ringFull r = false then s.setB (HIF_MBCTL_OUTFULL (r - 28)) false else s
    s.mailWake r
  else (s.count HIF_DBREF).evtHif HIF_EVT_DBREF

/-- R494, R509, R518. RING_DOORBELL; `slots` are the buffer slots that the host has filled up to the new index. -/
def execRingDoorbell (ring : Fin 32) (v : Word) (slots : List Slot) (s : State) : Host.Outcome State Fault Refusal :=
  .next (if !s.bit GLB_STATUS_READY then s
    else if s.bit GLB_STATUS_BUSY then s.count GLB_REJECT
    else s.doorbell ring.val v.toNat slots)

/-! ### Command rings (R499–R503) -/

/-- R500. COMMAND_COMPLETE: a completion that waited for room is written, and the next one follows. -/
def execCommandComplete (cq : Fin 8) (s : State) : Host.Outcome State Fault Refusal :=
  .next (let n := s.hif.done.length
    let s := s.completeOne (8 + cq.val)
    if s.hif.done.length < n then s.sched 0 (.commandComplete cq) else s)

/-- R502. The operation codes. -/
def opcListed (o : Nat) : Bool :=
  o == 0 || (decide (0x101 ≤ o) && decide (o ≤ 0x107)) || o == 0x201 || o == 0x202 || o == 0x301 || o == 0x302

/-- R500, R502. NOP, and any command with a reserved operation code. -/
def execNop (ring : Fin 8) (d : Desc) (s : State) : Host.Outcome State Fault Refusal :=
  .next (s.runCmd ring.val d (.nop ring d) (fun s => if opcListed d.opc.toNat then (s, 0x00, 0) else (s, 0x10, 0)))

/-- R501. A Pricking command waits while a command executes at the edit port, and then holds the port from its start to its
end. `op` gives the state, STATUS, RESULT and the duration; `none` is a command with a bad parameter, which needs no port. -/
def State.prkCmd (s : State) (ring : Nat) (d : Desc) (c : Instr) (op : State → Option (State × Nat × Nat × Nat)) : State :=
  if !s.cmdReady ring d then s.cmdLater ring c
  else if s.bit PRK_EDSTAT_BUSY then s.sched 1 c
  else
    let cidx := s.ringDev ring
    let t := s.cmdFetch ring
    match op t with
    | none => t.finish ⟨ring, d.tag.toNat, d.opc.toNat, cidx, 0x11, 0⟩
    | some r =>
      (r.1.updHif (fun h => { h with portCmd := some ⟨ring, d.tag.toNat, d.opc.toNat, cidx, r.2.1, r.2.2.1⟩ })).portHold
        r.2.1 none none r.2.2.2

/-- R502. What port operations come to: the state, the status, the operations done, their ticks, the data read. -/
structure PortRun where
  st : State
  status : Nat := prkOk
  count : Nat := 0
  ticks : Nat := 0
  out : List Byte := []

/-- R502. Port operations in order, up to the first that does not end with OK. -/
def portOps {α : Type} (op : α → State → EdRes) : List α → PortRun → PortRun
  | [], p => p
  | x :: t, p =>
    let r := op x p.st
    if r.status = prkOk then
      portOps op t { st := r.st, count := p.count + 1, ticks := p.ticks + r.ticks
                     out := p.out ++ (r.data.elim [] (fun e => leBytes e.toNat 16)) }
    else { p with st := r.st, status := r.status }

/-- R502, R503. A Pricking command of one port operation for each item; `len` says that LEN must be 16 × COUNT. -/
def State.prkOps {α : Type} (s : State) (d : Desc) (len : Bool) (op : α → State → EdRes) (items : List α) :
    Option (State × Nat × Nat × Nat) :=
  if items.length = 0 ∨ (len = true ∧ d.len.toNat ≠ 16 * items.length) then none
  else
    let r := portOps op items { st := s }
    some (if r.out.isEmpty then r.st else r.st.emit (.hostData d.addr.toNat r.out), r.status, r.count, r.ticks)

/-- R502. PRK_READ. -/
def execPrkRead (ring : Fin 8) (d : Desc) (page : Fin 4) (idx cnt : Fin 65536) (s : State) : Host.Outcome State Fault Refusal :=
  .next (s.prkCmd ring.val d (.prkRead ring d page idx cnt)
    (fun s => s.prkOps d true (fun i s => s.prkRead page.val (idx.val + i)) (upto cnt.val)))

/-- R502. PRK_WRITE. -/
def execPrkWrite (ring : Fin 8) (d : Desc) (page : Fin 4) (idx : Fin 65536) (entries : List (BitVec 128)) (s : State) :
    Host.Outcome State Fault Refusal :=
  .next (s.prkCmd ring.val d (.prkWrite ring d page idx entries)
    (fun s => s.prkOps d true (fun e s => s.prkWrite page.val (idx.val + e.1) e.2) ((upto entries.length).zip entries)))

/-- R502. PRK_INSERT. -/
def execPrkInsert (ring : Fin 8) (d : Desc) (page : Fin 4) (entries : List (BitVec 128)) (s : State) :
    Host.Outcome State Fault Refusal :=
  .next (s.prkCmd ring.val d (.prkInsert ring d page entries)
    (fun s => s.prkOps d true (fun e s => s.prkInsert page.val e) entries))

/-- R502. PRK_DELETE: COUNT entries from IDX on. -/
def execPrkDelete (ring : Fin 8) (d : Desc) (page : Fin 4) (idx cnt : Fin 65536) (s : State) : Host.Outcome State Fault Refusal :=
  .next (s.prkCmd ring.val d (.prkDelete ring d page idx cnt)
    (fun s => s.prkOps d false (fun _ s => s.prkDelete page.val idx.val) (upto cnt.val)))

/-- R502. PRK_CLEAR. -/
def execPrkClear (ring : Fin 8) (d : Desc) (page : Fin 4) (s : State) : Host.Outcome State Fault Refusal :=
  .next (s.prkCmd ring.val d (.prkClear ring d page) (fun s => let r := s.prkClear page.val; some (r.st, r.status, 0, 0)))

/-- R502. PRK_COMMIT: RESULT is COUNT, or the index of the first invalid entry. -/
def execPrkCommit (ring : Fin 8) (d : Desc) (page : Fin 4) (s : State) : Host.Outcome State Fault Refusal :=
  .next (s.prkCmd ring.val d (.prkCommit ring d page) (fun s =>
    let r := s.prkCommit page.val
    some (r.st, r.status, if r.status = prkOk then r.st.fld (PRK_PG_COUNT page.val) else r.idx.getD 0, 0)))

/-- R501, R502. PRK_SWAP, once no command holds the edit port: refused at once, or it waits until the swap takes effect. -/
def State.prkSwapCmd (s : State) (ring : Nat) (d : Desc) (page : Nat) (c : Instr) : State :=
  if !s.cmdReady ring d then s.cmdLater ring c
  else if s.bit PRK_EDSTAT_BUSY then s.sched 1 c
  else
    let cidx := s.ringDev ring
    let r := (s.cmdFetch ring).swapReq page
    if r.2 = prkOk then r.1.updHif (fun h => { h with swapCmds := h.swapCmds ++ [(ring, d.tag.toNat, d.opc.toNat, cidx)] })
    else r.1.finish ⟨ring, d.tag.toNat, d.opc.toNat, cidx, r.2, 0⟩

/-- R502. PRK_SWAP. -/
def execPrkSwap (ring : Fin 8) (d : Desc) (page : Fin 4) (s : State) : Host.Outcome State Fault Refusal :=
  .next (s.prkSwapCmd ring.val d page.val (.prkSwap ring d page))

/-! ### Signals to the host (R492, R498) -/

/-- R498. The hold-off of a ring ends; a slot written meanwhile is signalled, and a new hold-off begins. -/
def State.holdoffEnd (s : State) (r : Nat) : State :=
  if (s.ring r).irqPend && decide ((s.ring r).holdEnd ≤ s.tick) then (s.updRing r (fun q => { q with irqPend := false })).ringSignal r
  else s

/-- R498. IRQ_HOLDOFF_END. -/
def execIrqHoldoffEnd (ring : Fin 32) (s : State) : Host.Outcome State Fault Refusal := .next (s.holdoffEnd ring.val)

/-- R492. The pending message of a vector is sent, once the vector is unmasked and MSI-X enabled. -/
def State.msixTake (s : State) (vec : Nat) : State :=
  if s.bit HIF_STATUS_MSIXEN && s.hif.msixPend.getLsbD vec && s.hif.msixUnmasked.getLsbD vec then
    (s.updHif (fun h => { h with msixPend := h.msixPend &&& ~~~ BitVec.twoPow 64 vec })).msix vec
  else s

/-- R492. The pending messages of unmasked vectors are sent while MSI-X is enabled. -/
def State.msixFlush (s : State) : State := forN 64 (fun v t => t.msixTake v) s

/-- R492. A write of an MSI-X table entry: address, data, mask. Unmasking a pending vector sends its message. -/
def State.msixEntry (s : State) (vec : Nat) (masked : Bool) (addr : BitVec 64) (data : Word) : State :=
  let bit := BitVec.twoPow 64 vec
  (s.updHif (fun h => { h with
    msixTab := tput (0#64, 0#32) h.msixTab vec (addr, data)
    msixUnmasked := if masked then h.msixUnmasked &&& ~~~ bit else h.msixUnmasked ||| bit })).msixTake vec

/-- R492. MSIX_UNMASK. -/
def execMsixUnmask (vec : Fin 64) (masked : Bool) (addr : BitVec 64) (data : Word) (s : State) : Host.Outcome State Fault Refusal :=
  .next (s.msixEntry vec.val masked addr data)

/-! ### Mailboxes (R507) -/

/-- R507. The FIFO of mailbox `k`, and INLVL with it. -/
def State.mbox (s : State) (k : Nat) : List (List Byte) := tget [] s.hif.mbox k
def State.setMbox (s : State) (k : Nat) (l : List (List Byte)) : State :=
  (s.updHif (fun h => { h with mbox := tput [] h.mbox k l })).setF (HIF_MBCTL_INLVL k) l.length

/-- R507. A message is fetched while the FIFO has room. -/
def State.mailFetch (s : State) (k : Nat) (msg : List Byte) : State :=
  let r := 28 + k
  if s.ringLive r && !s.ringIsEntry r && !s.ringFull r && decide ((s.mbox k).length < 16) then
    ((s.ringAdvance r).updRing r (fun q => { q with bufs := q.bufs.drop 1 })).setMbox k
      (s.mbox k ++ [(msg ++ List.replicate 32 0#8).take 32])
  else s

/-- R507. MAILBOX_FETCH. -/
def execMailboxFetch (k : Fin 4) (msg : List Byte) (s : State) : Host.Outcome State Fault Refusal := .next (s.mailFetch k.val msg)

/-- R507, R515. POP: ignored when the FIFO is empty. -/
def State.mailPop (s : State) (k : Nat) : State :=
  match s.mbox k with
  | [] => s
  | _ :: t => s.setMbox k t

/-- R507. MAILBOX_POP. -/
def execMailboxPop (m : Master) (k : Fin 4) (s : State) : Host.Outcome State Fault Refusal := .next (s.gate m (fun s => s.mailPop k.val))

/-- R507. POST: the message goes to the next slot of the ring, or is not sent. -/
def State.mailPost (s : State) (k : Nat) : State :=
  let r := 28 + k
  if !s.ringIsEntry r then s
  else if s.ringLive r && !s.ringFull r then
    (s.ringEntry r ((upto 8).flatMap (fun w => leBytes (s.rdN (HIF_MBOUT k w)) 4))).setB (HIF_MBCTL_OUTFULL k) false
  else (s.count (HIF_RDROP r)).setB (HIF_MBCTL_OUTFULL k) true

/-- R507. MAILBOX_POST. -/
def execMailboxPost (m : Master) (k : Fin 4) (s : State) : Host.Outcome State Fault Refusal := .next (s.gate m (fun s => s.mailPost k.val))

/-- R507, R513. What HIF_MBINk_w reads: word w of the oldest message, 0 while there is none. -/
def State.mailWord (s : State) (k w : Nat) : Nat :=
  match s.mbox k with
  | [] => 0
  | msg :: _ => leNat ((msg.drop (4 * w)).take 4)

/-! ### The PCIe link (R489, R514) -/

/-- R514. PCIE_LINK_DOWN: the link leaves L0 and L1 other than by PERST_N. -/
def execPcieLinkDown (s : State) : Host.Outcome State Fault Refusal :=
  .next (if s.bit HIF_STATUS_LINKUP then
      (((s.setB HIF_STATUS_LINKUP false).setF HIF_STATUS_SPEED 0).setF HIF_STATUS_WIDTH 0).evtHif HIF_EVT_LINKDOWN
    else s)

/-- R514. PCIE_LINK_UP. -/
def execPcieLinkUp (speed : Fin 16) (width : Fin 8) (s : State) : Host.Outcome State Fault Refusal :=
  .next (((s.setB HIF_STATUS_LINKUP true).setF HIF_STATUS_SPEED speed.val).setF HIF_STATUS_WIDTH width.val)

/-- R489, R492. PCIE_CONFIG_WRITE. -/
def execPcieConfigWrite (bme msixen d3hot : Bool) (s : State) : Host.Outcome State Fault Refusal :=
  .next ((((s.setB HIF_STATUS_BME bme).setB HIF_STATUS_MSIXEN msixen).updHif (fun h => { h with d3hot := d3hot })).msixFlush)

end Sys2Proof.Machine
end

