-- ==== Sys2Proof/Machine/Sec.lean ====
section
/-!
DEFINITION. The MRAM write port (R474, R475, R478), the secure bank and its tamper inputs (R479–R481), the end of a long
operation (R508), the clocks (R16, R45) and the supply monitors (R538).
-/

namespace Sys2Proof.Machine

/-! ### Long operations: the end (R508) -/

/-- R473. The MRAM in the engine address map: the base of image A or B, and of the BIST results region. -/
def imageBase (b : Bool) : Nat := if b then 0x50100000 else 0x50000000
def bistBase : Nat := 0x50600000

/-- R508. A long operation ends: RESULT is written, BUSY clears and LOVEC is sent. -/
def State.longEnd (s : State) (result : Nat) : State :=
  let s := (((s.setF GLB_LONGOP_RESULT result).setB GLB_STATUS_BUSY false).setB THB_STATUS_LONGOP false).updBst
    (fun b => { b with longop := none })
  if s.bit HIF_CTRL_LOIRQ then s.msix (s.fld HIF_CTRL_LOVEC) else s

/-- R476, R510. An interrupted image commit leaves its target region without a valid header. -/
def State.commitCut (s : State) : State :=
  if s.bst.longop.any (fun o => o.1 == 1) then
    s.setMemBytes (imageBase (!s.bit GLB_STATUS_BOOTIMG)) (List.replicate 32 0#8)
  else s

/-! ### The secure bank (R479–R481) -/

/-- An event of SEC_EVT: sources 0xEC–0xEF. -/
def State.evtSec (s : State) (f : Fld) : State := s.evt f 0xEC 0xFF

/-- R479, R480. A wipe starts, or restarts. A long operation that did not cause it ends with RESULT 0x4. -/
def State.wipeStart (s : State) (cause : Nat) : State :=
  let own := s.bst.longop.any (fun o => (o.1 == 2 && cause == 4) || (o.1 == 5 && cause == 5))
  let s := ((s.setB SEC_STATUS_WIPING true).setB SEC_STATUS_RESTART false).setF SEC_LASTWIPE_CAUSE cause
  let s := ((s.count SEC_WIPECNT).wrN SEC_WIPETS_LO s.tick).wrN SEC_WIPETS_HI (s.tick / 2 ^ 32)
  let s := (s.setB THB_STATUS_FWRUN false).evtSec SEC_EVT_WIPED
  if s.bst.longop.isSome && !own then s.commitCut.longEnd 4 else s

/-- R481. In FIELD and RETURNED the three tamper enables read 1. -/
def State.tamperForce (s : State) : State :=
  if 2 ≤ s.fld GLB_STATUS_LCS then
    (((s.setB SEC_STATUS_LCFORCE true).setB SEC_TAMPCFG_PINEN true).setB SEC_TAMPCFG_VMONEN true).setB SEC_TAMPCFG_CMONEN true
  else s

/-- R481. A write of SEC_TAMPCFG. -/
def State.tampCfg (s : State) (w : Nat) : State :=
  if s.bit SEC_LOCK_CFG || decide (2 ≤ s.fld GLB_STATUS_LCS) then s else s.regStore SEC_TAMPCFG false w

/-- R479. A tamper input: `lvl` is its status bit, `ok` its state, `en` its enable, `ev` its event. -/
def State.tamper (s : State) (lvl en ev : Fld) (cause : Nat) (ok : Bool) : State :=
  let s := s.setB lvl ok
  if !ok && s.bit en then (s.evtSec ev).wipeStart cause else s

/-- R479. TAMPER_PIN: TAMPER_N has been high, or low, for PINFILT µs. -/
def execTamperPin (high : Bool) (s : State) : Host.Outcome State Fault Refusal :=
  .next (s.tamper SEC_STATUS_PINLVL SEC_TAMPCFG_PINEN SEC_EVT_TAMPERPIN 1 high)

/-- R479. VOLTAGE_TAMPER: VDD and VDDMR are in range, or one has been out of range for 1 µs. -/
def execVoltageTamper (ok : Bool) (s : State) : Host.Outcome State Fault Refusal :=
  .next (s.tamper SEC_STATUS_VMONOK SEC_TAMPCFG_VMONEN SEC_EVT_VTAMPER 2 ok)

/-- R479. CLOCK_TAMPER: REFCLK is in range, or is out of range or absent. -/
def execClockTamper (ok : Bool) (s : State) : Host.Outcome State Fault Refusal :=
  .next (s.tamper SEC_STATUS_CMONOK SEC_TAMPCFG_CMONEN SEC_EVT_CTAMPER 3 ok)

/-- R479, R480. SECURE_WIPE_DONE: every word of the secure bank is 0, and Thimble restarts. -/
def execSecureWipeDone (s : State) : Host.Outcome State Fault Refusal :=
  .next (if s.bit SEC_STATUS_WIPING then
      ((s.clearRange 0x70000000 0x10000).setB SEC_STATUS_WIPING false).setB SEC_STATUS_RESTART true
    else s)

/-- R155. Thimble's firmware runs, with its heartbeat. -/
def State.thimbleRuns (s : State) : State :=
  (s.setB THB_STATUS_FWRUN true).timer (ms 1) .thimbleHeartbeat

/-- R480. THIMBLE_RESTART_DONE. -/
def execThimbleRestartDone (s : State) : Host.Outcome State Fault Refusal :=
  .next (if s.bit SEC_STATUS_RESTART then (s.setB SEC_STATUS_RESTART false).thimbleRuns else s)

/-! ### The MRAM write port (R474, R475, R478) -/

/-- R478. Whether a GO is refused. -/
def State.nvmGoBad (s : State) : Bool :=
  let a := s.rdN NVM_WADDR
  !s.bit NVM_CTRL_WEN || s.bit NVM_STATUS_WBUSY || a % 32 != 0 || decide (a < 0x610000) || decide (0x800000 ≤ a) || s.thermalDecided

/-- R478. NVM_WCMD.GO: the line is queued, and starts unless line writes are halted. -/
def State.nvmGo (s : State) : State :=
  if s.nvmGoBad then (s.count NVM_WRREF).evt NVM_EVT_WRREF 0xE8 0xFF
  else
    (s.setB NVM_STATUS_WBUSY true).updNvm (fun _ =>
      ⟨some (s.rdN NVM_WADDR, (upto 8).flatMap (fun i => leBytes (s.rdN (NVM_WDATA i)) 4)), !s.bit NVM_STATUS_HALT⟩)

/-- R478. NVM_WRITE_GO. -/
def execNvmWriteGo (m : Master) (s : State) : Host.Outcome State Fault Refusal := .next (s.gate m (fun s => s.nvmGo))

/-- R474. MRAM_LINE_WRITTEN: the port's line has been written. -/
def execMramLineWritten (s : State) : Host.Outcome State Fault Refusal :=
  .next (match s.nvm.port with
    | some (a, l) =>
      if s.nvm.started then
        (((s.setMemBytes (0x50000000 + a) l).setB NVM_STATUS_WBUSY false).incr NVM_WRLINES).updNvm (fun _ => {})
      else s
    | none => s)

/-! ### Clocks and supplies (R16, R45, R475, R538) -/

/-- R16, R31. The timebase PLL's lock, in both of its bits. -/
def State.setTb (s : State) (b : Bool) : State := ((s.setB GLB_STATUS_TBLOCK b).setB GLB_CLKSTAT_TBLOCK b).updEnerg

/-- R16. TIMEBASE_PLL_LOCK. -/
def execTimebasePllLock (s : State) : Host.Outcome State Fault Refusal := .next ((s.setTb true).fltEnd 0x00 0xFF)

/-- R16, R45. TIMEBASE_PLL_LOSS: a class F fault. -/
def execTimebasePllLoss (s : State) : Host.Outcome State Fault Refusal :=
  .next (((s.setTb false).setB GLB_CLKSTAT_TBLOSS true).raise 0x00 0xFF)

/-- R16, R45. CORE_PLL_LOSS: a class F fault. -/
def execCorePllLoss (s : State) : Host.Outcome State Fault Refusal :=
  .next (((s.setB GLB_CLKSTAT_COREPLL false).setB GLB_CLKSTAT_COREPLLLOSS true).raise 0x01 0xFF)

/-- R45. CORE_PLL_LOCK. -/
def execCorePllLock (s : State) : Host.Outcome State Fault Refusal := .next ((s.setB GLB_CLKSTAT_COREPLL true).fltEnd 0x01 0xFF)

/-- R45. PCIE_REF_LOSS. -/
def execPcieRefLoss (s : State) : Host.Outcome State Fault Refusal :=
  .next ((s.setB GLB_CLKSTAT_PCIEREF false).setB GLB_CLKSTAT_PCIELOSS true)

/-- R45. PCIE_REF_DETECT. -/
def execPcieRefDetect (s : State) : Host.Outcome State Fault Refusal := .next (s.setB GLB_CLKSTAT_PCIEREF true)

/-- R475, R538. SUPPLY_MONITOR_TRIP: source 0x04 with the rail's code; VDD and VDDMR halt MRAM line writes. -/
def execSupplyMonitorTrip (rail : Fin 9) (s : State) : Host.Outcome State Fault Refusal :=
  .next ((if rail.val = 0 ∨ rail.val = 5 then s.setB NVM_STATUS_HALT true else s).raise 0x04 rail.val)

end Sys2Proof.Machine
end

