-- ==== Sys2Proof/Machine/Image.lean ====
section
/-!
DEFINITION. The firmware image and its check (R511, R512), the boot preference record (R521), BIST records and the stamp
(R526, R527), and the long operations (R508–R510, R524).
-/

namespace Sys2Proof.Machine

/-! ### The image (R511, R512) -/

/-- A little-endian field of a byte list. -/
def fieldOf (b : List Byte) (o n : Nat) : Nat := leNat ((b.drop o).take n)

/-- R511. A section: TYPE, ENGMASK, OFFSET, LEN, LOAD. -/
structure Sect where
  ty : Nat
  mask : Nat
  off : Nat
  len : Nat
  load : Nat
deriving DecidableEq, Repr

/-- R511. The section table. -/
def sectsOf (b : List Byte) : List Sect :=
  (upto (fieldOf b 5 1)).map (fun i =>
    let o := 0x20 + 16 * i
    ⟨fieldOf b o 1, fieldOf b (o + 2) 2, fieldOf b (o + 4) 4, fieldOf b (o + 8) 4, fieldOf b (o + 12) 4⟩)

/-- R511. A valid header line: MAGIC, FMT and the commit byte. -/
def headerOk (b : List Byte) : Bool := fieldOf b 0 4 == 0x4D495256 && fieldOf b 4 1 == 1 && fieldOf b 31 1 == 0xC3

/-- R512. Every engine section fits its bank, and no two sections of one engine overlap. -/
def sectsFit (l : List Sect) : Bool :=
  (upto 16).all (fun e =>
    let mine := l.filter (fun x => x.ty == 2 && bitOf x.mask e)
    mine.all (fun x => decide (x.load + x.len ≤ 0x40000)) &&
      ((upto mine.length).all (fun i => (upto i).all (fun j =>
        match mine[i]?, mine[j]? with
        | some x, some y => decide (x.load + x.len ≤ y.load) || decide (y.load + y.len ≤ x.load)
        | _, _ => true))))

/-- R512. Whether the bytes `b` of an image pass, with the fuses `f`. -/
def imageOk (f : Fuses) (b : List Byte) : Bool :=
  let n := b.length
  let sig := fieldOf b 16 4
  let tab := 0x20 + 16 * fieldOf b 5 1
  let l := sectsOf b
  let key := (b.drop sig).take 97
  let msg := b.take 24 ++ List.replicate 8 0#8 ++ (b.take sig).drop 32
  headerOk b && fieldOf b 8 4 == n && sig + 256 == n && sig % 32 == 0 && decide (tab ≤ n) &&
    (l.filter (fun x => x.ty == 1)).length == 1 && l.all (fun x => decide (tab ≤ x.off) && decide (x.off + x.len ≤ sig)) &&
    sectsFit l && fieldOf b 24 4 == crc32 (b.drop 32) &&
    (match f.keyHash with
     | some h => sha384 key == h
     | none => f.lcs == 0) &&
    fieldOf key 0 1 == 4 &&
    ecdsaOk (beNum ((key.drop 1).take 48)) (beNum (key.drop 49)) (beNum ((b.drop (sig + 128)).take 48))
      (beNum ((b.drop (sig + 176)).take 48)) msg

/-- R511, R512. The image in a region of the MRAM, if it passes. -/
def State.imageAt (s : State) (img : Bool) : Option (List Byte) :=
  let a := imageBase img
  let n := s.memN (a + 8) 4
  if n < 1024 ∨ 0x100000 < n ∨ n % 32 ≠ 0 ∨ s.uncorr a (n / 4) then none
  else
    let b := s.memBytes a n
    if imageOk s.bst.loaded b then some b else none

/-! ### Lines that Thimble writes (R475, R521, R526, R527) -/

/-- R475. Thimble writes lines of the MRAM, unless line writes are halted. -/
def State.thimbleLine (s : State) (a : Nat) (bs : List Byte) : State :=
  if s.bit NVM_STATUS_HALT then s
  else (s.setMemBytes a bs).wrN NVM_WRLINES (s.rdN NVM_WRLINES + (bs.length + 31) / 32)

/-- R521. The boot preference record: PREF, TRIAL, TRIES. -/
def State.bootPref (s : State) : Bool × Bool × Nat :=
  let b := s.memBytes (bistBase + 0x20) 32
  if fieldOf b 31 1 = 0xC3 ∧ s.uncorr (bistBase + 0x20) 8 = false then (bitOf (fieldOf b 0 1) 0, bitOf (fieldOf b 1 1) 0, fieldOf b 2 1)
  else (false, false, 0)

/-- R521. Thimble writes the boot preference record. -/
def State.writePref (s : State) (pref trial : Bool) (tries : Nat) : State :=
  s.thimbleLine (bistBase + 0x20) (leBytes (if pref then 1 else 0) 1 ++ leBytes (if trial then 1 else 0) 1 ++ leBytes tries 1 ++
    List.replicate 28 0#8 ++ [0xC3#8])

/-- R24. The hierarchy locator of a place, resolved down to a level: 0 for P to 6 for B. Fields below the level read 0. -/
def locator (level : Nat) (p : Place) : Nat :=
  let at_ (l v : Nat) : Nat := if l ≤ level then v else 0
  level * 2 ^ 61 + at_ 2 p.sub.val * 2 ^ 54 + at_ 3 p.clu.toNat * 2 ^ 48 + at_ 4 p.til.toNat * 2 ^ 40 + at_ 5 p.mac.toNat * 2 ^ 32 +
    at_ 6 p.row.toNat * 2 ^ 16 + at_ 6 p.col.toNat

/-- R527. The code of a KIND, and the level of its locator: T for a tile, B for a bit, M for a macro (for KIND 4 DEDUCED, log
entry 76). -/
def kindCode : BistKind → Nat
  | .tile => 1
  | .bit => 2
  | .decoder => 3
  | .columns => 4
def kindLevel : BistKind → Nat
  | .tile => 4
  | .bit => 6
  | .decoder | .columns => 5

/-- R24, R527. The locator of a failure. -/
def failLoc (f : BistFail) : Nat := locator (kindLevel f.kind) f.place

/-- R527. The record of a failure. -/
def failBytes (f : BistFail) (run tick runid : Nat) : List Byte :=
  leBytes (failLoc f) 8 ++ leBytes (kindCode f.kind) 1 ++ leBytes run 1 ++ leBytes f.mac.toNat 2 ++ leBytes f.expected.toNat 4 ++
    leBytes f.observed.toNat 4 ++ leBytes tick 8 ++ leBytes runid 3 ++ [0xC3#8]

/-- R472, R527, R535. A BIST run ends: its records, BST_LASTRUN and the events of its failures. -/
def State.bistRun (s : State) (run : Nat) (lb mb : Bool) (fails : List BistFail) : State :=
  let s := s.incr BST_RUNID
  let id := s.rdN BST_RUNID
  let kept := fails.take 1984
  let s := forL ((upto kept.length).zip kept) (fun e t => t.thimbleLine (bistBase + 0x800 + 32 * e.1) (failBytes e.2 run s.tick id)) s
  let s := s.wrN BST_LASTRUN (run * 2 ^ 28 + (if fails.isEmpty then 0 else 2 ^ 26) + (if lb then 2 ^ 25 else 0) +
    (if mb then 2 ^ 24 else 0) + kept.length)
  let s := (s.setB BST_STATUS_BISTRUN false).countN BST_FAILCNT fails.length
  match fails.getLast? with
  | none => s
  | some f =>
    let s := ((s.wrN BST_LASTLOC_LO (failLoc f)).wrN BST_LASTLOC_HI (failLoc f / 2 ^ 32)).evt BST_EVT_BISTFAIL 0xFC 0xFF
    if fails.any (fun x => x.kind == .columns) then (s.setB MEM_REPSTAT_UNREP true).evtMem MEM_EVT_UNREP 0xFF else s

/-- R526. What the CRC over the fuses covers. -/
def Fuses.words (f : Fuses) : List Nat :=
  [f.lcs, if f.dbgKill then 1 else 0] ++ (match f.keyHash with | some h => 1 :: h.map (fun b => b.toNat) | none => [0]) ++
    f.cols.flatMap (fun e => [e.1, e.2.getD 1024])

/-- R526. The stamp line of a shutdown run. -/
def stampBytes26 (runid : Nat) (fail : Bool) (f : Fuses) : List Byte :=
  let b := leBytes runid 4 ++ leBytes (if fail then 1 else 0) 1 ++ leBytes 0 3 ++ leBytes (Config.fuseCrc f.words).toNat 4 ++
    List.replicate 12 0#8
  b ++ leBytes (crc32 b) 4 ++ leBytes 0 3 ++ [0xC3#8]

/-- R526, R535. STAMPWHY of the stamp line at a power-on or PERST_N boot: 0 if it is valid. -/
def State.stampWhy (s : State) : Nat :=
  let b := s.memBytes bistBase 32
  if s.bit GLB_RSTCAUSE_THERM then 4
  else if fieldOf b 31 1 ≠ 0xC3 then 1
  else if fieldOf b 24 4 ≠ crc32 (b.take 24) ∨ s.uncorr bistBase 8 then 5
  else if fieldOf b 4 1 ≠ 0 then 2
  else if fieldOf b 8 4 ≠ (Config.fuseCrc s.bst.loaded.words).toNat then 3
  else 0

/-! ### Engine sections (R145) -/

/-- R145. Thimble copies the sections of an engine into its bank and sets LOADED. -/
def State.loadEngine (s : State) (b : List Byte) (e : Nat) : State :=
  let mine := (sectsOf b).filter (fun x => x.ty == 2 && bitOf x.mask e)
  if mine.isEmpty then s
  else (forL mine (fun x t => t.setMemBytes (bankBase e + x.load) ((b.drop x.off).take x.len)) s).setB (BOB_STATUS_LOADED e) true

/-! ### Long operations (R508–R510, R524) -/

/-- An engine stops at once: it and its slots are disabled and unloaded (R524). -/
def State.engKill (s : State) (e : Nat) : State :=
  let s := (s.setB (BOB_CTRL_EN e) false).wrN (BOB_STATUS e) (putBits (s.rdN (BOB_STATUS e) / 4 * 4) 3 5 0)
  forN 8 (fun k t => t.setSlotState e k slDisabled) (s.updEng e (fun g => { g with buf := [] }))

/-- R524. An on-demand BIST run begins. -/
def State.demandStart (s : State) : State :=
  (forN 16 (fun e t => t.engKill e) s).streamOwnStop.setB BST_STATUS_BISTRUN true

/-- R524, R527. An on-demand run ends: the banks of its MBIST are zeroed. -/
def State.demandEnd (s : State) (arg : Nat) (fails : List BistFail) : State :=
  let k := bitsOf arg 0 2
  let mb := k == 0 || bitOf k 1
  let s := if mb then forL (upto 16 ++ [16, 17, 19, 20]) (fun n t => t.clearRange (bankBase n) (bankSize n)) s else s
  s.bistRun 3 (k == 0 || bitOf k 0) mb fails

/-- R508, R522. Whether an operation is refused with RESULT 0x2. -/
def State.longBad (s : State) (op arg : Nat) : Bool :=
  let lcs := s.fld GLB_STATUS_LCS
  let bank1 := s.fld (MEM_OWN_KIND 17) == 1
  if op = 1 then
    let n := bitsOf arg 0 21
    !bank1 || n % 32 != 0 || decide (n < 1024) || decide (0x100000 < n)
  else if s.bit BST_STATUS_NOIMG then true
  else if op = 2 then bitsOf arg 16 16 != 0x1CA5 || bitsOf arg 0 2 != lcs + 1
  else if op = 3 then
    let g := bitsOf arg 28 4
    let key := bitsOf arg 20 8 * 2 + bitsOf arg 16 1
    if g = 1 then decide (160 < bitsOf arg 20 8) || (tget none s.bst.fuses.cols key).isSome
    else if g = 2 then lcs != 0 || s.bst.fuses.keyHash.isSome || !bank1
    else if g = 3 then bitsOf arg 0 28 != 0xD1E0000
    else true
  else if op = 4 then s.bit GLB_STATUS_CTRL_RUN
  else op != 5

/-- R39, R40, R508. A write of GLB_LONGOP. -/
def State.longStart (s : State) (w : Nat) : State :=
  if bitOf w 31 && s.bit GLB_STATUS_BUSY then s.count GLB_REJECT
  else
    let op := bitsOf w 0 4
    let arg := s.rdN GLB_LONGARG
    let s := s.setF GLB_LONGOP_OP op
    if !bitOf w 31 then s
    else if s.longBad op arg then s.longEnd 2
    else
      let s := (((s.setF GLB_LONGOP_RESULT 0).setB GLB_STATUS_BUSY true).setB THB_STATUS_LONGOP true).updBst
        (fun b => { b with longop := some (op, arg) })
      if op = 4 then s.demandStart else if op = 5 then s.wipeStart 5 else s

/-- R508. The commit ends: the image is verified, and written to the region of the image not booted. -/
def State.commitEnd (s : State) (arg : Nat) : State :=
  let n := bitsOf arg 0 21
  let b := s.memBytes 0x20100000 n
  let other := !s.bit GLB_STATUS_BOOTIMG
  if s.uncorr 0x20100000 (n / 4) || !imageOk s.bst.loaded b then s.longEnd 3
  else ((s.thimbleLine (imageBase other) b).writePref other true 0).longEnd 1

/-- R530, R531. LCS and TAP access of the fuses in force. -/
def State.showFuses (s : State) : State :=
  let f := s.bst.loaded
  let s := (s.setF GLB_STATUS_LCS f.lcs).setB BST_TAP_DBGKILL f.dbgKill
  (s.setF BST_TAP_ACCESS (if f.dbgKill then 0 else if f.lcs = 1 then 2 else if f.lcs = 2 then 1 else 3)).tamperForce

/-- R508, R530. The lifecycle advance ends: the new state, and the wipe it causes. -/
def State.advanceEnd (s : State) : State :=
  let s := s.updBst (fun b => { b with fuses := { b.fuses with lcs := b.fuses.lcs + 1 }, loaded := { b.loaded with lcs := b.fuses.lcs + 1 } })
  (s.showFuses.wipeStart 4).longEnd 1

/-- R508. The fuse program ends; the fuses take effect at the next power-up. -/
def State.fuseEnd (s : State) (arg : Nat) : State :=
  let g := bitsOf arg 28 4
  let s :=
    if g = 1 then s.updBst (fun b => { b with fuses := { b.fuses with
        cols := tput none b.fuses.cols (bitsOf arg 20 8 * 2 + bitsOf arg 16 1) (some (bitsOf arg 0 10)) } })
    else if g = 2 then
      let h := s.memBytes 0x20100000 48
      s.updBst (fun b => { b with fuses := { b.fuses with keyHash := some h } })
    else s.updBst (fun b => { b with fuses := { b.fuses with dbgKill := true } })
  s.longEnd 1

/-- R508. The operation in progress ends; `fails` are the failures of an on-demand run. A commit needs line writes (R475), a
secure wipe ends with Thimble's restart (R480), and RESULT of a run with failures is a free choice of complete or failed. -/
def State.longDone (s : State) (fails : List BistFail) : State :=
  match s.bst.longop with
  | none => s
  | some (op, arg) =>
    if op = 1 then (if s.bit NVM_STATUS_HALT then s else s.commitEnd arg)
    else if op = 2 then s.advanceEnd
    else if op = 3 then s.fuseEnd arg
    else if op = 4 then
      let s := s.demandEnd arg fails
      if fails.isEmpty then s.longEnd 1 else (let r := s.free 2; r.2.longEnd (1 + 2 * r.1))
    else if s.bit SEC_STATUS_WIPING || s.bit SEC_STATUS_RESTART then s
    else s.longEnd 1

/-- R508. LONGOP_COMPLETE. -/
def execLongopComplete (fails : List BistFail) (s : State) : Host.Outcome State Fault Refusal := .next (s.longDone fails)

/-- The host's write of GLB_LONGOP with START and an operation. -/
def State.hostLong (s : State) (op : Nat) : State := s.loaderGate .host (fun s => s.longStart (2 ^ 31 + op))

/-- R508. MRAM_IMAGE_COMMIT: the host starts operation 0x1. -/
def execMramImageCommit (s : State) : Host.Outcome State Fault Refusal := .next (s.hostLong 1)

/-- R508, R530. LIFECYCLE_ADVANCE: the host starts operation 0x2. -/
def execLifecycleAdvance (s : State) : Host.Outcome State Fault Refusal := .next (s.hostLong 2)

/-- R508. FUSE_PROGRAM: the host starts operation 0x3. -/
def execFuseProgram (s : State) : Host.Outcome State Fault Refusal := .next (s.hostLong 3)

/-- R508, R524. ON_DEMAND_BIST: the host starts operation 0x4. -/
def execOnDemandBist (s : State) : Host.Outcome State Fault Refusal := .next (s.hostLong 4)

/-- R508, R479. SECURE_WIPE: the host starts operation 0x5. -/
def execSecureWipe (s : State) : Host.Outcome State Fault Refusal := .next (s.hostLong 5)

end Sys2Proof.Machine
end

