-- ==== Sys2Proof/Machine/Boot.lean ====
section
/-!
DEFINITION. Resets (R36, R37, R519, R520), boot (R145, R477, R517, R521), shutdown (R525), Quiet (R528, R529), test access
(R532) and the thermal halt (R446).
-/

namespace Sys2Proof.Machine

/-! ### Power-on reset and PERST_N (R519, R520) -/

/-- R475. The MRAM line of the write port that is being written completes; a queued one is lost. -/
def State.lineFinish (s : State) : State :=
  match s.nvm.port with
  | some (a, l) => (if s.nvm.started then (s.setMemBytes (0x50000000 + a) l).incr NVM_WRLINES else s).updNvm (fun _ => {})
  | none => s

/-- R354. Selvage samples its inputs afresh from the release of the internal reset: what stands at the pins runs through the filters,
and the acknowledge inputs show their levels. -/
def State.sampleAfresh (s : State) (fb : Nat) : State :=
  let s := (s.wrN PWM_FBSTAT fb)
  let s := forL ((upto 36).filter (fun i => s.selv.pins.getLsbD i)) (fun i t => t.pinAssert i) s
  forL ((upto 12).filter (fun n => (s.leg n).bsuv)) (fun n t => t.bsuvInput n true) s

/-- R519, R520. The device enters reset: the gate outputs go low, and what the MRAM and the fuses hold stays. `cause` is
GLB_RSTCAUSE after it. -/
def State.powerReset (s : State) (kind : BootKind) (at_ : BootAt) (cause : Nat) : State :=
  let s := s.commitCut.lineFinish
  let mram (a : Nat) : Bool := decide (0x50000000 ≤ a) && decide (a < 0x50800000)
  let pins := (upto 24).filter (fun i => s.rbit PWM_OUTSTAT i)
  let lows := pins.map (fun i => Out.gate (i % 12) (decide (i < 12)) false (s.tick * 8))
  let runid := s.rdN BST_RUNID
  let t : State := { State.reset with
    mem := s.mem.filter (fun e => mram e.1)
    flips := s.flips.filter (fun e => mram e.1)
    age := { saveA := s.age.saveA, saveB := s.age.saveB, cutA := s.age.cutA, cutB := s.age.cutB }
    bst := { fuses := s.bst.fuses, kind := kind, at_ := at_ }
    legs := s.legs.filterMap (fun (e : Nat × LegSt) => if e.2.bsuv then some (e.1, { bsuv := true }) else none)
    selv := { pins := s.selv.pins }
    adc := { wcIn := s.adc.wcIn }
    out := lows.reverse ++ s.out
    freeCtr := s.freeCtr
    pending := s.pending }
  ((t.wrN BST_RUNID runid).wrN GLB_RSTCAUSE cause).sampleAfresh (s.rdN PWM_FBSTAT)

/-- R517, R520. POWER_ON_RESET. -/
def execPowerOnReset (s : State) : Host.Outcome State Fault Refusal := .next (s.powerReset .power .thimble 1)

/-- R38, R520. PERST_RESET. -/
def execPerstReset (s : State) : Host.Outcome State Fault Refusal :=
  .next (s.powerReset .power .thimble (s.rdN GLB_RSTCAUSE ||| 2))

/-- R519. POWER_DOWN: the device is in reset until PWR_OK rises. -/
def execPowerDown (s : State) : Host.Outcome State Fault Refusal := .next (s.powerReset .power .off 1)

/-! ### Warm reset and Thimble watchdog reset (R36, R37, R520) -/

/-- R29, R155, R205, R258, R459, R513, R520. The registers that return to their reset values. -/
def warmRegReset (a : Nat) : Bool :=
  let inside (lo hi : Nat) : Bool := decide (lo ≤ a) && decide (a < hi)
  (inside 0x00000 0x01000 && a != GLB_RSTCAUSE && a != GLB_SCRATCH) || (inside 0x02000 0x04000 && a != HIF_STATUS) ||
    inside 0x07000 0x08000 || inside 0x08000 0x0A000 || (inside 0x0A000 0x0B000 && a != THB_RSTINFO && a != THB_LSMIS) ||
    (inside 0x0C000 0x0D000 && (match regRow a with | some r => r.fields.all (fun f => f.ty != .rw) | none => true)) ||
    inside 0x18000 0x20000 || (inside 0x2A000 0x2B000 && !inside (MEM_OWN 0) (MEM_OWN 21)) ||
    (inside 0x2B000 0x2C000 && a != NVM_WRLINES)

/-- Which scheduled steps end with a warm or watchdog reset: those of the blocks that are reset. -/
def isWarmDropped : Instr → Bool
  | .slotDispatch _ => true
  | .slotBudgetOverrun _ => true
  | .postedStoreAccepted _ => true
  | .bobbinWatchdogCheck => true
  | .thimbleHeartbeat => true
  | .thimbleWatchdogReset => true
  | .mgmtTimeout _ => true
  | .mgmtBusyRetry _ => true
  | .delayExchangePeriod _ => true
  | .enumBreakTimeout _ => true
  | .cellLostTimeout _ => true
  | .claimOutcome => true
  | .chainReclaim => true
  | .snapshotPeriod => true
  | .handoffTimeout => true
  | .hoarmTimeout => true
  | .revertTimerExpire => true
  | .ctlockTimeout => true
  | .standbyHealthReport => true
  | .probeTimeout _ => true
  | .irqHoldoffEnd _ => true
  | .ringStopDone _ => true
  | .commandComplete _ => true
  | .bankPowerDone _ => true
  | .eccWriteback => true
  | .prpEntryExpire => true
  | .prickingPass => true
  | c => isCycleMark c || (cmdRing c).isSome

/-- R347. A leg is OFF, in its safe state, with EN cleared. -/
def State.legRest (s : State) (n : Nat) : State :=
  (((((s.setB (PWM_CTRL_EN n) false).setF (PWM_STATUS_STATE n) legOff).setB (PWM_STATUS_PEND n) false).legHalt n).legSafe n)

/-- R459, R469. A bank after a warm reset: it is on its way to ON. -/
def State.bankWarm (s : State) (n was : Nat) (wakeRet : Bool) : State :=
  if was = psOn then s
  else if was = psRet ∨ (was = psWaking ∧ wakeRet) then (s.setPstate n psRet).bankTo n 0
  else (s.setPstate n psOff).bankTo n 0

/-- R31, R45. The bits of GLB_STATUS and GLB_CLKSTAT that show what the reset does not touch: LCS, BOOTIMG, NTMLOCK, H0LOCK,
TBLOCK, SAFE; the five status bits of GLB_CLKSTAT. -/
def statusKept : Nat := 0x381D0000

/-- R36, R85, R110, R281, R338, R363, R391, R431, R454, R487, R513, R520, R534. A warm reset, or a Thimble watchdog reset. -/
def State.warmReset (s : State) (kind : BootKind) (cause : Nat) : State :=
  let present := s.masterPresent
  let s := s.commitCut.lineFinish
  let status := s.rdN GLB_STATUS &&& statusKept
  let clk := s.rdN GLB_CLKSTAT % 32
  let halt := s.bit NVM_STATUS_HALT
  let banks := (upto 21).map (fun n => (n, s.pstate n, s.bankGo n == .wakeRet))
  let s := s.ctrlStop
  let s := { s with regs := s.regs.filter (fun e => !warmRegReset e.1), agenda := s.agenda.filter (fun e => !isWarmDropped e.2)
                    caps := [], held := [], engs := [], thb := {}, eth := {}, bank := {}, cel := {}, stitch := s.stitch.restart
                    hif := { msixUnmasked := s.hif.msixUnmasked, msixPend := s.hif.msixPend, msixTab := s.hif.msixTab, d3hot := s.hif.d3hot }
                    tat := { cells := s.tat.cells.map (fun (e : Nat × TatCell) => (e.1, { head := e.2.head, life := e.2.life, derate := e.2.derate })) }
                    rdn := { recid := s.rdn.recid, noted := s.rdn.noted, imageHash := s.rdn.imageHash } }
  let s := ((s.wrN GLB_STATUS status).wrN GLB_CLKSTAT clk).setB NVM_STATUS_HALT halt
  let s := s.wrN GLB_RSTCAUSE (s.rdN GLB_RSTCAUSE ||| cause)
  let s := s.clearRange 0x30000000 0x6000
  let s := forN 16 (fun e t => t.setF (BOB_STATUS_THSTEP e) (t.fld THM_STATUS_STEP)) s
  let s := forL banks (fun b t => t.bankWarm b.1 b.2.1 b.2.2) s
  let s := forN 12 (fun n t => t.legRest n) s
  let s := (s.lanesRestart.pllCheck 3).phuWarm.prkWarm
  let s := if s.bit RDN_CTRL_EN then s.rdnEnter rdJoin else s.setF GLB_STATUS_ROLE 0
  let s := s.updFlt (fun f => { f with wdogDue := false })
  ((s.updBst (fun b => { b with longop := none, kind := kind, at_ := .thimble })).celStatus).masterWatch present

/-- R36. A write of GLB_RESET: another KEY, or a running control cycle, refuses it, whatever WARM (log entry 56). -/
def State.resetWrite (s : State) (m : Master) (w : Nat) : State :=
  if bitsOf w 16 16 ≠ 0xC0DE ∨ s.bit GLB_STATUS_CTRL_RUN then s.refuse m GLB_RESET
  else if bitOf w 0 then s.warmReset .warm 4
  else s

/-- R35, R36. WARM_RESET. -/
def execWarmReset (m : Master) (w : Word) (s : State) : Host.Outcome State Fault Refusal :=
  .next (s.loaderGate m (fun s => s.resetWrite m w.toNat))

/-- R37, R510, R520. THIMBLE_WATCHDOG_RESET, after the reaction of its source. -/
def execThimbleWatchdogReset (s : State) : Host.Outcome State Fault Refusal :=
  .next (if s.flt.wdogDue then s.warmReset .wdog 8 else s)

/-! ### Boot (R145, R477, R517, R521) -/

/-- R477. The committed records of the event log: slot and RECID; and the invalid slots that are not blank. -/
def State.logScan (s : State) : List (Nat × Nat) × Nat :=
  let lines := (s.mem.filter (fun e => decide (fltLogBase ≤ e.1) && decide (e.1 < fltLogBase + 0x200000))).map
    (fun e => (e.1 - fltLogBase) / 32)
  let slots := lines.eraseDups
  let good := slots.filter (fun k => s.memN (fltLogBase + 32 * k + 31) 1 == 0xC3 && !s.uncorr (fltLogBase + 32 * k) 8)
  (good.map (fun k => (k, s.memN (fltLogBase + 32 * k) 4)), slots.length - good.length)

/-- The entry with the highest second component. -/
def highest : List (Nat × Nat) → Option (Nat × Nat)
  | [] => none
  | e :: t => match highest t with
    | some f => if f.2 < e.2 then some e else some f
    | none => some e

/-- R389, R477. The log position and FLT_NEXTID go on from the committed record with the highest RECID. -/
def State.logResolve (s : State) : State :=
  let r := s.logScan
  let s := if r.2 = 0 then s else (s.countN NVM_JDISCARD r.2).evt NVM_EVT_JDISCARD 0xE8 0xFF
  match highest r.1 with
  | none => s
  | some top =>
    let wrap := r.1.filter (fun e => decide (256 ≤ e.1))
    let s := (s.wrN FLT_NEXTID (top.2 + 1)).setF FLT_LOGSTAT_PINCNT (if top.1 < 256 then top.1 + 1 else 256)
    let s := match highest wrap with
      | some w => s.setF FLT_LOGSTAT_WRIDX ((w.1 - 256 + 1) % 65280)
      | none => s
    s.updFlt (fun f => { f with slots := r.1, wrapCnt := wrap.length })

/-- R517. The fuses are loaded. -/
def State.fusesLoad (s : State) : State :=
  let s := (s.updBst (fun b => { b with loaded := b.fuses })).showFuses
  let macs := ((s.bst.loaded.cols.filter (fun e => e.2.isSome)).map (fun e => e.1 / 2)).eraseDups
  s.setF MEM_REPSTAT_CNT macs.length

/-- R526. The stamp is checked, and its line overwritten with zeros. A valid stamp also reports the shutdown run. -/
def State.stampCheck (s : State) : State :=
  let why := s.stampWhy
  let s := (s.setF BST_BOOT_STAMPWHY why).thimbleLine bistBase (List.replicate 32 0#8)
  if why = 0 then (s.setB GLB_STATUS_STAMP true).wrN BST_LASTRUN 0x23000000 else s

/-- R521. The image to try first, with ALT, and what the trial rule writes. -/
def State.bootFirst (s : State) : State × Bool × Bool :=
  let p := s.bootPref
  if s.bst.kind = .warm then (s, if s.rdN THB_FWVER = 0 ∧ s.bit BST_STATUS_NOIMG then p.1 else s.bit GLB_STATUS_BOOTIMG, false)
  else if p.2.1 && decide (2 ≤ p.2.2) then (s.writePref (!p.1) false 0, !p.1, true)
  else if p.2.1 then (s.writePref p.1 true (p.2.2 + 1), p.1, false)
  else (s, p.1, false)

/-- R144, R145, R399, R517. Thimble boots an image. -/
def State.bootImage (s : State) (img : Bool) (b : List Byte) (alt : Bool) : State :=
  let s := (s.setB GLB_STATUS_BOOTIMG img).setB BST_STATUS_NOIMG false
  let s := forN 16 (fun e t => t.loadEngine b e) s
  let s := (((s.wrN THB_FWVER (fieldOf b 12 4)).setB THB_STATUS_LSOK true).setB THB_STATUS_IMGWP true).setB NVM_STATUS_WPIMG true
  let p := s.bootPref
  let s := ((s.setB BST_BOOT_TRIAL (p.2.1 && p.1 == img)).setF BST_BOOT_TRIES (min 2 p.2.2)).setB BST_BOOT_PREF p.1
  let s := (s.setB BST_BOOT_ALT alt).updRdn (fun r => { r with imageHash := sha384 b })
  let s := s.thimbleRuns.updBst (fun x => { x with at_ := .ready })
  if alt then s.evt BST_EVT_BOOTALT 0xFC 0xFF else s

/-- R145, R521, R522. Image selection. -/
def State.bootSelect (s : State) : State :=
  let r := s.bootFirst
  let s := r.1
  let first := r.2.1
  match s.imageAt first with
  | some b => s.bootImage first b r.2.2
  | none =>
    match s.imageAt (!first) with
    | some b => s.bootImage (!first) b true
    | none => (s.setB BST_STATUS_NOIMG true).updBst (fun x => { x with at_ := .loader })

/-- R517, R520. Thimble's boot: fuses, image, MRAM regions, stamp. -/
def State.thimbleBoot (s : State) : State :=
  let power := s.bst.kind == .power || s.bst.kind == .therm
  let s := if power then s.fusesLoad else s
  let s := s.bootSelect
  if s.bst.at_ = .ready then
    if power then s.logResolve.ageRestore.stampCheck else s.setF BST_BOOT_STAMPWHY 6
  else s

/-- R145, R517. THIMBLE_BOOT, once the timebase PLL is locked. -/
def execThimbleBoot (s : State) : Host.Outcome State Fault Refusal :=
  .next (if s.bst.at_ = .thimble ∧ s.bit GLB_STATUS_TBLOCK = true then s.thimbleBoot else s)

/-- R517. Boot and self-test are complete. -/
def State.readySet (s : State) (fails : List BistFail) : State :=
  let power := s.bst.kind == .power || s.bst.kind == .therm
  let s := if power && !s.bit GLB_STATUS_STAMP then s.bistRun 1 true true fails else s
  let s := (s.setB GLB_STATUS_READY true).setB BST_BOOT_VALID true
  let s := if power then s.setF BST_BOOT_BOOTMS (min 0xFFFF (s.tick / 50000)) else s
  (s.updBst (fun b => { b with at_ := .done })).updEnerg

/-- R517, R523. READY_SET; `fails` are the failures of the boot BIST, where one runs. -/
def execReadySet (fails : List BistFail) (s : State) : Host.Outcome State Fault Refusal :=
  .next (if s.bst.at_ = .ready then s.readySet fails else s)

/-- R521. A write of BST_BOOTCFG. -/
def State.bootCfg (s : State) (m : Master) (w : Nat) : State :=
  let sel := bitOf w 0
  if bitsOf w 16 16 ≠ 0xB0C5 ∨ (bitOf w 1 = true ∧ headerOk (s.memBytes (imageBase sel) 32) = false) then s.refuse m BST_BOOTCFG
  else
    let s := if bitOf w 2 then s.writePref (s.bit GLB_STATUS_BOOTIMG) false 0 else s
    if bitOf w 1 then s.writePref sel false 0 else s

/-- R521. BOOT_CONFIRM: the host's keyed write with CONFIRM. -/
def execBootConfirm (s : State) : Host.Outcome State Fault Refusal := .next (s.gate .host (fun s => s.bootCfg .host 0xB0C50004))

/-- R521. BOOT_SELECT: a keyed write with SELVALID. -/
def execBootSelect (m : Master) (sel : Bool) (s : State) : Host.Outcome State Fault Refusal :=
  .next (s.gate m (fun s => s.bootCfg m (0xB0C50002 + if sel then 1 else 0)))

/-! ### Shutdown (R525) -/

/-- R525. Whether a shutdown is refused. -/
def State.shutdownBad (s : State) : Bool :=
  s.bit GLB_CTRL_RUN || s.bit GLB_STATUS_CTRL_RUN || s.bit GLB_STATUS_BUSY || !s.awake || s.bit BST_STATUS_SDBUSY ||
    (upto 12).any (fun n => s.fld (PWM_STATUS_STATE n) != legOff && s.fld (PWM_STATUS_STATE n) != legLatched)

/-- R525. A write of BST_SDCMD. -/
def State.shutdownCmd (s : State) (m : Master) (w : Nat) : State :=
  if !bitOf w 0 then s
  else if bitsOf w 16 16 ≠ 0x5D7E ∨ s.shutdownBad then s.refuse m BST_SDCMD
  else ((s.setB BST_STATUS_SDBUSY true).selvTrip 61 0xFFF true true).sched (us 10) .shutdownPadHold

/-- R525. SHUTDOWN_START: the host's keyed write. -/
def execShutdownStart (s : State) : Host.Outcome State Fault Refusal := .next (s.gate .host (fun s => s.shutdownCmd .host 0x5D7E0001))

/-- R110, R275. Every lane and both Ethernet ports go off. -/
def State.linksOff (s : State) : State :=
  (forN 2 (fun p t => t.ethCtrl p (putBit (t.rdN (ETH_CTRL p)) 0 false)) (forN 26 (fun l t => t.laneDisable l) s)).pllCheck 3

/-- R525. SHUTDOWN_PAD_HOLD: the pads hold, AGE saves, lanes and Ethernet go off, and the shutdown BIST begins. -/
def execShutdownPadHold (s : State) : Host.Outcome State Fault Refusal :=
  .next (if s.bit BST_STATUS_SDBUSY && !s.selv.padHold then
      ((s.updSelv (fun v => { v with padHold := true })).linksOff.ageSave).setB BST_STATUS_BISTRUN true
    else s)

/-- R391. Every record of the FIFO is committed. -/
def State.fifoCommit (s : State) : State :=
  (forL s.flt.fifo (fun r t => t.commitRec r) (s.updFlt (fun f => { f with fifo := [] }))).fifoAfter

/-- R525, R526. The shutdown BIST has ended: records, stamp, state SHUTDOWN. -/
def State.shutdownEnd (s : State) (fails : List BistFail) : State :=
  let s := s.fifoCommit.bistRun 2 true true fails
  let s := s.thimbleLine bistBase (stampBytes26 (s.rdN BST_RUNID) (!fails.isEmpty) s.bst.loaded)
  let s := ((s.setB BST_STATUS_SDBUSY false).setB BST_STATUS_SHUTDOWN true).setB HIF_STATUS_LINKUP false
  { s with agenda := [] }

/-- R525. SHUTDOWN_BIST_DONE. The save of AGE comes before the run, and after a thermal decision the run is aborted. -/
def execShutdownBistDone (fails : List BistFail) (s : State) : Host.Outcome State Fault Refusal :=
  .next (if s.bit BST_STATUS_SDBUSY && s.selv.padHold && s.age.saving.isNone && !s.thermalDecided then s.shutdownEnd fails else s)

/-! ### Quiet (R528, R529) -/

/-- R528. Whether ENTER is refused. -/
def State.quietBad (s : State) : Bool :=
  s.bit GLB_CTRL_RUN || s.bit GLB_STATUS_CTRL_RUN || s.fld GLB_STATUS_ROLE == 1 || s.fld GLB_STATUS_ROLE == 3 ||
    s.bit GLB_STATUS_BUSY || s.bit BST_STATUS_SDBUSY || s.bit BST_STATUS_SHUTDOWN

/-- R528. Entry into Quiet begins. -/
def State.quietEnter (s : State) : State :=
  let engs := (upto 16).foldl (fun b e => if s.bit (BOB_CTRL_EN e) then b ||| BitVec.twoPow 16 e else b) 0#16
  let lanes := (upto 26).foldl (fun b l => if s.bit (LNK_CTRL_EN l) then b ||| BitVec.twoPow 26 l else b) 0#26
  let s := ((s.setB BST_QSTAT_REFUSED false).setF BST_QSTAT_STATE 1).incr BST_QCNT
  let s := s.updBst (fun b => { b with engs := engs, lanes := lanes, wake := 0 })
  let s := forN 12 (fun n t => t.legRest n) s
  let s := forN 16 (fun e t => t.engCtrl .thimble e false) s
  ((forN 26 (fun l t => t.laneDisable l) s).setB AGE_STATUS_RUN false).ageSave

/-- R471. A bank in Quiet. -/
def State.quietBank (s : State) (n : Nat) : State :=
  let q := s.fld (MEM_PWR_QUIET n)
  let s := s.unsched (fun c => c == .bankPowerDone (bankIx n))
  if q = 0 then (s.setGo n .none).bankTo n 0
  else if q = 1 then (if s.pstate n = psOff then s.setGo n .none else (s.setGo n .none).setPstate n psRet)
  else ((s.setGo n .none).setPstate n psOff).bankLost n

/-- R529. A wake takes effect. -/
def State.quietWake (s : State) (src : Nat) : State :=
  let lost := (upto 16).foldl (fun b e => if s.pstate e = psOff then b ||| BitVec.twoPow 16 e else b) 0#16
  let s := ((s.setF BST_QSTAT_STATE 3).setF BST_QSTAT_WSRC src).updBst (fun b => { b with lost := lost })
  (forN 21 (fun n t => t.bankReq n (t.fld (MEM_PWR_REQ n))) s).sched (us 500) .quietAwake

/-- R529. A wake event: during entry it waits; together with the wake that took effect it is recorded. -/
def State.wakeEvent (s : State) (src : Nat) : State :=
  let st := s.fld BST_QSTAT_STATE
  if st = 1 then s.updBst (fun b => { b with wake := b.wake ||| BitVec.ofNat 3 src })
  else if st = 2 then s.quietWake src
  else if st = 3 ∧ s.agenda.contains (s.tick + us 500, .quietAwake) then s.setF BST_QSTAT_WSRC (s.fld BST_QSTAT_WSRC ||| src)
  else s

/-- R528, R529. A write of BST_QCMD. -/
def State.quietCmd (s : State) (m : Master) (w : Nat) : State :=
  if bitsOf w 0 2 = 0 then s
  else if bitsOf w 16 16 ≠ 0x9E17 then s.refuse m BST_QCMD
  else
    let s := if bitOf w 0 && s.awake then
        (if s.quietBad then (s.setB BST_QSTAT_REFUSED true).refuse m BST_QCMD else s.quietEnter)
      else s
    if bitOf w 1 then s.wakeEvent 4 else s

/-- R528. QUIET_ENTER: the host's keyed write with ENTER. -/
def execQuietEnter (s : State) : Host.Outcome State Fault Refusal := .next (s.gate .host (fun s => s.quietCmd .host 0x9E170001))

/-- R529. QUIET_WAKE_CMD: the host's keyed write with WAKE. -/
def execQuietWakeCmd (s : State) : Host.Outcome State Fault Refusal := .next (s.gate .host (fun s => s.quietCmd .host 0x9E170002))

/-- R471, R528. Entry is complete: engines have finished their runs, the core PLL stops, the banks are in their QUIET states. -/
def State.quietEntered (s : State) : State :=
  let s := (s.setF BST_QSTAT_STATE 2).setB GLB_CLKSTAT_COREPLL false
  let s := forN 21 (fun n t => t.quietBank n) s
  if s.bst.wake = 0 then s else s.quietWake s.bst.wake.toNat

/-- R528. QUIET_ENTRY_DONE. -/
def execQuietEntryDone (s : State) : Host.Outcome State Fault Refusal :=
  .next (if s.fld BST_QSTAT_STATE = 1 ∧ (upto 16).all (fun e => !s.bit (BOB_STATUS_BUSY e)) = true then s.quietEntered else s)

/-- R529. WAKE_PIN: WAKE held high for 1 µs. -/
def execWakePin (s : State) : Host.Outcome State Fault Refusal := .next (if s.bit BST_QCFG_PINEN then s.wakeEvent 1 else s)

/-- R412, R529. AWAKE: sections of banks that were OFF are loaded, engines and lanes enabled again, a paired unit joins. -/
def State.quietAwake (s : State) : State :=
  let s := (s.setF BST_QSTAT_STATE 0).setB GLB_CLKSTAT_COREPLL true
  let b := s.memBytes (imageBase (s.bit GLB_STATUS_BOOTIMG)) (min 0x100000 (s.memN (imageBase (s.bit GLB_STATUS_BOOTIMG) + 8) 4))
  let s := forL ((bitsIn 16 s.bst.lost.toNat).filter (fun e => s.fld (MEM_PWR_REQ e) == 0)) (fun e t => t.loadEngine b e) s
  let s := forL (bitsIn 16 s.bst.engs.toNat) (fun e t => t.engCtrl .thimble e true) s
  let s := forL (bitsIn 26 s.bst.lanes.toNat) (fun l t => t.laneEnable l) s
  let s := if s.bit RDN_CTRL_EN then (s.rdnEnter rdJoin).updRdn (fun r => { r with snapDone := false, deltaAge := 255 }) else s
  (s.setB AGE_STATUS_RUN (s.bit AGE_CTRL_EN)).updBst (fun x => { x with engs := 0, lanes := 0, lost := 0, wake := 0 })

/-- R529. QUIET_AWAKE. -/
def execQuietAwake (s : State) : Host.Outcome State Fault Refusal := .next (if s.fld BST_QSTAT_STATE = 3 then s.quietAwake else s)

/-- R109, R529. NTM_ALARM: the armed alarm fires, and wakes the unit from Quiet if it may. -/
def execNtmAlarm (s : State) : Host.Outcome State Fault Refusal :=
  .next (if s.alarmDue then
      let s := (s.setB NTM_ALARM_SECH_ARM false).evtNtm NTM_EVT_ALARM
      if s.bit BST_QCFG_ALARMEN then s.wakeEvent 2 else s
    else s)

/-! ### Test access (R532) -/

/-- R531, R532. The access level that an instruction needs. -/
def tapNeeds : TapIr → Nat
  | .engineDebug => 2
  | .full => 3
  | _ => 1

/-- R532. EXTEST holds the gate pins low; leaving it, they show the commanded levels again. -/
def State.tapPins (s : State) (n : Nat) (high on : Bool) : State :=
  let level := s.sideOn n high && !on
  if s.selv.padHold || s.rbit PWM_OUTSTAT (if high then n else 12 + n) == level then s
  else (s.setBit PWM_OUTSTAT (if high then n else 12 + n) level).emit (.gate n high level (s.tick * 8))

/-- R532. An instruction of the test access port. -/
def State.tapInstr (s : State) (ir : TapIr) : State :=
  if s.fld BST_TAP_ACCESS < tapNeeds ir then s
  else
    let was := s.bst.tap == some .extest
    let s := s.updBst (fun b => { b with tap := some ir })
    let s := if (ir == .extest) == was then s
      else forN 12 (fun n t => (t.tapPins n true (ir == .extest)).tapPins n false (ir == .extest)) s
    if ir = .idcode then s.emit (.tdo 0x19620F3D#32) else s

/-- R532. TAP_INSTRUCTION. -/
def execTapInstruction (ir : TapIr) (s : State) : Host.Outcome State Fault Refusal := .next (s.tapInstr ir)

/-! ### The thermal halt (R446) -/

/-- R525, R535. A BIST run that the halt aborts: RESULT 2 in BST_LASTRUN, without records. -/
def State.bistAbort (s : State) : State :=
  if !s.bit BST_STATUS_BISTRUN then s
  else if s.bit BST_STATUS_SDBUSY then s.wrN BST_LASTRUN 0x2B000000
  else
    let k := match s.bst.longop with
      | some (_, arg) => bitsOf arg 0 2
      | none => 0
    s.wrN BST_LASTRUN (0x38000000 + (if k == 0 || bitOf k 0 then 2 ^ 25 else 0) + (if k == 0 || bitOf k 1 then 2 ^ 24 else 0))

/-- R391, R446, R525. The halt: everything stops, and the pads hold their levels. -/
def State.thermalHalt (s : State) : State :=
  let s := s.bistAbort.linksOff.updSelv (fun v => { v with padHold := true })
  let s := (((s.setB GLB_STATUS_READY false).setB HIF_STATUS_LINKUP false).setB BST_STATUS_BISTRUN false).setB BST_STATUS_SDBUSY false
  let s := (s.updFlt (fun f => { f with fifo := [] })).updFifo.updEnerg
  { s.updThm (fun t => { t with halted := true }) with agenda := [] }

/-- R446. THERMAL_HALT, 10 µs after the decision. -/
def execThermalHalt (s : State) : Host.Outcome State Fault Refusal :=
  .next (if s.thm.decided && !s.thm.halted then s.thermalHalt else s)

/-- R446, R520. THERMAL_RESTART: a reset that acts as a power-on reset, with THERM in place of POR. -/
def execThermalRestart (s : State) : Host.Outcome State Fault Refusal :=
  .next (if s.thm.halted then s.powerReset .therm .thimble 0x10 else s)

end Sys2Proof.Machine
end

