-- ==== Sys2Proof/Machine/Regs.lean ====
section
/-!
DEFINITION. The register bus: what a write of a register does at every address of BAR0 (REGISTER_WRITE), and what a read
returns and captures (PAIR_LO_READ). A register with an effect of its own calls the operation of its block; every other
one stores by its field types (R5). The same operations serve the host, Thimble and the engines' mirror (R27).
-/

namespace Sys2Proof.Machine

/-- The index of an address in an array of `n` registers, `stride` bytes apart. -/
def arrIx (base stride n a : Nat) : Option Nat :=
  if base ≤ a ∧ a < base + stride * n ∧ (a - base) % stride = 0 then some ((a - base) / stride) else none

/-- Whether an address is a register of an array. -/
def inArr (base stride n a : Nat) : Bool := (arrIx base stride n a).isSome

/-- The index of an address in an array whose elements are `stride` bytes apart (0 outside it). -/
def ixOf (base stride n a : Nat) : Nat := (arrIx base stride n a).getD 0

/-! ### Writes (R5, R7, R8) -/

/-- R8. The RW part of a _HI word is held for the master until it writes _LO. -/
def State.pairHi (s : State) (m : Master) (a w : Nat) : State := s.hold m a (s.regWould a w)

/-- R8. A write of _LO takes the held _HI word with it. -/
def State.pairLo (s : State) (m : Master) (lo w : Nat) : State :=
  ((s.wrN (lo + 4) (s.heldN m (lo + 4))).unhold m (lo + 4)).regStore lo false w

/-- A write of 1 to CLR (bit 31) clears a maximum of `width` bits at bit `lo`. -/
def State.clrMax (s : State) (a lo width w : Nat) : State := if bitOf w 31 then s.setF ⟨a, lo, width⟩ 0 else s

/-- R29, R36, R39, R43. A write in the GLB block. -/
def State.writeGlb (s : State) (m : Master) (a w : Nat) : State :=
  if a = GLB_CTRL then (if bitOf w 0 then s.startGate m GLB_CTRL (fun s => s.glbCtrl m w) else s.glbCtrl m w)
  else if a = GLB_RESET then s.resetWrite m w
  else if a = GLB_LONGOP then s.longStart w
  else if a = GLB_CYCCFG then
    (if s.bit GLB_STATUS_CTRL_RUN then s.refuse m GLB_CYCCFG else s.regStore a (s.bit GLB_LOCK_CFG) w)
  else s.regStore a false w

/-- R481. A write in the SEC block. -/
def State.writeSec (s : State) (a w : Nat) : State := if a = SEC_TAMPCFG then s.tampCfg w else s.regStore a false w

/-- R495, R507. A write in the HIF block. -/
def State.writeHif (s : State) (m : Master) (a w : Nat) : State :=
  if inArr (HIF_RBASE_LO 0) 32 32 a then
    (if s.ringIdle (ixOf (HIF_RBASE_LO 0) 32 32 a) then s.pairLo m a w else s.refuse m a)
  else if inArr (HIF_RBASE_HI 0) 32 32 a then
    (if s.ringIdle (ixOf (HIF_RBASE_HI 0) 32 32 a) then s.pairHi m a w else s.refuse m a)
  else if inArr (HIF_RCFG 0) 32 32 a then s.rcfgWrite m (ixOf (HIF_RCFG 0) 32 32 a) w
  else if inArr (HIF_MBCTL 0) 4 4 a then
    let k := ixOf (HIF_MBCTL 0) 4 4 a
    let s := if bitOf w 8 then s.mailPop k else s
    if bitOf w 9 then s.mailPost k else s
  else s.regStore a false w

/-- R57, R59. A write in the HOOP block. -/
def State.writeHoop (s : State) (a w : Nat) : State :=
  if a = HOOP_CTRL then s.hoopCtrl w
  else if a = HOOP_H0NOM then s.h0Nom (bitsOf w 0 16)
  else if a = HOOP_H1ANGLE then s.h1AngleWrite w
  else s.regStore a false w

/-- R71, R73, R76. A write in the PRK block. -/
def State.writePrk (s : State) (m : Master) (a w : Nat) : State :=
  if a = PRK_CTRL then s.prkCtrl m w
  else if a = PRK_SWAP then (if bitOf w 0 then (s.swapReq (bitsOf w 1 2)).1 else s)
  else if a = PRK_EDCMD then s.edCmd (bitsOf w 4 2) (bitsOf w 0 4)
  else if a = PRK_DLYMAX then s.clrMax PRK_DLYMAX 0 16 w
  else s.regStore a false w

/-- R93, R95, R96, R98, R99. A write in the NTM block. -/
def State.writeNtm (s : State) (m : Master) (a w : Nat) : State :=
  if a = NTM_CTRL then s.ntmCtrl w
  else if a = NTM_MTMO then (s.regStore a false w).masterArm
  else if a = NTM_HOLDLIM then
    (let s := s.regStore a false w
     if s.ntmState = ntmHoldover then s.holdCheck else s)
  else if a = NTM_INC_HI ∨ a = NTM_SETSEC_HI ∨ a = NTM_MASTERID_HI then s.pairHi m a w
  else if a = NTM_INC_LO then s.ntmIncWrite m w
  else if a = NTM_SETSEC_LO then s.pairLo m a w
  else if a = NTM_MASTERID_LO then s.masterId m w
  else if a = NTM_MASTERPORT then s.masterPort w
  else if a = NTM_ADJ then s.ntmAdj w
  else if a = NTM_ADJCTL then s.ntmAdjCtl w
  else if a = NTM_PPSOFS then s.ppsOfs w
  else s.regStore a false w

/-- R104, R106. A write in the ETH block. An enabled port keeps lane PLL 3 running (R264). -/
def State.writeEth (s : State) (m : Master) (a w : Nat) : State :=
  if inArr (ETH_CTRL 0) 2048 2 a then ((s.ethCtrl (ixOf (ETH_CTRL 0) 2048 2 a) w).pllCheck 3).masterWatch s.masterPresent
  else if a = ETH_PRPCFG 0 then s.prpCfg m w
  else if a = ETH_PRPCFG 1 then s
  else if inArr (ETH_MAC_HI 0) 2048 2 a then s.pairHi m a w
  else if inArr (ETH_MAC_LO 0) 2048 2 a then s.pairLo m a w
  else s.regStore a false w

/-- R134, R142, R147, R149. A write in the block of engine `e`. -/
def State.writeEng (s : State) (m : Master) (e a w : Nat) : State :=
  if a = BOB_CTRL e then
    (if bitOf w 0 then s.startGate m (BOB_CTRL e) (fun s => s.engCtrl m e true) else s.engCtrl m e false)
  else if a = BOB_WAKE e then s.bobWake m e w
  else if a = BOB_WDKICK e then s.bobKick e
  else if inArr (BOB_SCFG e 0) 16 8 a then s.slotCfg e (ixOf (BOB_SCFG e 0) 16 8 a) w
  else if inArr (BOB_SMAX e 0) 32 8 a then s.clrMax a 0 24 w
  else s.regStore a false w

/-- A write in the BOB block. -/
def State.writeBob (s : State) (m : Master) (a w : Nat) : State := s.writeEng m ((a - BOB_CTRL 0) / 512) a w

/-- R147, R148. A write in the THB block: engine writes are ignored. -/
def State.writeThb (s : State) (m : Master) (a w : Nat) : State :=
  match m with
  | .eng _ _ => s.refuse m a
  | _ => if a = THB_BWDCFG then s.bwdCfg w else s.regStore a false w

/-- R173, R188. A write in the STCH block. -/
def State.writeStch (s : State) (a w : Nat) : State :=
  let v := s.regWould a w
  if a = STCH_CTRL then s.stitchCtrl (bitsOf w 0 3)
  else if inArr (STCH_PHCFG 0) 4 3 a then s.phCfg (ixOf (STCH_PHCFG 0) 4 3 a) v
  else if inArr (STCH_CAR 0) 4 3 a then s.stitchLocked a (2 ^ ixOf (STCH_CAR 0) 4 3 a) v
  else if inArr (STCH_CAROFS 0) 4 3 a then s.stitchLocked a (2 ^ ixOf (STCH_CAROFS 0) 4 3 a) v
  else if inArr (STCH_CARPER 0) 4 3 a then s.stitchLocked a (2 ^ ixOf (STCH_CARPER 0) 4 3 a) v
  else if a = STCH_CHPH0 ∨ a = STCH_CHPH1 then s.stitchLocked a 7 v
  else if a = STCH_CALC then s.clrMax STCH_CALC 16 15 w
  else s.regStore a false w

/-- R205. A write in the TAT block. -/
def State.writeTat (s : State) (a w : Nat) : State :=
  if a = TAT_CALC then s.clrMax TAT_CALC 16 15 w else s.regStore a false w

/-- R263, R275, R278, R280. A write in the registers of lane `l`. SAT of a 48-bit counter clears the whole count (R281). -/
def State.writeLane (s : State) (m : Master) (l a w : Nat) : State :=
  if a = LNK_CTRL l then (if bitOf w 0 then s.startGate m (LNK_CTRL l) (fun s => s.lnkCtrl l w) else s.lnkCtrl l w)
  else if a = LNK_PRBS l then s.lnkPrbs l w
  else if a = LNK_EYECTL l then
    let s := s.setF (LNK_EYECTL_DWELL l) (bitsOf (s.regWould a w) 8 5)
    if bitOf w 0 then s.eyeStart l else s
  else if a = LNK_PRBSERR_HI l then (if bitOf w 31 then (s.wrN a 0).wrN (LNK_PRBSERR_LO l) 0 else s)
  else if a = LNK_PRBSBIT_HI l then (if bitOf w 31 then ((s.prbsFold l).wrN a 0).wrN (LNK_PRBSBIT_LO l) 0 else s)
  else s.regStore a false w

/-- A write in the LNK block. -/
def State.writeLnk (s : State) (m : Master) (a w : Nat) : State := s.writeLane m ((a - LNK_CTRL 0) / 1024) a w

/-- R235, R259. A write in the CEL block. -/
def State.writeCel (s : State) (m : Master) (a w : Nat) : State :=
  if a = CEL_ENUMGO then s.enumGo m (bitOf w 24) (bitsOf w 0 24)
  else if a = CEL_CTRL then
    let was := s.bit CEL_CTRL_EN
    let s := (s.regStore a false w).celStatus
    if s.bit CEL_CTRL_EN && !was then s.slotIdle else s
  else if inArr (CEL_CHCFG 0) 4 24 a then (s.regStore a false w).celStatus
  else s.regStore a false w

/-- R289, R293, R295, R300, R302, R304, R307, R309. A write in the ADC block. -/
def State.writeAdc (s : State) (a w : Nat) : State :=
  if a = ADC_CTRL then s.adcCtrl w
  else if a = ADC_REFCFG then s.refSelect (bitsOf w 0 2) (bitsOf w 16 12)
  else if a = ADC_INJ then s.adcInj w
  else if a = ADC_SEQSW then s.seqSw (bitsOf w 0 2)
  else if a = ADC_URG then s.urgentReq (bitsOf w 8 1) (bitsOf w 0 5)
  else if a = ADC_SCCFG then s.scCfg (s.regWould a w)
  else if inArr (ADC_WCCFG 0) 4 8 a then (s.regStore a (s.bit ADC_LOCK_WC) w).wcUpdate (ixOf (ADC_WCCFG 0) 4 8 a)
  else if inArr (ADC_WCTHR 0) 4 8 a then (s.regStore a (s.bit ADC_LOCK_WC) w).wcUpdate (ixOf (ADC_WCTHR 0) 4 8 a)
  else if a = ADC_FCTRL then s.fctrl w
  else s.regStore a false w

/-- R315. A write in the PHU block. -/
def State.writePhu (s : State) (a w : Nat) : State :=
  if a = PHU_CTRL then s.phuCtrl (s.regWould a w)
  else if inArr (PHU_CHCFG 0) 4 12 a ∨ inArr (PHU_GRP 0) 4 4 a ∨ a = PHU_C37CFG then s.phuLocked a (s.regWould a w)
  else if a = PHU_SHIFTMAX then s.clrMax PHU_SHIFTMAX 0 8 w
  else s.regStore a false w

/-- R337, R342. A write in the TWU block. -/
def State.writeTwu (s : State) (a w : Nat) : State :=
  if a = TWU_CTRL then s.twuCtrl (s.regWould a w)
  else if a = TWU_WIN ∨ inArr (TWU_CHDLY 0) 4 4 a then s.twuLocked a (s.regWould a w)
  else if a = TWU_LOCCMD then (if bitOf w 0 then s.twLocate else s)
  else s.regStore a false w

/-- R347, R349, R372. A write of PWM_CFGn; the outputs of a leg in OFF are those of its safe state, so they follow. -/
def State.pwmCfg (s : State) (n w : Nat) : State :=
  if s.bit SELV_LOCK_CFG then s.selvCfgRef
  else if s.fld (PWM_STATUS_STATE n) ≠ legOff ∨ (bitOf w 2 = false ∧ bitsOf (s.regWould (PWM_CFG n) w) 16 11 < 50) then
    s.evtLeg PWM_EVT_CFGREF n
  else (s.regStore (PWM_CFG n) false w).legSafe n

/-- R347, R349. A write in the PWM block at an address that would be one of leg `n`. -/
def State.writePwmLeg (s : State) (m : Master) (n a w : Nat) : State :=
  if a = PWM_GSTART then s.gstart (bitsOf w 0 12)
  else if a < PWM_GSTART ∧ a = PWM_CTRL n then
    let commit (s : State) : State := if bitOf w 1 then s.commitPair n else s
    if bitOf w 0 then s.startGate m (PWM_CTRL n) (fun s => commit (s.legEnable n)) else commit (s.legDisable n)
  else if a < PWM_GSTART ∧ a = PWM_CFG n then s.pwmCfg n w
  else s.regStore a false w

/-- A write in the PWM block. -/
def State.writePwm (s : State) (m : Master) (a w : Nat) : State := s.writePwmLeg m ((a - PWM_CTRL 0) / 256) a w

/-- R372. The registers that SELV_LOCK.CFG locks in the SELV block. -/
def selvLocked (a : Nat) : Bool :=
  a == SELV_ACK_TMO || a == SELV_BRKMIN || a == SELV_TRIPCFG || inArr (SELV_XCFG 0) 4 12 a || inArr (SELV_LCFG 0) 4 12 a

/-- R362, R372. A write in the SELV block. A source that is enabled while its condition holds latches (R354). -/
def State.writeSelv (s : State) (a w : Nat) : State :=
  if a = SELV_CLR then s.selvClear w
  else if a = SELV_FORCE then s.selvForce w
  else if selvLocked a then (if s.bit SELV_LOCK_CFG then s.selvCfgRef else (s.regStore a false w).selvRecheck s)
  else s.regStore a false w

/-- R374. The sources whose CLASS and MODE are fixed. -/
def fltFixed (n : Nat) : Bool := n == 0x00 || n == 0x01 || n == 0x02 || n == 0x05

/-- R374, R393. A write in the source table: fixed sources keep CLASS and MODE, sources 0x00 and 0x01 keep ALL_SAFE in
REACT. -/
def State.fltSource (s : State) (m : Master) (n a w : Nat) : State :=
  if s.bit FLT_LOCK_CFG then s.refuse m fltBlock
  else
    let w := if a = FLT_SCFG n ∧ fltFixed n then putBits w 28 3 (bitsOf (s.rdN a) 28 3) else w
    let w := if a = FLT_SREACT n ∧ n ≤ 1 then putBit w 6 (bitOf (s.rdN a) 6 || bitOf w 6) else w
    (s.regStore a false w).eccMeet 0x11 0

/-- A write in the source table of FLT. -/
def State.fltTable (s : State) (m : Master) (a w : Nat) : State := s.fltSource m ((a - FLT_SCFG 0) / 16) a w

/-- R383. Cleared cause bits; FATAL follows the class F events that are left. -/
def State.causeClear (s : State) (a w : Nat) : State :=
  let k := (a - FLT_CAUSE 0) / 4
  let s := (s.regStore a false w).updFlt (fun f => { f with fatal := f.fatal.filter (fun x => !(x / 32 == k && bitOf w (x % 32))) })
  s.setB FLT_STATUS_FATAL (!s.flt.fatal.isEmpty)

/-- R383–R389, R393. A write in the FLT block. -/
def State.writeFlt (s : State) (m : Master) (a w : Nat) : State :=
  if FLT_SCFG 0 ≤ a then (if (regRow a).isSome then s.fltTable m a w else s)
  else if a = FLT_CTRL ∨ a = FLT_ERRPIN_MINW then (if s.bit FLT_LOCK_CFG then s.refuse m fltBlock else s.regStore a false w)
  else if a = FLT_ERRPIN_HOLD then s.writeHold (bitOf w 0)
  else if a = FLT_RELEASE then s.fltRelease m w
  else if a = FLT_INJ then s.inject m w
  else if a = FLT_ECCINJ then s.armEcc m w
  else if a = FLT_LOGCLR then s.logClear m w
  else if inArr (FLT_CAUSE 0) 4 8 a then s.causeClear a w
  else if inArr (FLT_ESC 0) 4 8 a then s.clearEsc (ixOf (FLT_ESC 0) 4 8 a) w
  else if inArr (FLT_CBYP 0) 4 6 a then s.releaseCell m (ixOf (FLT_CBYP 0) 4 6 a) w
  else s.regStore a false w

/-- R439, R441, R455. A write in the THM block. -/
def State.writeThm (s : State) (a w : Nat) : State :=
  if a = THM_CTRL then s.thmCtrl (s.regWould a w)
  else if a = THM_ACK then (if bitOf w 0 then s.thmAck else s)
  else if inArr (THM_SCFG 0) 4 24 a then s.thmScfg (ixOf (THM_SCFG 0) 4 24 a) (s.regWould a w)
  else if a = THM_STOPCFG ∨ a = THM_CELLCFG then s.regStore a (s.bit THM_LOCK_CFG) w
  else s.regStore a false w

/-- R457, R458. A write in the AGE block: LSTART above LFULL is stored as LFULL, VIDNOM above VIDMAX as VIDMAX. -/
def State.writeAge (s : State) (a w : Nat) : State :=
  let v := s.regWould a w
  if a = AGE_CTRL then
    let s := s.regStore a false w
    s.setB AGE_STATUS_RUN (s.bit AGE_CTRL_EN && s.awake)
  else if a = AGE_CELLRST then s.cellRst w
  else if a = AGE_DRCFG then s.wrN a (putBits v 8 12 (min (bitsOf v 8 12) (bitsOf v 20 12)))
  else if a = AGE_VIDCFG then s.wrN a (putBits v 20 6 (min (bitsOf v 20 6) (bitsOf v 26 6)))
  else s.regStore a false w

/-- R463, R469. A write in the MEM block. -/
def State.writeMem (s : State) (m : Master) (a w : Nat) : State :=
  if inArr (MEM_OWN 0) 4 21 a then s.ownWrite m (ixOf (MEM_OWN 0) 4 21 a) w
  else if inArr (MEM_PWR 0) 4 21 a then s.pwrWrite (ixOf (MEM_PWR 0) 4 21 a) w
  else s.regStore a false w

/-- R521, R525, R528. A write in the BST block. -/
def State.writeBst (s : State) (m : Master) (a w : Nat) : State :=
  if a = BST_BOOTCFG then s.bootCfg m w
  else if a = BST_SDCMD then s.shutdownCmd m w
  else if a = BST_QCMD then s.quietCmd m w
  else s.regStore a false w

/-- R431. A write in the RDN block. -/
def State.writeRdn (s : State) (m : Master) (a w : Nat) : State :=
  if a = RDN_CTRL then s.rdnCtrl m w
  else s.regStore a (s.bit RDN_LOCK_CFG) w

/-- R5, R6, R28. A write of a word to a register. An address without a register stores nothing. -/
def State.regWrite (s : State) (m : Master) (a w : Nat) : State :=
  match blockPage a with
  | 0x00 => s.writeGlb m a w
  | 0x01 => s.writeSec a w
  | 0x02 => s.writeHif m a w
  | 0x04 => s.writeHoop a w
  | 0x05 => s.writePrk m a w
  | 0x06 => s.writeNtm m a w
  | 0x07 => s.writeEth m a w
  | 0x08 => s.writeBob m a w
  | 0x0A => s.writeThb m a w
  | 0x0B => s.writeStch a w
  | 0x0C => s.writeTat a w
  | 0x10 => s.writeLnk m a w
  | 0x18 => s.writeCel m a w
  | 0x20 => s.writeAdc a w
  | 0x22 => s.writePhu a w
  | 0x23 => s.writeTwu a w
  | 0x24 => s.writePwm m a w
  | 0x25 => s.writeSelv a w
  | 0x26 => s.writeFlt m a w
  | 0x28 => s.writeThm a w
  | 0x29 => s.writeAge a w
  | 0x2A => s.writeMem m a w
  | 0x2B => if a = NVM_WCMD then (if bitOf w 0 then s.nvmGo else s) else s.regStore a false w
  | 0x2C => s.writeBst m a w
  | _ => s.writeRdn m a w

/-- R7. A write of a width other than 4 bytes, or not aligned, is ignored and logged. -/
def State.busWrite (s : State) (m : Master) (a size w : Nat) : State :=
  if size ≠ 4 ∨ a % 4 ≠ 0 then s.refuse m a
  else if (regRow a).isSome then s.regWrite m a w
  else s

/-- R509, R518, R522. The gate of a write. -/
def State.writeGate (s : State) (m : Master) (a : Nat) (op : State → State) : State :=
  if a = GLB_LONGOP ∨ a = GLB_LONGARG ∨ a = GLB_RESET then s.loaderGate m op else s.gate m op

/-- R5. REGISTER_WRITE. -/
def execRegisterWrite (m : Master) (a : BitVec 20) (size : Fin 9) (v : Word) (s : State) : Host.Outcome State Fault Refusal :=
  .next (s.writeGate m a.toNat (fun s => s.busWrite m a.toNat size.val v.toNat))

/-! ### Reads (R6–R8) -/

/-- R8, R94. The registers whose read captures others: first register, stride, count, and the offsets of those captured. -/
def pairRows : List (Nat × Nat × Nat × List Nat) :=
  [(GLB_TICK_LO, 4, 1, [4]), (HOOP_H0STEP_LO, 4, 1, [4]), (NTM_TIME_NS, 4, 1, [4, 8, 12]), (NTM_INC_LO, 4, 1, [4]),
   (NTM_SETSEC_LO, 4, 1, [4]), (NTM_MASTERID_LO, 4, 1, [4]), (NTM_PPSIN_NS, 4, 1, [4]), (ETH_MAC_LO 0, 2048, 2, [4]),
   (BOB_CYC_LO 0, 512, 16, [4]), (BOB_BUSY_LO 0, 512, 16, [4]), (LNK_PRBSERR_LO 0, 1024, 26, [4]),
   (LNK_PRBSBIT_LO 0, 1024, 26, [4]), (ADC_FSTART_LO, 4, 1, [4]), (ADC_FCNT_LO, 4, 1, [4]), (SELV_FIRSTTS_LO, 4, 1, [4]),
   (FLT_FIRSTTS_LO, 4, 1, [4]), (RDN_CTOFS_LO, 4, 1, [4, 8]), (SEC_WIPETS_LO, 4, 1, [4]), (HIF_DMAERRADDR_LO, 4, 1, [4]),
   (HIF_RBASE_LO 0, 32, 32, [4]), (BST_LASTLOC_LO, 4, 1, [4])]

/-- R8. The registers that a read of `a` captures. -/
def pairHis (a : Nat) : List Nat :=
  match pairRows.find? (fun r => inArr r.1 r.2.1 r.2.2.1 a) with
  | some r => r.2.2.2.map (fun o => a + o)
  | none => []

/-- R8. Whether a register returns what a read of its first register captured. -/
def isCaptured (a : Nat) : Bool := pairRows.any (fun r => r.2.2.2.any (fun o => decide (o ≤ a) && inArr r.1 r.2.1 r.2.2.1 (a - o)))

/-- R496. FULL of a ring: of a device-to-host ring while it is RUN. -/
def State.ringFullShown (s : State) (r : Nat) : Bool :=
  s.fld (HIF_RSTAT_STATE r) == ringRun && s.ringFull r &&
    ((decide (8 ≤ r) && decide (r < 20)) || (decide (22 ≤ r) && decide (r < 28)) || (decide (28 ≤ r) && s.bit (HIF_RCFG_DIR r)))

/-- R484. MEM_REPDATA of the macro in MEM_REPSEL. -/
def State.repData (s : State) : Nat :=
  let mac := s.rdN MEM_REPSEL % 256
  let col (k : Nat) : Option Nat := tget none s.bst.loaded.cols (mac * 2 + k)
  (if (col 1).isSome then 2 ^ 31 else 0) + (if (col 0).isSome then 2 ^ 30 else 0) + (col 1).getD 0 % 1024 * 65536 + (col 0).getD 0 % 1024

/-- Words of registers that are formed at the read: pages below 0x08. -/
def State.viewLow (s : State) (a : Nat) : Nat :=
  if a = GLB_TICK_LO then s.tick % 2 ^ 32
  else if a = GLB_TICK_HI then s.tick / 2 ^ 32 % 2 ^ 32
  else if inArr (HIF_RSTAT 0) 32 32 a then putBit (s.rdN a) 28 (s.ringFullShown (ixOf (HIF_RSTAT 0) 32 32 a))
  else if HIF_MBIN 0 0 ≤ a ∧ a < HIF_MBIN 4 0 ∧ (a - HIF_MBIN 0 0) % 64 < 32 then
    s.mailWord ((a - HIF_MBIN 0 0) / 64) ((a - HIF_MBIN 0 0) % 64 / 4)
  else if a = HOOP_STATUS then putBit (s.rdN a) 11 (s.bit GLB_STATUS_NTMLOCK)
  else if a = HOOP_H0ANGLE then s.h0Ang
  else if a = HOOP_H0STEP_LO then s.hoop.h0.step % 2 ^ 32
  else if a = HOOP_H0STEP_HI then s.hoop.h0.step / 2 ^ 32 % 2 ^ 32
  else if a = HOOP_H0FREQ then stepFreq s.hoop.h0.step
  else if a = HOOP_H1ANGLE then s.h1Ang
  else if a = HOOP_H1FREQ then stepFreq s.hoop.h1.step
  else if a = HOOP_TANGLE then s.tAng
  else if a = NTM_STATUS then putBit (putBit (putBit (s.rdN a) 6 (s.mpres 1)) 5 (s.mpres 0)) 4 (s.withinMtmo s.ntm.lastEdge)
  else if a = NTM_TIME_NS then s.ntm.ns
  else if a = NTM_TIME_SECL then s.ntm.sec % 2 ^ 32
  else if a = NTM_TIME_SECH then s.ntm.sec / 2 ^ 32 % 65536
  else if a = NTM_TIME_FRAC then s.ntm.frac
  else if a = NTM_ADJREM then ofSigned 32 s.adjRem
  else if a = ETH_PRPCFG 1 then 0
  else s.rdN a

/-- R383. FLT_LIVE: the conditions that hold, and in the fault clock of an event its source. -/
def State.liveShown (s : State) (k : Nat) : Nat :=
  if s.flt.edge ≤ s.tick ∧ s.tick < s.flt.edge + 2 then
    s.flt.edgeEvs.foldl (fun w e => if e.src / 32 = k ∧ !fltIsCondition e.src then putBit w (e.src % 32) true else w)
      (s.rdN (FLT_LIVE k))
  else s.rdN (FLT_LIVE k)

/-- R186, R189. STCH_STATUS: the phases that produce sets, and those in which a re-spread is in progress, while this unit latches. -/
def State.stitchShown (s : State) : Nat :=
  if s.bit GLB_STATUS_CTRL_RUN && s.commands then
    (upto 3).foldl (fun w p => putBit w (4 + p) (bitOf w p && s.respreads p)) (s.rdN STCH_STATUS)
  else s.rdN STCH_STATUS / 256 * 256

/-- R204, R206. TAT_STATUS: RANK while this unit latches. -/
def State.tatShown (s : State) : Nat :=
  if s.bit GLB_STATUS_CTRL_RUN && s.commands then s.rdN TAT_STATUS else s.rdN TAT_STATUS / 8 * 8

/-- Words of registers that are formed at the read: pages from 0x08. -/
def State.viewHigh (s : State) (a : Nat) : Nat :=
  if inArr (BOB_CYC_LO 0) 512 16 a then s.engCyc (ixOf (BOB_CYC_LO 0) 512 16 a) % 2 ^ 32
  else if inArr (BOB_CYC_HI 0) 512 16 a then s.engCyc (ixOf (BOB_CYC_HI 0) 512 16 a) / 2 ^ 32 % 2 ^ 32
  else if inArr (BOB_BUSY_LO 0) 512 16 a then s.engBusy (ixOf (BOB_BUSY_LO 0) 512 16 a) % 2 ^ 32
  else if inArr (BOB_BUSY_HI 0) 512 16 a then s.engBusy (ixOf (BOB_BUSY_HI 0) 512 16 a) / 2 ^ 32 % 2 ^ 32
  else if inArr (LNK_PRBSBIT_LO 0) 1024 26 a then (s.prbsFold (ixOf (LNK_PRBSBIT_LO 0) 1024 26 a)).rdN a
  else if inArr (LNK_PRBSBIT_HI 0) 1024 26 a then (s.prbsFold (ixOf (LNK_PRBSBIT_HI 0) 1024 26 a)).rdN a
  else if a = STCH_STATUS then s.stitchShown
  else if a = TAT_STATUS then s.tatShown
  else if a = ADC_FCNT_LO then s.fcount % 2 ^ 32
  else if a = ADC_FCNT_HI then s.fcount / 2 ^ 32 % 2 ^ 32
  else if inArr (FLT_LIVE 0) 4 8 a then s.liveShown (ixOf (FLT_LIVE 0) 4 8 a)
  else if a = PHU_STATUS then s.phuStatusNow
  else if a = TWU_STATUS then s.twuStatusNow
  else if a = TWU_ARMLEFT then s.armLeft
  else if a = MEM_REPDATA then s.repData
  else s.rdN a

/-- R4, R6. The word that a register shows. An address without a register reads 0. -/
def State.regView (s : State) (a : Nat) : Nat :=
  if (regRow a).isSome then (if a < 0x8000 then s.viewLow a else s.viewHigh a) else 0

/-- R8. A full-word read of a register by a master: its word, and the captures. -/
def State.regRead (s : State) (m : Master) (a : Nat) : Nat × State :=
  let w := if isCaptured a then (s.captured m a).toNat else s.regView a
  (w, forL (pairHis a) (fun h t => t.capture m h (t.regView h)) s)

/-- R7. A read of `size` bytes at an address: the bytes of the register that holds the lowest one, and 0 beyond it. -/
def State.busRead (s : State) (m : Master) (a size : Nat) : Nat × State :=
  let r := s.regRead m (a / 4 * 4)
  (r.1 / 2 ^ (8 * (a % 4)) % 2 ^ (8 * size), r.2)

/-- R509, R518. Whether a host read of an address is served: before READY and in BUSY only some registers are. -/
def State.readServed (s : State) (a : Nat) : Bool :=
  if s.bit GLB_STATUS_BUSY then a == GLB_STATUS || a == GLB_LONGOP
  else s.bit GLB_STATUS_READY || a == GLB_ID || a == GLB_STATUS || a == GLB_RSTCAUSE || a == GLB_TICK_LO || a == GLB_TICK_HI ||
    blockPage a == 0x2C

/-- A register read of a master: the word in `rdata`. -/
def State.readReg (s : State) (m : Master) (a size : Nat) : State :=
  if m = .host ∧ s.readServed (a / 4 * 4) = false then s.setRdata (2 ^ 32 - 1)
  else
    let r := s.busRead m a size
    r.2.setRdata r.1

/-- R8. PAIR_LO_READ: a read of a register, whose captures it makes. -/
def execPairLoRead (m : Master) (a : BitVec 20) (size : Fin 9) (s : State) : Host.Outcome State Fault Refusal :=
  .next (s.readReg m a.toNat size.val)

/-- R6, R94, R509. NTM_TIME_NS_READ: a read of NTM_TIME_NS or NTM_PPSIN_NS captures the seconds and the fraction for the
master; one that is not served captures nothing. -/
def execNtmTimeNsRead (m : Master) (pps : Bool) (s : State) : Host.Outcome State Fault Refusal :=
  .next (s.readReg m (if pps then NTM_PPSIN_NS else NTM_TIME_NS) 4)

end Sys2Proof.Machine
end

