-- ==== Sys2Proof/Machine/Rv.lean ====
section
/-!
DEFINITION. The instruction words of the engines (R122, R123, R126): the base set RV32IMFC, whose encodings are those of the
RISC-V architecture that R122 names (PRESUMED, log entry 60), and Xvarul by the table of R126. Decoding answers none for every
word that no row lists: an illegal instruction.
-/

namespace Sys2Proof.Machine

/-- Integer operations. -/
inductive Alu where
  | add | sub | sll | slt | sltu | xor | srl | sra | or | and
  | mul | mulh | mulhsu | mulhu | div | divu | rem | remu
deriving DecidableEq, Repr

/-- Floating-point operations beside the fused ones; FRes of two operands and the rounding mode. -/
inductive Fop where
  | add | sub | mul | div | sqrt
  | sgnj (mode : Nat)
  | min | max | eq | lt | le | cls
  | toW | toWu | ofW | ofWu | mvX | mvF
deriving DecidableEq, Repr

/-- The three-register instructions of Xvarul. -/
inductive Xop where
  | vaDiff | vaLt | vqMacq31 | vqMulq31 | vqMacq15 | vqRndq15 | vsAdd2 | vsSub2 | vsMac2 | vsMul2 | vcSin | vcCos | vcSc
deriving DecidableEq, Repr

/-- A decoded instruction. Register numbers are below 32, offsets are signed, immediates are 32-bit words. -/
inductive Ins where
  | lui (rd imm : Nat)
  | auipc (rd imm : Nat)
  | jal (rd : Nat) (off : Int)
  | jalr (rd rs1 : Nat) (off : Int)
  | br (cond rs1 rs2 : Nat) (off : Int)
  | load (kind rd rs1 : Nat) (off : Int)
  | store (kind rs1 rs2 : Nat) (off : Int)
  | aluI (f : Alu) (rd rs1 imm : Nat)
  | alu (f : Alu) (rd rs1 rs2 : Nat)
  | fence
  | fenceI
  | wfi
  | ecall
  | ebreak
  | csr (kind rd src num : Nat)
  | flw (rd rs1 : Nat) (off : Int)
  | fsw (rs1 rs2 : Nat) (off : Int)
  | fma (kind rd rs1 rs2 rs3 rm : Nat)
  | fop (f : Fop) (rd rs1 rs2 rm : Nat)
  | xv (f : Xop) (rd rs1 rs2 : Nat)
  | vaBtw (rd rs1 rs2 rs3 : Nat)
  | vrRd (rd sel : Nat)
  | waitslot (rd : Nat)
  | vtLoad (kind rd rs1 imm : Nat)
  | vtStore (kind rs1 rs2 imm : Nat)
deriving DecidableEq, Repr

/-! ### Fields of a 32-bit word -/

def iRd (w : Nat) : Nat := bitsOf w 7 5
def iF3 (w : Nat) : Nat := bitsOf w 12 3
def iRs1 (w : Nat) : Nat := bitsOf w 15 5
def iRs2 (w : Nat) : Nat := bitsOf w 20 5
def iF7 (w : Nat) : Nat := bitsOf w 25 7
def immI (w : Nat) : Int := toSigned 12 (bitsOf w 20 12)
def immS (w : Nat) : Int := toSigned 12 (bitsOf w 25 7 * 32 + bitsOf w 7 5)
def immB (w : Nat) : Int := toSigned 13 (bitsOf w 31 1 * 4096 + bitsOf w 7 1 * 2048 + bitsOf w 25 6 * 32 + bitsOf w 8 4 * 2)
def immJ (w : Nat) : Int := toSigned 21 (bitsOf w 31 1 * 1048576 + bitsOf w 12 8 * 4096 + bitsOf w 20 1 * 2048 + bitsOf w 21 10 * 2)

/-- The word of a signed immediate. -/
def immW (z : Int) : Nat := ofSigned 32 z

/-! ### 32-bit encodings -/

/-- Register-immediate operations. -/
def decOpImm (w : Nat) : Option Ins :=
  let go (f : Alu) : Option Ins := some (.aluI f (iRd w) (iRs1 w) (immW (immI w)))
  match iF3 w with
  | 0 => go .add
  | 1 => if iF7 w = 0 then some (.aluI .sll (iRd w) (iRs1 w) (iRs2 w)) else none
  | 2 => go .slt
  | 3 => go .sltu
  | 4 => go .xor
  | 5 =>
    if iF7 w = 0 then some (.aluI .srl (iRd w) (iRs1 w) (iRs2 w))
    else if iF7 w = 0x20 then some (.aluI .sra (iRd w) (iRs1 w) (iRs2 w)) else none
  | 6 => go .or
  | _ => go .and

/-- Register-register operations. -/
def decOp (w : Nat) : Option Ins :=
  let go (f : Alu) : Option Ins := some (.alu f (iRd w) (iRs1 w) (iRs2 w))
  match iF7 w, iF3 w with
  | 0, 0 => go .add
  | 0, 1 => go .sll
  | 0, 2 => go .slt
  | 0, 3 => go .sltu
  | 0, 4 => go .xor
  | 0, 5 => go .srl
  | 0, 6 => go .or
  | 0, 7 => go .and
  | 0x20, 0 => go .sub
  | 0x20, 5 => go .sra
  | 1, 0 => go .mul
  | 1, 1 => go .mulh
  | 1, 2 => go .mulhsu
  | 1, 3 => go .mulhu
  | 1, 4 => go .div
  | 1, 5 => go .divu
  | 1, 6 => go .rem
  | 1, 7 => go .remu
  | _, _ => none

/-- System instructions. R122: no trap handler and one privilege level, so of the privileged ones only WFI is listed. -/
def decSystem (w : Nat) : Option Ins :=
  if w = 0x00000073 then some .ecall
  else if w = 0x00100073 then some .ebreak
  else if w = 0x10500073 then some .wfi
  else if iF3 w % 4 = 0 then none
  else some (.csr (iF3 w) (iRd w) (iRs1 w) (bitsOf w 20 12))

/-- Whether a rounding-mode field is one that the encoding allows. -/
def rmOk (rm : Nat) : Bool := decide (rm < 5) || rm == 7

/-- Floating-point operations. -/
def decFop (w : Nat) : Option Ins :=
  let rm := iF3 w
  let go (f : Fop) : Option Ins := some (.fop f (iRd w) (iRs1 w) (iRs2 w) rm)
  let rnd (f : Fop) : Option Ins := if rmOk rm then go f else none
  match iF7 w with
  | 0x00 => rnd .add
  | 0x04 => rnd .sub
  | 0x08 => rnd .mul
  | 0x0C => rnd .div
  | 0x2C => if iRs2 w = 0 then rnd .sqrt else none
  | 0x10 => if rm < 3 then go (.sgnj rm) else none
  | 0x14 => if rm = 0 then go .min else if rm = 1 then go .max else none
  | 0x50 => if rm = 2 then go .eq else if rm = 1 then go .lt else if rm = 0 then go .le else none
  | 0x60 => if iRs2 w = 0 then rnd .toW else if iRs2 w = 1 then rnd .toWu else none
  | 0x68 => if iRs2 w = 0 then rnd .ofW else if iRs2 w = 1 then rnd .ofWu else none
  | 0x70 => if iRs2 w = 0 then (if rm = 0 then go .mvX else if rm = 1 then go .cls else none) else none
  | 0x78 => if iRs2 w = 0 ∧ rm = 0 then go .mvF else none
  | _ => none

/-- R126. Opcode custom-0. -/
def decCustom0 (w : Nat) : Option Ins :=
  let go (f : Xop) : Option Ins := some (.xv f (iRd w) (iRs1 w) (iRs2 w))
  let go1 (f : Xop) : Option Ins := if iRs2 w = 0 then go f else none
  match iF3 w with
  | 0 => if iF7 w = 0 then go .vaDiff else none
  | 1 => if iF7 w = 0 then go .vaLt else none
  | 2 => if bitsOf w 25 2 = 0 then some (.vaBtw (iRd w) (iRs1 w) (iRs2 w) (bitsOf w 27 5)) else none
  | 3 =>
    if iF7 w = 0 then go .vqMacq31 else if iF7 w = 1 then go .vqMulq31 else if iF7 w = 2 then go .vqMacq15
    else if iF7 w = 3 then go1 .vqRndq15 else none
  | 4 =>
    if iF7 w = 0 then go .vsAdd2 else if iF7 w = 1 then go .vsSub2 else if iF7 w = 2 then go .vsMac2
    else if iF7 w = 3 then go .vsMul2 else none
  | 5 => if iF7 w = 0 then go1 .vcSin else if iF7 w = 1 then go1 .vcCos else if iF7 w = 2 then go1 .vcSc else none
  | 6 => if iRs1 w = 0 then some (.vrRd (iRd w) (bitsOf w 20 12)) else none
  | _ => if iRs1 w = 0 ∧ bitsOf w 20 12 = 0 then some (.waitslot (iRd w)) else none

/-- R126. Opcode custom-1. The immediate of R130 is the unsigned 12-bit field: every value above 127 is a violation. -/
def decCustom1 (w : Nat) : Option Ins :=
  let immU := bitsOf w 20 12
  let immV := bitsOf w 25 7 * 32 + bitsOf w 7 5
  match iF3 w with
  | 1 => some (.vtLoad 1 (iRd w) (iRs1 w) immU)
  | 2 => some (.vtLoad 2 (iRd w) (iRs1 w) immU)
  | 4 => some (.vtLoad 4 (iRd w) (iRs1 w) immU)
  | 5 => some (.vtStore 5 (iRs1 w) (iRs2 w) immV)
  | 6 => some (.vtStore 6 (iRs1 w) (iRs2 w) immV)
  | _ => none

/-- R122, R126. The instruction of a 32-bit word. -/
def decode32 (w : Nat) : Option Ins :=
  match w % 128 with
  | 0x37 => some (.lui (iRd w) (w / 4096 * 4096))
  | 0x17 => some (.auipc (iRd w) (w / 4096 * 4096))
  | 0x6F => some (.jal (iRd w) (immJ w))
  | 0x67 => if iF3 w = 0 then some (.jalr (iRd w) (iRs1 w) (immI w)) else none
  | 0x63 => if iF3 w = 2 ∨ iF3 w = 3 then none else some (.br (iF3 w) (iRs1 w) (iRs2 w) (immB w))
  | 0x03 => if iF3 w = 3 ∨ 6 ≤ iF3 w then none else some (.load (iF3 w) (iRd w) (iRs1 w) (immI w))
  | 0x23 => if 3 ≤ iF3 w then none else some (.store (iF3 w) (iRs1 w) (iRs2 w) (immS w))
  | 0x13 => decOpImm w
  | 0x33 => decOp w
  | 0x0F => if iF3 w = 0 then some .fence else if iF3 w = 1 then some .fenceI else none
  | 0x73 => decSystem w
  | 0x07 => if iF3 w = 2 then some (.flw (iRd w) (iRs1 w) (immI w)) else none
  | 0x27 => if iF3 w = 2 then some (.fsw (iRs1 w) (iRs2 w) (immS w)) else none
  | 0x43 | 0x47 | 0x4B | 0x4F =>
    if bitsOf w 25 2 = 0 ∧ rmOk (iF3 w) = true then
      some (.fma (bitsOf w 2 2) (iRd w) (iRs1 w) (iRs2 w) (bitsOf w 27 5) (iF3 w)) else none
  | 0x53 => decFop w
  | 0x0B => decCustom0 w
  | 0x2B => decCustom1 w
  | _ => none

/-! ### Compressed encodings -/

def cRdS (h : Nat) : Nat := bitsOf h 2 3 + 8
def cRs1S (h : Nat) : Nat := bitsOf h 7 3 + 8
def cRd (h : Nat) : Nat := bitsOf h 7 5
def cRs2 (h : Nat) : Nat := bitsOf h 2 5
def cImm6 (h : Nat) : Int := toSigned 6 (bitsOf h 12 1 * 32 + bitsOf h 2 5)
def cImmJ (h : Nat) : Int :=
  toSigned 12 (bitsOf h 12 1 * 2048 + bitsOf h 11 1 * 16 + bitsOf h 9 2 * 256 + bitsOf h 8 1 * 1024 + bitsOf h 7 1 * 64 +
    bitsOf h 6 1 * 128 + bitsOf h 3 3 * 2 + bitsOf h 2 1 * 32)
def cImmB (h : Nat) : Int :=
  toSigned 9 (bitsOf h 12 1 * 256 + bitsOf h 10 2 * 8 + bitsOf h 5 2 * 64 + bitsOf h 3 2 * 2 + bitsOf h 2 1 * 32)
/-- The offset of a word load or store with a base register. -/
def cImmW (h : Nat) : Int := (bitsOf h 10 3 * 8 + bitsOf h 6 1 * 4 + bitsOf h 5 1 * 64 : Nat)
/-- The offsets from the stack pointer. -/
def cImmLsp (h : Nat) : Int := (bitsOf h 12 1 * 32 + bitsOf h 4 3 * 4 + bitsOf h 2 2 * 64 : Nat)
def cImmSsp (h : Nat) : Int := (bitsOf h 9 4 * 4 + bitsOf h 7 2 * 64 : Nat)

/-- Quadrant 0. -/
def decC0 (h : Nat) : Option Ins :=
  match bitsOf h 13 3 with
  | 0 =>
    let imm := bitsOf h 11 2 * 16 + bitsOf h 7 4 * 64 + bitsOf h 6 1 * 4 + bitsOf h 5 1 * 8
    if imm = 0 then none else some (.aluI .add (cRdS h) 2 imm)
  | 2 => some (.load 2 (cRdS h) (cRs1S h) (cImmW h))
  | 3 => some (.flw (cRdS h) (cRs1S h) (cImmW h))
  | 6 => some (.store 2 (cRs1S h) (cRdS h) (cImmW h))
  | 7 => some (.fsw (cRs1S h) (cRdS h) (cImmW h))
  | _ => none

/-- Quadrant 1. -/
def decC1 (h : Nat) : Option Ins :=
  match bitsOf h 13 3 with
  | 0 => some (.aluI .add (cRd h) (cRd h) (immW (cImm6 h)))
  | 1 => some (.jal 1 (cImmJ h))
  | 2 => some (.aluI .add (cRd h) 0 (immW (cImm6 h)))
  | 3 =>
    if cRd h = 2 then
      let imm := toSigned 10 (bitsOf h 12 1 * 512 + bitsOf h 6 1 * 16 + bitsOf h 5 1 * 64 + bitsOf h 3 2 * 128 + bitsOf h 2 1 * 32)
      if imm = 0 then none else some (.aluI .add 2 2 (immW imm))
    else if cImm6 h = 0 then none else some (.lui (cRd h) (immW (cImm6 h * 4096)))
  | 4 =>
    let rd := cRs1S h
    match bitsOf h 10 2 with
    | 0 => if bitOf h 12 then none else some (.aluI .srl rd rd (cRs2 h))
    | 1 => if bitOf h 12 then none else some (.aluI .sra rd rd (cRs2 h))
    | 2 => some (.aluI .and rd rd (immW (cImm6 h)))
    | _ =>
      if bitOf h 12 then none
      else some (.alu (match bitsOf h 5 2 with | 0 => .sub | 1 => .xor | 2 => .or | _ => .and) rd rd (cRdS h))
  | 5 => some (.jal 0 (cImmJ h))
  | 6 => some (.br 0 (cRs1S h) 0 (cImmB h))
  | _ => some (.br 1 (cRs1S h) 0 (cImmB h))

/-- Quadrant 2. -/
def decC2 (h : Nat) : Option Ins :=
  match bitsOf h 13 3 with
  | 0 => if bitOf h 12 then none else some (.aluI .sll (cRd h) (cRd h) (cRs2 h))
  | 2 => if cRd h = 0 then none else some (.load 2 (cRd h) 2 (cImmLsp h))
  | 3 => some (.flw (cRd h) 2 (cImmLsp h))
  | 4 =>
    if bitOf h 12 then
      if cRs2 h = 0 then (if cRd h = 0 then some .ebreak else some (.jalr 1 (cRd h) 0))
      else some (.alu .add (cRd h) (cRd h) (cRs2 h))
    else if cRs2 h = 0 then (if cRd h = 0 then none else some (.jalr 0 (cRd h) 0))
    else some (.alu .add (cRd h) 0 (cRs2 h))
  | 6 => some (.store 2 2 (cRs2 h) (cImmSsp h))
  | 7 => some (.fsw 2 (cRs2 h) (cImmSsp h))
  | _ => none

/-- R122. The instruction of a 16-bit parcel whose two low bits are not both 1. -/
def decode16 (h : Nat) : Option Ins :=
  match h % 4 with
  | 0 => decC0 h
  | 1 => decC1 h
  | _ => decC2 h

end Sys2Proof.Machine
end

