-- ==== Sys2Proof/Machine/Engine.lean ====
section
/-!
DEFINITION. The Bobbin engine core (R122–R125): fetch, the address map (R25, R26), the issue of an instruction with its
timing, the base instructions, CSRs, loads, posted stores and the bit aliases. A command of this file is the issue of the
instruction that the running slot of engine `e` stands at; it acts only when that instruction is due and of the command's kind
(log entry 61).
-/

namespace Sys2Proof.Machine

/-! ### The context of the running slot (R133) -/

def State.engSlot (s : State) (e : Nat) : Nat := s.fld (BOB_STATUS_CURSLOT e)
def State.ctx (s : State) (e : Nat) : SlotSt := s.slot e (s.engSlot e)
def State.updCtx (s : State) (e : Nat) (f : SlotSt → SlotSt) : State := s.updSlot e (s.engSlot e) f

/-- x0 reads 0. -/
def State.xr (s : State) (e r : Nat) : Nat := if r = 0 then 0 else (tget 0#32 (s.ctx e).xs r).toNat
def State.fr (s : State) (e r : Nat) : Nat := (tget 0#32 (s.ctx e).fs r).toNat

/-- A write of x0 is discarded. -/
def State.setX (s : State) (e r v : Nat) : State :=
  if r = 0 then s else s.updCtx e (fun c => { c with xs := tput 0#32 c.xs r (BitVec.ofNat 32 v) })
def State.setFr (s : State) (e r v : Nat) : State := s.updCtx e (fun c => { c with fs := tput 0#32 c.fs r (BitVec.ofNat 32 v) })

/-- Adds floating-point flags to fflags. -/
def State.addFlags (s : State) (e flags : Nat) : State := s.updCtx e (fun c => { c with fcsr := c.fcsr ||| flags })

/-- R8. The master of the running slot. -/
def State.engMaster (s : State) (e : Nat) : Master := .eng (engIx e) (slotIx (s.engSlot e))

/-! ### Addresses (R25, R26) -/

/-- R25. The address behind a bit alias; other addresses stand. -/
def unalias (a : Nat) : Nat :=
  if 0x80000000 ≤ a ∧ a < 0xA0000000 then a % 2 ^ 28 / 2 ^ 26 * 2 ^ 28 + a % 2 ^ 26 else a

/-- R25. The address that an engine reaches, with the alias of its own bank resolved. -/
def engTarget (e a : Nat) : Nat :=
  let t := unalias a
  if t < 0x40000 then bankBase e + t else t

/-- R25. What a store does by its address. -/
def storeKind (a : Nat) : StoreKind :=
  if 0x80000000 ≤ a ∧ a < 0x90000000 then .set else if 0x90000000 ≤ a ∧ a < 0xA0000000 then .clear else .plain

/-- R25. The region of an address. -/
inductive Region where
  | bank (n : Nat)
  | cells
  | stitch
  | mirror
  | mram
  | none
deriving DecidableEq, Repr

def regionOf (a : Nat) : Region :=
  match bankOf a with
  | some n => .bank n
  | none =>
    if 0x30000000 ≤ a ∧ a < 0x30010000 then .cells
    else if 0x30010000 ≤ a ∧ a < 0x30040000 then .stitch
    else if 0x40000000 ≤ a ∧ a < 0x40100000 then .mirror
    else if 0x50000000 ≤ a ∧ a < 0x50800000 then .mram
    else .none

/-- What becomes of an access: it is performed; it is a slot fault of a cause, because of a bank that is not ON where one is
named; it waits for a bank. -/
inductive Acc where
  | ok
  | fault (cause : Nat) (off : Option Nat)
  | wait (n : Nat)
deriving DecidableEq, Repr

/-- R460–R462, R470. The answer of a bank to an engine. -/
def State.bankAcc (s : State) (e n : Nat) (write : Bool) : Acc :=
  match s.bankAns n (.eng e) write with
  | .ok => .ok
  | .refused => .fault 3 none
  | .wait => .wait n
  | .off => .fault 2 (some n)

/-- R25, R130. A byte of a downstream image. -/
def isDown (a : Nat) : Bool := decide (0x30000000 ≤ a) && decide (a < 0x30006000) && decide (0x40 ≤ a % 0x80)

/-- R164. A byte of a latched copy. -/
def isLatched (a : Nat) : Bool := decide (0x30012000 ≤ a) && decide (a < 0x30012C30)

/-- R25, R26, R164, R413. The answer to an access of one byte. -/
def State.byteAcc (s : State) (e a : Nat) (write : Bool) : Acc :=
  match regionOf a with
  | .bank n =>
    if write && (n == 20 || s.ckptLocked a 1) then .fault 2 none else s.bankAcc e n write
  | .cells => if write && !isDown a then .fault 2 none else .ok
  | .stitch => if write && isLatched a then .fault 2 none else .ok
  | .mirror => .ok
  | .mram => if write then .fault 2 none else .ok
  | .none => .fault 2 none

/-- R25, R26. The answer to an access of `n` bytes at a target address: of its first byte, then of its last. -/
def State.engAcc (s : State) (e a n : Nat) (write : Bool) : Acc :=
  match s.byteAcc e a write with
  | .ok => s.byteAcc e (a + n - 1) write
  | x => x

/-! ### Fetch (R122, R123, R467) -/

/-- What the running slot stands at. -/
inductive Fetch where
  | ins (i : Ins) (len : Nat)
  | bad (cause addr : Nat) (off : Option Nat)
  | wait (n : Nat)
deriving DecidableEq, Repr

/-- R25, R123. The bank and address from which an engine executes an address. -/
def codeAddr (e a : Nat) : Option (Nat × Nat) :=
  let t := if a < 0x40000 then bankBase e + a else a
  match bankOf t with
  | some n => if n < 16 then some (n, t) else none
  | none => none

/-- R123. A 16-bit parcel: from the fetch buffer where another engine bank is buffered, else from memory. -/
def State.parcel (s : State) (e n t : Nat) : Nat :=
  match (s.eng e).fetchBuf with
  | some (b, bs) => if n ≠ e ∧ b ≤ t ∧ t + 2 ≤ b + 32 then leNat ((bs.drop (t - b)).take 2) else s.memN t 2
  | none => s.memN t 2

/-- R123, R139, R467. The fetch of one parcel: its value, or why there is none. -/
def State.fetchParcel (s : State) (e a : Nat) : Except Fetch Nat :=
  match codeAddr e a with
  | none => .error (.bad 8 a none)
  | some (n, t) =>
    match s.bankAns n (.eng e) false with
    | .refused => .error (.bad 3 a none)
    | .wait => .error (.wait n)
    | .off => .error (.bad 2 a (some n))
    | .ok => if 2 ≤ s.wrongBits t then .error (.bad 4 a none) else .ok (s.parcel e n t)

/-- R123. The CSRs. -/
def csrKnown (n : Nat) : Bool :=
  n == 1 || n == 2 || n == 3 || n == 0xC00 || n == 0xC01 || n == 0xC02 || n == 0xC80 || n == 0xC81 || n == 0xC82 || n == 0xF14

/-- Whether a CSR instruction writes. -/
def csrWrites (kind src : Nat) : Bool := kind % 4 == 1 || src != 0

/-- R123. Whether an instruction is legal in this context: a CSR that exists and may be written, a rounding mode that exists. -/
def Ins.legal (fcsr : Nat) : Ins → Bool
  | .csr kind _ src n => csrKnown n && (decide (n < 4) || !csrWrites kind src)
  | .fma _ _ _ _ _ rm => rm != 7 || decide (bitsOf fcsr 5 3 < 5)
  | .fop f _ _ _ rm =>
    match f with
    | .add | .sub | .mul | .div | .sqrt | .toW | .toWu | .ofW | .ofWu => rm != 7 || decide (bitsOf fcsr 5 3 < 5)
    | _ => true
  | _ => true

/-- The instruction of a word, if it is one and legal. -/
def State.decoded (s : State) (e : Nat) (d : Option Ins) (len : Nat) : Fetch :=
  match d with
  | some i => if i.legal (s.ctx e).fcsr then .ins i len else .bad 4 0 none
  | none => .bad 4 0 none

/-- R122, R123. The instruction at the PC of the running slot. -/
def State.engFetch (s : State) (e : Nat) : Fetch :=
  let pc := (s.ctx e).pc
  match s.fetchParcel e pc with
  | .error x => x
  | .ok h =>
    if h % 4 ≠ 3 then s.decoded e (decode16 h) 2
    else match s.fetchParcel e ((pc + 2) % 2 ^ 32) with
      | .error x => x
      | .ok h2 => s.decoded e (decode32 (h2 * 65536 + h)) 4

/-- R123. The 32 bytes of another engine bank that the instruction at the PC still needs. -/
def State.fetchMiss (s : State) (e len : Nat) : Option Nat :=
  match codeAddr e (((s.ctx e).pc + len - 2) % 2 ^ 32) with
  | some (n, t) => if n = e ∨ (s.eng e).fetchBuf.map (·.1) = some (t / 32 * 32) then none else some (t / 32 * 32)
  | none => none

/-! ### Issue (R123, R124) -/

/-- The engine runs a slot: not held in a standby unit, not off in Quiet. -/
def State.engOn (s : State) (e : Nat) : Bool := s.bit (BOB_STATUS_BUSY e) && !s.bit (BOB_STATUS_HELD e) && s.awake

/-- R124. The next instruction can issue in this tick. -/
def State.engDue (s : State) (e : Nat) : Bool := s.engOn e && decide ((s.eng e).nextIssue ≤ s.cycNow + 1)

/-- R124. The next instruction issues `issue` cycles later. -/
def State.occupy (s : State) (e issue : Nat) : State :=
  let c := s.issueAt e + issue
  s.updEng e (fun g => { g with nextIssue := c, busyTo := c, vcWait := none,
                                ready := g.ready.filter (fun x => decide (c < x.2.1) || decide (c < x.2.2)) })

/-- R123. The issue is tried again at an engine cycle. -/
def State.stallTo (s : State) (e c : Nat) : State := s.updEng e (fun g => { g with nextIssue := c })

/-- The issue is tried again in the next tick. -/
def State.stallTick (s : State) (e : Nat) : State := s.stallTo e (s.cycNow + 2)

/-- R124. A register becomes available `lat` cycles after the issue, for a MAC `mac` cycles after it; f registers from 32. -/
def State.avail (s : State) (e r lat mac : Nat) : State :=
  let c := s.issueAt e
  let key := s.engSlot e * 64 + r
  if r = 0 then s
  else s.updEng e (fun g => { g with ready := (key, c + lat, c + mac) :: g.ready.filter (fun x => x.1 != key) })

/-- R123. An instruction retires: the next PC, the count, the cycles it occupies. -/
def State.retire (s : State) (e pc issue : Nat) : State :=
  ((s.updCtx e (fun c => { c with pc := pc % 2 ^ 32 })).updEng e (fun g => { g with instret := g.instret + 1 })).occupy e issue

/-- R124, R133. A taken branch or a jump occupies the issue stage for 3 cycles and blocks no switch. -/
def State.retireJump (s : State) (e pc : Nat) : State :=
  let c := s.issueAt e
  (s.retire e pc 3).updEng e (fun g => { g with busyTo := c + 1 })

/-- The PC after the instruction. -/
def State.nextPc (s : State) (e len : Nat) : Nat := (s.ctx e).pc + len

/-- An instruction with a result in x[rd] and the given latency. -/
def State.retireX (s : State) (e len rd v lat mac issue : Nat) : State :=
  ((s.setX e rd v).avail e rd lat mac).retire e (s.nextPc e len) issue

/-- An instruction with a result in f[rd] and the given latency. -/
def State.retireF (s : State) (e len rd v lat issue : Nat) : State :=
  ((s.setFr e rd v).avail e (32 + rd) lat lat).retire e (s.nextPc e len) issue

/-- R138. The instruction at the PC is a slot fault. -/
def State.insFault (s : State) (e cause addr : Nat) : State := s.slotAbort e cause addr (s.ctx e).pc (s.issueAt e + 1)

/-- R470. An access to a bank that is not ON sets PWRACC. -/
def State.pwrAcc (s : State) (off : Option Nat) : State :=
  match off with
  | some n => s.evtMem MEM_EVT_PWRACC n
  | none => s

/-- Whether an instruction is a MAC of R124. -/
def Xop.isMac : Xop → Bool
  | .vqMacq31 | .vqMacq15 | .vsMac2 => true
  | _ => false

/-- The registers that an instruction reads; f registers from 32. -/
def Ins.srcs : Ins → List Nat
  | .jalr _ a _ => [a]
  | .br _ a b _ => [a, b]
  | .load _ _ a _ => [a]
  | .store _ a b _ => [a, b]
  | .aluI _ _ a _ => [a]
  | .alu _ _ a b => [a, b]
  | .csr kind _ src _ => if kind < 4 then [src] else []
  | .flw _ a _ => [a]
  | .fsw a b _ => [a, 32 + b]
  | .fma _ _ a b c _ => [32 + a, 32 + b, 32 + c]
  | .fop f _ a b _ =>
    match f with
    | .ofW | .ofWu | .mvF => [a]
    | .sqrt | .toW | .toWu | .mvX | .cls => [32 + a]
    | _ => [32 + a, 32 + b]
  | .xv f d a b => if f.isMac then [d, a, b] else [a, b]
  | .vaBtw _ a b c => [a, b, c]
  | .vtLoad _ _ a _ => [a]
  | .vtStore _ a b _ => [a, b]
  | _ => []

def Ins.isMac : Ins → Bool
  | .xv f _ _ _ => f.isMac
  | _ => false

/-- R123. The engine cycle from which the operands of an instruction are available. -/
def State.operandsAt (s : State) (e : Nat) (i : Ins) : Nat :=
  let k := s.engSlot e * 64
  (s.eng e).ready.foldl (fun m x => if k ≤ x.1 ∧ x.1 < k + 64 ∧ i.srcs.contains (x.1 - k) then max m (if i.isMac then x.2.2 else x.2.1) else m) 0

/-- The address of a base register and an offset. -/
def State.eaddr (s : State) (e r : Nat) (off : Int) : Nat := (((s.xr e r : Int) + off) % (2 ^ 32 : Nat)).toNat

/-- The command of a store by its address (R466). -/
def storeRow (e : Fin 16) (a : Nat) : Instr :=
  match storeKind a with
  | .plain => .store e
  | .set => .aliasBitSet e
  | .clear => .aliasBitClear e

/-- The command that is the issue of an instruction. -/
def State.insRow (s : State) (e : Fin 16) : Ins → Instr
  | .load _ _ _ _ | .flw _ _ _ => .load e
  | .store _ a _ off | .fsw a _ off => storeRow e (s.eaddr e.val a off)
  | .fence => .fence e
  | .fenceI => .fenceI e
  | .wfi => .wfi e
  | .ecall => .ecall e
  | .ebreak => .ebreak e
  | .csr _ _ _ _ => .csrAccess e
  | .xv f _ _ _ =>
    match f with
    | .vaDiff => .vaDiff e
    | .vaLt => .vaLt e
    | .vqMacq31 => .vqMacq31 e
    | .vqMulq31 => .vqMulq31 e
    | .vqMacq15 => .vqMacq15 e
    | .vqRndq15 => .vqRndq15 e
    | .vsAdd2 => .vsAdd2 e
    | .vsSub2 => .vsSub2 e
    | .vsMac2 => .vsMac2 e
    | .vsMul2 => .vsMul2 e
    | .vcSin => .vcSin e
    | .vcCos => .vcCos e
    | .vcSc => .vcSc e
  | .vaBtw _ _ _ _ => .vaBtw e
  | .vrRd _ _ => .vrRd e
  | .waitslot _ => .waitslot e
  | .vtLoad k _ _ _ => if k = 1 then .vtLh e else if k = 2 then .vtLw e else .vtLhu e
  | .vtStore k _ _ _ => if k = 5 then .vtSh e else .vtSw e
  | _ => .engineBaseInstruction e

/-- The command that is due on an engine: the stop of a run that has reached its budget, or the issue of the instruction at the
PC. -/
def State.engRow (s : State) (e : Fin 16) : Option Instr :=
  if s.overBudget e.val then some (.slotBudgetOverrun e)
  else if s.engDue e.val then
    match s.engFetch e.val with
    | .ins i _ => some (s.insRow e i)
    | .bad _ _ _ => some (.illegalInstruction e)
    | .wait _ => some (.engineBaseInstruction e)
  else none

/-- R122–R124. The issue of the instruction at the PC by the command `row`: `act` is given the instruction and its length.
The fetch may have to wait for a bank or for the fetch buffer, and the instruction for its operands. -/
def State.issue (s : State) (e : Fin 16) (row : Instr) (act : Ins → Nat → State → State) : State :=
  if s.engRow e = some row then
    match s.engFetch e.val with
    | .bad cause addr off => (s.pwrAcc off).insFault e.val cause addr
    | .wait n => (s.autoWake n).stallTick e.val
    | .ins i len =>
      match s.fetchMiss e.val len with
      | some b => (s.updEng e.val (fun g => { g with fetchBuf := some (b, s.memBytes b 32) })).stallTo e.val (s.issueAt e.val + 6)
      | none =>
        if s.issueAt e.val < s.operandsAt e.val i then s.stallTo e.val (s.operandsAt e.val i)
        else act i len (s.eccRead (engTarget e.val (s.ctx e.val).pc) len)
  else s

/-! ### The base instructions (R122) -/

/-- Integer operations on 32-bit words. A division by 0 gives all ones and the dividend; the overflow of a signed division
gives the dividend and 0 (PRESUMED, log entry 60). -/
def Alu.eval (f : Alu) (a b : Nat) : Nat :=
  let x := toSigned 32 a
  let y := toSigned 32 b
  let w (z : Int) : Nat := ofSigned 32 z
  match f with
  | .add => w (x + y)
  | .sub => w (x - y)
  | .sll => a * 2 ^ (b % 32) % 2 ^ 32
  | .slt => if x < y then 1 else 0
  | .sltu => if a < b then 1 else 0
  | .xor => a ^^^ b
  | .srl => a / 2 ^ (b % 32)
  | .sra => w (x / (2 ^ (b % 32) : Nat))
  | .or => a ||| b
  | .and => a &&& b
  | .mul => w (x * y)
  | .mulh => w (x * y / (2 ^ 32 : Nat))
  | .mulhsu => w (x * (b : Int) / (2 ^ 32 : Nat))
  | .mulhu => a * b / 2 ^ 32
  | .div => if y = 0 then 0xFFFFFFFF else w (x.tdiv y)
  | .divu => if b = 0 then 0xFFFFFFFF else a / b
  | .rem => if y = 0 then a else w (x.tmod y)
  | .remu => if b = 0 then a else a % b

/-- R124. Whether an operation is a blocking division; whether it is a multiplication. -/
def Alu.isDiv : Alu → Bool
  | .div | .divu | .rem | .remu => true
  | _ => false
def Alu.isMul : Alu → Bool
  | .mul | .mulh | .mulhsu | .mulhu => true
  | _ => false

/-- R124. An integer operation retires; a division takes 2 to 34 cycles, which of them is a free value (log entry 2). -/
def State.retireAlu (s : State) (e len rd v : Nat) (f : Alu) : State :=
  if f.isDiv then (let r := s.free 33; r.2.retireX e len rd v (2 + r.1) (2 + r.1) (2 + r.1))
  else if f.isMul then s.retireX e len rd v 2 2 1
  else s.retireX e len rd v 1 1 1

/-- Whether a branch is taken: BEQ 0, BNE 1, BLT 4, BGE 5, BLTU 6, BGEU 7. -/
def branchTaken (cond a b : Nat) : Bool :=
  match cond with
  | 0 => a == b
  | 1 => a != b
  | 4 => decide (toSigned 32 a < toSigned 32 b)
  | 5 => decide (toSigned 32 b ≤ toSigned 32 a)
  | 6 => decide (a < b)
  | _ => decide (b ≤ a)

/-- The target of a jump. -/
def jumpTo (pc : Nat) (off : Int) : Nat := (((pc : Int) + off) % (2 ^ 32 : Nat)).toNat

/-- The rounding mode of an instruction in a context. -/
def State.roundMode (s : State) (e rm : Nat) : Nat := if rm = 7 then bitsOf (s.ctx e).fcsr 5 3 else rm

/-- The fused operations: FMADD 0, FMSUB 1, FNMSUB 2, FNMADD 3. -/
def fmaEval (kind rm a b c : Nat) : FRes :=
  match kind with
  | 0 => fMadd rm a b c
  | 1 => fMadd rm a b (fNeg c)
  | 2 => fMadd rm (fNeg a) b c
  | _ => fMadd rm (fNeg a) b (fNeg c)

/-- The result of a floating-point operation: `a` and `b` are the words of its operands. -/
def Fop.eval (f : Fop) (rm a b : Nat) : FRes :=
  match f with
  | .add => fAdd rm a b
  | .sub => fSub rm a b
  | .mul => fMul rm a b
  | .div => fDiv rm a b
  | .sqrt => fSqrt rm a
  | .sgnj mode => (fSgn mode a b, 0)
  | .min => fMinMax false a b
  | .max => fMinMax true a b
  | .eq => fCmpEq a b
  | .lt => fCmpLt a b
  | .le => fCmpLe a b
  | .cls => (fClass a, 0)
  | .toW => fToInt rm (-(2 ^ 31)) (2 ^ 31 - 1) a
  | .toWu => fToInt rm 0 (2 ^ 32 - 1) a
  | .ofW => fOfInt rm (toSigned 32 a)
  | .ofWu => fOfInt rm (a : Int)
  | .mvX => (a, 0)
  | .mvF => (a, 0)

/-- Whether the result goes to an x register; whether the first operand is one. -/
def Fop.toX : Fop → Bool
  | .eq | .lt | .le | .cls | .toW | .toWu | .mvX => true
  | _ => false
def Fop.fromX : Fop → Bool
  | .ofW | .ofWu | .mvF => true
  | _ => false

/-- R124. A floating-point operation retires. -/
def State.retireFop (s : State) (e len rd rs1 rs2 rm : Nat) (f : Fop) : State :=
  let a := if f.fromX then s.xr e rs1 else s.fr e rs1
  let r := f.eval (s.roundMode e rm) a (s.fr e rs2)
  let s := s.addFlags e r.2
  if f.toX then s.retireX e len rd r.1 3 3 1
  else match f with
    | .div => s.retireF e len rd r.1 14 14
    | .sqrt => s.retireF e len rd r.1 16 16
    | _ => s.retireF e len rd r.1 3 1

/-- R122. What a base instruction does, beside loads, stores, fences, CSRs and the ones that end the run. -/
def State.baseStep (s : State) (e : Nat) (i : Ins) (len : Nat) : State :=
  let pc := (s.ctx e).pc
  match i with
  | .lui rd imm => s.retireX e len rd imm 1 1 1
  | .auipc rd imm => s.retireX e len rd ((pc + imm) % 2 ^ 32) 1 1 1
  | .jal rd off => (s.setX e rd ((pc + len) % 2 ^ 32)).retireJump e (jumpTo pc off)
  | .jalr rd a off => (s.setX e rd ((pc + len) % 2 ^ 32)).retireJump e (s.eaddr e a off / 2 * 2)
  | .br cond a b off =>
    if branchTaken cond (s.xr e a) (s.xr e b) then s.retireJump e (jumpTo pc off) else s.retire e (pc + len) 1
  | .aluI f rd a imm => s.retireAlu e len rd (f.eval (s.xr e a) imm) f
  | .alu f rd a b => s.retireAlu e len rd (f.eval (s.xr e a) (s.xr e b)) f
  | .fma kind rd a b c rm =>
    let r := fmaEval kind (s.roundMode e rm) (s.fr e a) (s.fr e b) (s.fr e c)
    (s.addFlags e r.2).retireF e len rd r.1 3 1
  | .fop f rd a b rm => s.retireFop e len rd a b rm f
  | _ => s

/-- R122. ENGINE_BASE_INSTRUCTION. -/
def execEngineBaseInstruction (e : Fin 16) (s : State) : Host.Outcome State Fault Refusal :=
  .next (s.issue e (.engineBaseInstruction e) (fun i len s => s.baseStep e.val i len))

/-! ### Fences and the ends of a run (R122, R132, R138) -/

/-- R122. FENCE waits until every posted store of the engine has been accepted. -/
def State.fenceStep (s : State) (e len : Nat) : State :=
  if (s.eng e).buf.isEmpty then s.retire e (s.nextPc e len) 1 else s.stallTick e

/-- R122. FENCE. -/
def execFence (e : Fin 16) (s : State) : Host.Outcome State Fault Refusal :=
  .next (s.issue e (.fence e) (fun _ len s => s.fenceStep e.val len))

/-- R122. FENCE.I is executed as FENCE and also empties the fetch buffer. -/
def State.fenceIStep (s : State) (e len : Nat) : State :=
  if (s.eng e).buf.isEmpty then (s.updEng e (fun g => { g with fetchBuf := none })).retire e (s.nextPc e len) 1 else s.stallTick e

/-- R122. FENCE_I. -/
def execFenceI (e : Fin 16) (s : State) : Host.Outcome State Fault Refusal :=
  .next (s.issue e (.fenceI e) (fun _ len s => s.fenceIStep e.val len))

/-- R132. WAITSLOT: the run ends after its cycle (R124 gives it none; log entry 62). -/
def State.waitStep (s : State) (e rd len : Nat) : State :=
  let t := s.issueAt e + 1
  (s.updEng e (fun g => { g with instret := g.instret + 1 })).slotWait e (s.engSlot e) (s.nextPc e len % 2 ^ 32) rd t

/-- R122. WFI is executed as WAITSLOT with rd = x0. -/
def execWfi (e : Fin 16) (s : State) : Host.Outcome State Fault Refusal :=
  .next (s.issue e (.wfi e) (fun _ len s => s.waitStep e.val 0 len))

/-- R139. ECALL ends the run with cause 0x5. -/
def execEcall (e : Fin 16) (s : State) : Host.Outcome State Fault Refusal :=
  .next (s.issue e (.ecall e) (fun _ _ s => s.insFault e.val 5 0))

/-- R139. EBREAK ends the run with cause 0x6. -/
def execEbreak (e : Fin 16) (s : State) : Host.Outcome State Fault Refusal :=
  .next (s.issue e (.ebreak e) (fun _ _ s => s.insFault e.val 6 0))

/-- R122, R123, R126, R139, R467. ILLEGAL_INSTRUCTION: what the running slot stands at cannot be fetched or is no legal
instruction. -/
def execIllegalInstruction (e : Fin 16) (s : State) : Host.Outcome State Fault Refusal :=
  .next (s.issue e (.illegalInstruction e) (fun _ _ s => s.insFault e.val 4 0))

/-! ### CSRs (R123) -/

/-- R123. Where a capture of an "h" CSR is kept: beyond BAR0's registers. -/
def csrPair (n : Nat) : Nat := 0xF0000 + n

/-- R123. A read of a CSR: its value, and the capture of the high half. -/
def State.csrRead (s : State) (e n : Nat) : Nat × State :=
  let m := s.engMaster e
  let low (v : Nat) : Nat × State := (v % 2 ^ 32, s.capture m (csrPair (n + 0x80)) (v / 2 ^ 32))
  match n with
  | 1 => ((s.ctx e).fcsr % 32, s)
  | 2 => (bitsOf (s.ctx e).fcsr 5 3, s)
  | 3 => ((s.ctx e).fcsr % 256, s)
  | 0xC00 => low (s.cycSince e (s.issueAt e))
  | 0xC01 => low s.tick
  | 0xC02 => low (s.eng e).instret
  | 0xF14 => (e, s)
  | n => ((s.captured m (csrPair n)).toNat, s)

/-- R123. A write of fflags, frm or fcsr. -/
def State.csrWrite (s : State) (e n v : Nat) : State :=
  s.updCtx e (fun c => { c with fcsr :=
    match n with
    | 1 => c.fcsr / 32 * 32 + v % 32
    | 2 => v % 8 * 32 + c.fcsr % 32
    | _ => v % 256 })

/-- R123. A CSR instruction. CSRRW with rd = x0 does not read (PRESUMED, log entry 60). -/
def State.csrStep (s : State) (e kind rd src n len : Nat) : State :=
  let arg := if kind < 4 then s.xr e src else src
  let r := if kind % 4 = 1 ∧ rd = 0 then (0, s) else s.csrRead e n
  let v := if kind % 4 = 1 then arg else if kind % 4 = 2 then r.1 ||| arg else r.1 - (r.1 &&& arg)
  let s := if csrWrites kind src then r.2.csrWrite e n v else r.2
  s.retireX e len rd r.1 1 1 1

/-- R123. CSR_ACCESS. -/
def execCsrAccess (e : Fin 16) (s : State) : Host.Outcome State Fault Refusal :=
  .next (s.issue e (.csrAccess e) (fun i len s =>
    match i with
    | .csr kind rd src n => s.csrStep e.val kind rd src n len
    | _ => s))

/-! ### Loads (R25–R27, R124, R125) -/

/-- R125. A posted store of the engine writes a byte of the range. -/
def State.storePending (s : State) (e a n : Nat) : Bool :=
  (s.eng e).buf.any (fun p => decide (p.addr < a + n) && decide (a < p.addr + p.size))

/-- R124, R465. The latency of a load from a target address. -/
def loadLat (e a n : Nat) : Nat :=
  let cross := if a / 8 ≠ (a + n - 1) / 8 then 1 else 0
  match regionOf a with
  | .bank k => (if k = e then 2 else if k < 16 then 6 else 8) + cross
  | .mirror => 24
  | .mram => 40
  | _ => 4

/-- The value of a load kind: LB 0, LH 1, LW 2, LBU 4, LHU 5. -/
def loadValue (kind v : Nat) : Nat :=
  match kind with
  | 0 => ofSigned 32 (toSigned 8 v)
  | 1 => ofSigned 32 (toSigned 16 v)
  | _ => v

/-- The bytes that a load or store kind moves. -/
def kindBytes (kind : Nat) : Nat := if kind % 4 = 0 then 1 else if kind % 4 = 1 then 2 else 4

/-- R27, R467. The data of a permitted load. -/
def State.loadData (s : State) (e a n : Nat) : Nat × State :=
  if regionOf a = .mirror then s.busRead (s.engMaster e) (a - 0x40000000) n else (s.memN a n, s.eccRead a n)

/-- R26, R125. A load of `n` bytes: it waits for a pending store and for its bank, is a slot fault, or `fin` is given the data
and the latency. -/
def State.loadStep (s : State) (e given n : Nat) (fin : Nat → Nat → State → State) : State :=
  let a := engTarget e given
  if s.storePending e a n then s.stallTick e
  else match s.engAcc e a n false with
    | .fault cause off => (s.pwrAcc off).insFault e cause given
    | .wait b => (s.autoWake b).stallTick e
    | .ok => let r := s.loadData e a n; fin r.1 (loadLat e a n) r.2

/-- R26. LOAD. -/
def execLoad (e : Fin 16) (s : State) : Host.Outcome State Fault Refusal :=
  .next (s.issue e (.load e) (fun i len s =>
    match i with
    | .load kind rd a off =>
      s.loadStep e.val (s.eaddr e.val a off) (kindBytes kind) (fun v lat s => s.retireX e.val len rd (loadValue kind v) lat lat 1)
    | .flw rd a off => s.loadStep e.val (s.eaddr e.val a off) 4 (fun v lat s => s.retireF e.val len rd v lat 1)
    | _ => s))

/-! ### Stores (R25–R27, R125, R466) -/

/-- R466. A bit alias takes naturally aligned data only. -/
def aliasBad (given n : Nat) : Bool := storeKind given != .plain && given % n != 0

/-- R125. A posted store enters the write buffer; its target can accept it 8 engine cycles on. -/
def State.post (s : State) (e given n v : Nat) : State :=
  let c := s.ctx e
  let p : Posted := { addr := engTarget e given, kind := storeKind given, size := n, data := v % 2 ^ (8 * n), due := s.tick + 4
                      late := decide (s.cycNow < s.issueAt e), slot := s.engSlot e, run := c.run, pc := c.pc, given := given }
  (s.updEng e (fun g => { g with buf := g.buf ++ [p] })).sched 4 (.postedStoreAccepted (engIx e))

/-- R25, R26, R125. A store of `n` bytes: it waits while the write buffer is full; a forbidden store is a slot fault at its
issue (log entry 63). -/
def State.storeStep (s : State) (e given n v len : Nat) : State :=
  if 4 ≤ (s.eng e).buf.length then s.stallTick e
  else if aliasBad given n then s.insFault e 2 given
  else match s.engAcc e (engTarget e given) n true with
    | .fault cause off => (s.pwrAcc off).insFault e cause given
    | _ => (s.post e given n v).retire e (s.nextPc e len) 1

/-- The store of an instruction. -/
def State.storeIns (s : State) (e : Nat) (i : Ins) (len : Nat) : State :=
  match i with
  | .store kind a b off => s.storeStep e (s.eaddr e a off) (kindBytes kind) (s.xr e b) len
  | .fsw a b off => s.storeStep e (s.eaddr e a off) 4 (s.fr e b) len
  | _ => s

/-- R26. STORE. -/
def execStore (e : Fin 16) (s : State) : Host.Outcome State Fault Refusal :=
  .next (s.issue e (.store e) (fun i len s => s.storeIns e.val i len))

/-- R466. ALIAS_BIT_SET: the store of a word through the bit-set alias. -/
def execAliasBitSet (e : Fin 16) (s : State) : Host.Outcome State Fault Refusal :=
  .next (s.issue e (.aliasBitSet e) (fun i len s => s.storeIns e.val i len))

/-- R466. ALIAS_BIT_CLEAR: the store of a word through the bit-clear alias. -/
def execAliasBitClear (e : Fin 16) (s : State) : Host.Outcome State Fault Refusal :=
  .next (s.issue e (.aliasBitClear e) (fun i len s => s.storeIns e.val i len))

/-- R164, R466. The bytes of a store reach memory; writes to reserved parts of the Stitch tables are ignored. -/
def State.storeBytes (s : State) (p : Posted) : State :=
  let old := s.memN p.addr p.size
  let v := match p.kind with
    | .plain => p.data
    | .set => old ||| p.data
    | .clear => old - (old &&& p.data)
  match regionOf p.addr with
  | .stitch =>
    let bs := ((upto p.size).zip (leBytes v p.size)).filter (fun x => tableWritable (p.addr + x.1))
    forL bs (fun x t => t.setMemBytes (p.addr + x.1) [x.2]) s
  | _ => s.setMemBytes p.addr (leBytes v p.size)

/-- R138. A store that its target refuses after its issue ends the run that issued it, if that still goes on; it is recorded in
any case (log entry 63). -/
def State.storeFault (s : State) (e : Nat) (p : Posted) (cause : Nat) : State :=
  let c := s.slot e p.slot
  if s.bit (BOB_STATUS_BUSY e) && s.engSlot e == p.slot && c.run == p.run then s.slotAbort e cause p.given p.pc (s.engCycle e)
  else
    let s := s.abortInfo e cause p.slot c.used p.pc p.given
    let s := if s.slotState e p.slot = slReady ∧ c.mode = 2 ∧ c.run = p.run then
        ((s.setB (BOB_SSTAT_RESTART e p.slot) true).updSlot e p.slot (fun t => { t with abort := 2, mode := 0 })).afterRun e p.slot slIdle
      else s
    s.raiseD (0x20 + e) p.slot cause

/-- R27, R125. The oldest posted store of an engine reaches its target. -/
def State.acceptStore (s : State) (e : Nat) : State :=
  match (s.eng e).buf with
  | [] => s
  | p :: t =>
    if s.tick < p.due then s
    else
      let pop (s : State) : State := s.updEng e (fun g => { g with buf := t })
      match s.engAcc e p.addr p.size true with
      | .wait b => (s.autoWake b).sched 1 (.postedStoreAccepted (engIx e))
      | .fault cause off => ((pop s).pwrAcc off).storeFault e p cause
      | .ok =>
        if regionOf p.addr = .mirror then (pop s).busWrite (.eng (engIx e) (slotIx p.slot)) (p.addr - 0x40000000) p.size p.data
        else (pop s).storeBytes p

/-- R125. A store that stood behind one that waited follows it. -/
def State.acceptNext (s : State) (e : Nat) : State :=
  match (s.eng e).buf with
  | p :: _ =>
    if s.agenda.any (fun x => x.2 == .postedStoreAccepted (engIx e)) then s
    else s.schedAt (max s.tick p.due) (.postedStoreAccepted (engIx e))
  | [] => s

/-- R125. POSTED_STORE_ACCEPTED. -/
def execPostedStoreAccepted (e : Fin 16) (s : State) : Host.Outcome State Fault Refusal :=
  .next ((s.acceptStore e.val).acceptNext e.val)

end Sys2Proof.Machine
end

