-- ==== Sys2Proof/Machine/Xvarul.lean ====
section
/-!
DEFINITION. The Xvarul extension of the engines (R126–R132).
-/

namespace Sys2Proof.Machine

/-! ### Arithmetic (R127) -/

/-- R127. rnd: half away from zero, of a quotient by a power of two. -/
def rndDiv (z : Int) (k : Nat) : Int :=
  let h : Int := (2 ^ (k - 1) : Nat)
  let d : Int := (2 ^ k : Nat)
  if 0 ≤ z then (z + h) / d else -((-z + h) / d)

/-- The low and the high half of a word, signed. -/
def halfLo (w : Nat) : Int := toSigned 16 w
def halfHi (w : Nat) : Int := toSigned 16 (w / 65536)

/-- The word of two halves. -/
def ofHalves (hi lo : Int) : Nat := ofSigned 16 hi * 65536 + ofSigned 16 lo

/-- R127. sat32 and sat16 as words of 32 bits. -/
def sat32 (z : Int) : Nat := ofSigned 32 (satSigned 32 z)
def sat16 (z : Int) : Int := satSigned 16 z

/-- R126. VA.DIFF. -/
def vaDiff (a b : Nat) : Nat := (a + (2 ^ 32 - b)) % 2 ^ 32

/-- R126, R128. VA.LT and VA.BTW. -/
def vaLt (a b : Nat) : Nat := if toSigned 32 (vaDiff a b) < 0 then 1 else 0
def vaBtw (a b c : Nat) : Nat := if vaDiff a b < vaDiff c b then 1 else 0

/-- R126. The VQ instructions; `d` is the accumulator. -/
def vqMulq31 (a b : Nat) : Nat := sat32 (rndDiv (toSigned 32 a * toSigned 32 b) 31)
def vqMacq31 (d a b : Nat) : Nat := sat32 (toSigned 32 d + rndDiv (toSigned 32 a * toSigned 32 b) 31)
def vqMacq15 (d a b : Nat) : Nat := sat32 (toSigned 32 d + halfLo a * halfLo b)
def vqRndq15 (a : Nat) : Nat := ofSigned 32 (sat16 (rndDiv (toSigned 32 a) 15))

/-- R126. The VS instructions. -/
def vsAdd2 (a b : Nat) : Nat := ofHalves (sat16 (halfHi a + halfHi b)) (sat16 (halfLo a + halfLo b))
def vsSub2 (a b : Nat) : Nat := ofHalves (sat16 (halfHi a - halfHi b)) (sat16 (halfLo a - halfLo b))
def vsMac2 (d a b : Nat) : Nat := sat32 (toSigned 32 d + halfHi a * halfHi b + halfLo a * halfLo b)
def vsMul2 (a b : Nat) : Nat :=
  ofHalves (sat16 (rndDiv (halfHi a * halfHi b) 15)) (sat16 (rndDiv (halfLo a * halfLo b) 15))

/-- R124. The cycles after which a dependent instruction, and a dependent MAC, can issue: 1, and 2 from a MAC to a MAC. -/
def State.retireXv (s : State) (e len rd v : Nat) (f : Xop) : State := s.retireX e len rd v 1 (if f.isMac then 2 else 1) 1

/-- An Xvarul instruction of three registers; `f` forms the result of rd, rs1 and rs2. -/
def State.xvStep (s : State) (e : Nat) (i : Ins) (len : Nat) (f : Nat → Nat → Nat → Nat) : State :=
  match i with
  | .xv g rd a b => s.retireXv e len rd (f (s.xr e rd) (s.xr e a) (s.xr e b)) g
  | _ => s

/-- R126. VA_DIFF. -/
def execVaDiff (e : Fin 16) (s : State) : Host.Outcome State Fault Refusal :=
  .next (s.issue e (.vaDiff e) (fun i len s => s.xvStep e.val i len (fun _ a b => vaDiff a b)))

/-- R126. VA_LT. -/
def execVaLt (e : Fin 16) (s : State) : Host.Outcome State Fault Refusal :=
  .next (s.issue e (.vaLt e) (fun i len s => s.xvStep e.val i len (fun _ a b => vaLt a b)))

/-- R126, R128. VA_BTW. -/
def execVaBtw (e : Fin 16) (s : State) : Host.Outcome State Fault Refusal :=
  .next (s.issue e (.vaBtw e) (fun i len s =>
    match i with
    | .vaBtw rd a b c => s.retireX e.val len rd (vaBtw (s.xr e.val a) (s.xr e.val b) (s.xr e.val c)) 1 1 1
    | _ => s))

/-- R126, R127. VQ_MACQ31. -/
def execVqMacq31 (e : Fin 16) (s : State) : Host.Outcome State Fault Refusal :=
  .next (s.issue e (.vqMacq31 e) (fun i len s => s.xvStep e.val i len vqMacq31))

/-- R126, R127. VQ_MULQ31. -/
def execVqMulq31 (e : Fin 16) (s : State) : Host.Outcome State Fault Refusal :=
  .next (s.issue e (.vqMulq31 e) (fun i len s => s.xvStep e.val i len (fun _ a b => vqMulq31 a b)))

/-- R126, R127. VQ_MACQ15. -/
def execVqMacq15 (e : Fin 16) (s : State) : Host.Outcome State Fault Refusal :=
  .next (s.issue e (.vqMacq15 e) (fun i len s => s.xvStep e.val i len vqMacq15))

/-- R126, R127. VQ_RNDQ15. -/
def execVqRndq15 (e : Fin 16) (s : State) : Host.Outcome State Fault Refusal :=
  .next (s.issue e (.vqRndq15 e) (fun i len s => s.xvStep e.val i len (fun _ a _ => vqRndq15 a)))

/-- R126, R127. VS_ADD2. -/
def execVsAdd2 (e : Fin 16) (s : State) : Host.Outcome State Fault Refusal :=
  .next (s.issue e (.vsAdd2 e) (fun i len s => s.xvStep e.val i len (fun _ a b => vsAdd2 a b)))

/-- R126, R127. VS_SUB2. -/
def execVsSub2 (e : Fin 16) (s : State) : Host.Outcome State Fault Refusal :=
  .next (s.issue e (.vsSub2 e) (fun i len s => s.xvStep e.val i len (fun _ a b => vsSub2 a b)))

/-- R126, R127. VS_MAC2. -/
def execVsMac2 (e : Fin 16) (s : State) : Host.Outcome State Fault Refusal :=
  .next (s.issue e (.vsMac2 e) (fun i len s => s.xvStep e.val i len vsMac2))

/-- R126, R127. VS_MUL2. -/
def execVsMul2 (e : Fin 16) (s : State) : Host.Outcome State Fault Refusal :=
  .next (s.issue e (.vsMul2 e) (fun i len s => s.xvStep e.val i len (fun _ a b => vsMul2 a b)))

/-! ### CORDIC (R129) -/

/-- R129. A CORDIC result in a format of `w` bits, from the exact value × 2^96: any value within `acc` LSB of it, which one is
a free value (log entry 2); +1 saturates. -/
def State.cordic (s : State) (w acc : Nat) (x : Int) : Int × State :=
  if x = (2 ^ 96 : Nat) then ((2 ^ (w - 1) - 1 : Nat), s)
  else
    let d : Int := (2 ^ (97 - w) : Nat)
    let lo := -((-x) / d) - acc
    let hi := x / d + acc
    let r := s.free (hi - lo + 1).toNat
    (satSigned w (lo + r.1), r.2)

/-- R129. Other engines whose VC instruction was served in an engine cycle. -/
def State.vcServed (s : State) (e c : Nat) : Nat := ((upto 16).filter (fun k => k != e && (s.eng k).vcAt == some c)).length

/-- R129. A VC instruction: a fifth one in a cycle stalls, and keeps its place before those of later cycles. -/
def State.vcStep (s : State) (e : Nat) (i : Ins) (len : Nat) (f : Nat → State → Nat × State) : State :=
  match i with
  | .xv g rd a _ =>
    let c := s.issueAt e
    if 4 ≤ s.vcServed e c then (s.updEng e (fun t => { t with vcWait := some (t.vcWait.getD c) })).stallTo e (c + 1)
    else
      let r := f (s.xr e a) (s.updEng e (fun t => { t with vcAt := some c }))
      r.2.retireXv e len rd r.1 g
  | _ => s

/-- R129. One result in Q31. -/
def State.vcOne (s : State) (x : Int) : Nat × State :=
  let r := s.cordic 32 4 x
  (ofSigned 32 r.1, r.2)

/-- R126, R129. VC_SIN. -/
def execVcSin (e : Fin 16) (s : State) : Host.Outcome State Fault Refusal :=
  .next (s.issue e (.vcSin e) (fun i len s => s.vcStep e.val i len (fun a s => s.vcOne (sinWord a))))

/-- R126, R129. VC_COS. -/
def execVcCos (e : Fin 16) (s : State) : Host.Outcome State Fault Refusal :=
  .next (s.issue e (.vcCos e) (fun i len s => s.vcStep e.val i len (fun a s => s.vcOne (cosWord a))))

/-- R129. The cosine and the sine in Q15. -/
def State.sinCos (s : State) (c v : Int) : Nat × State :=
  let r := s.cordic 16 1 c
  let q := r.2.cordic 16 1 v
  (ofHalves r.1 q.1, q.2)

/-- R126, R129. VC_SC. -/
def execVcSc (e : Fin 16) (s : State) : Host.Outcome State Fault Refusal :=
  .next (s.issue e (.vcSc e) (fun i len s => s.vcStep e.val i len (fun a s => s.sinCos (cosWord a) (sinWord a))))

/-! ### VR.RD (R131) -/

/-- R131. Where a capture of VR.RD is kept: beyond BAR0's registers. -/
def vrPair (sel : Nat) : Nat := 0xF1000 + sel

/-- R137. Budget cycles left in the current run. -/
def State.budgetLeft (s : State) (e : Nat) : Nat :=
  let c := s.ctx e
  if c.budget = 0 then 0xFFFFFFFF else c.budget - (c.used + (s.issueAt e - (s.eng e).since))

/-- R131. The quantity of a selector, and its captures. -/
def State.vrRead (s : State) (e sel : Nat) : Nat × State :=
  let m := s.engMaster e
  match sel with
  | 0x000 => (s.h0Ang, s)
  | 0x001 => (s.h1Ang, s)
  | 0x002 => (s.tAng, s)
  | 0x003 => (s.hoop.h0.step % 2 ^ 32, s.capture m (vrPair 4) (s.hoop.h0.step / 2 ^ 32))
  | 0x004 => ((s.captured m (vrPair 4)).toNat, s)
  | 0x005 => (s.tick % 2 ^ 32, s.capture m (vrPair 6) (s.tick / 2 ^ 32))
  | 0x006 => ((s.captured m (vrPair 6)).toNat, s)
  | 0x007 => (s.ntm.ns, (s.capture m (vrPair 8) s.ntm.sec).capture m (vrPair 9) (s.stepGen * 2 ^ 28 + s.ntm.sec / 2 ^ 32 % 65536))
  | 0x008 => ((s.captured m (vrPair 8)).toNat, s)
  | 0x009 => ((s.captured m (vrPair 9)).toNat, s)
  | 0x00A => (s.cel.t0 % 2 ^ 32, s)
  | 0x00B => ((s.tick - s.cel.t0) % 2 ^ 32, s)
  | 0x00C => (s.budgetLeft e, s)
  | 0x00D => ((s.ctx e).wake.toNat, s)
  | 0x00E => (s.rdN GLB_CYCCNT, s)
  | 0x00F => (s.fld THM_STATUS_STEP * 256 + e * 16 + s.engSlot e, s)
  | _ => (0, s)

/-- R131. VR_RD. -/
def execVrRd (e : Fin 16) (s : State) : Host.Outcome State Fault Refusal :=
  .next (s.issue e (.vrRd e) (fun i len s =>
    match i with
    | .vrRd rd sel => let r := s.vrRead e.val sel; r.2.retireX e.val len rd r.1 1 1 1
    | _ => s))

/-! ### WAITSLOT (R132) -/

/-- R132. WAITSLOT. -/
def execWaitslot (e : Fin 16) (s : State) : Host.Outcome State Fault Refusal :=
  .next (s.issue e (.waitslot e) (fun i len s =>
    match i with
    | .waitslot rd => s.waitStep e.val rd len
    | _ => s))

/-! ### Cell table (R130) -/

/-- R130. The address of a VT access. -/
def vtAddr (id off : Nat) : Nat := (0x30000000 + id * 0x80 + off) % 2 ^ 32

/-- R130. A VT access that is a slot fault. -/
def vtBad (id off n : Nat) (store : Bool) : Bool :=
  decide (0xC0 ≤ id) || decide (127 < off) || off % n != 0 || (store && decide (off < 0x40))

/-- R124, R125, R130. A VT load: `v` forms the result. -/
def State.vtLoadStep (s : State) (e : Nat) (i : Ins) (len n : Nat) (v : Nat → Nat) : State :=
  match i with
  | .vtLoad _ rd r off =>
    let a := vtAddr (s.xr e r) off
    if vtBad (s.xr e r) off n false then s.insFault e 7 a
    else if s.storePending e a n then s.stallTick e
    else s.retireX e len rd (v (s.memN a n)) 4 4 1
  | _ => s

/-- R125, R130. A VT store. -/
def State.vtStoreStep (s : State) (e : Nat) (i : Ins) (len n : Nat) : State :=
  match i with
  | .vtStore _ r src off =>
    let a := vtAddr (s.xr e r) off
    if vtBad (s.xr e r) off n true then s.insFault e 7 a
    else if 4 ≤ (s.eng e).buf.length then s.stallTick e
    else (s.post e a n (s.xr e src)).retire e (s.nextPc e len) 1
  | _ => s

/-- R130. VT_LH. -/
def execVtLh (e : Fin 16) (s : State) : Host.Outcome State Fault Refusal :=
  .next (s.issue e (.vtLh e) (fun i len s => s.vtLoadStep e.val i len 2 (loadValue 1)))

/-- R130. VT_LW. -/
def execVtLw (e : Fin 16) (s : State) : Host.Outcome State Fault Refusal :=
  .next (s.issue e (.vtLw e) (fun i len s => s.vtLoadStep e.val i len 4 (loadValue 2)))

/-- R130. VT_LHU. -/
def execVtLhu (e : Fin 16) (s : State) : Host.Outcome State Fault Refusal :=
  .next (s.issue e (.vtLhu e) (fun i len s => s.vtLoadStep e.val i len 2 (loadValue 5)))

/-- R130. VT_SH. -/
def execVtSh (e : Fin 16) (s : State) : Host.Outcome State Fault Refusal :=
  .next (s.issue e (.vtSh e) (fun i len s => s.vtStoreStep e.val i len 2))

/-- R130. VT_SW. -/
def execVtSw (e : Fin 16) (s : State) : Host.Outcome State Fault Refusal :=
  .next (s.issue e (.vtSw e) (fun i len s => s.vtStoreStep e.val i len 4))

end Sys2Proof.Machine
end

