-- ==== Sys2Proof/Machine/Meanings.lean ====
section
/-!
DEFINITION. All the files that hold the meanings of the commands, for Dispatch.
-/
end

