-- ==== Sys2Proof/Machine/Dispatch.lean ====
section
/-!
DEFINITION. The dispatch: one arm per command, each a direct call of its meaning.
-/

namespace Sys2Proof.Machine

def exec (i : Instr) (s : State) : Host.Outcome State Fault Refusal :=
  match i with
  | .registerWrite m a size v => Sys2Proof.Machine.execRegisterWrite m a size v s
  | .pairLoRead m a size => Sys2Proof.Machine.execPairLoRead m a size s
  | .ntmTimeNsRead m pps => Sys2Proof.Machine.execNtmTimeNsRead m pps s
  | .powerOnReset => Sys2Proof.Machine.execPowerOnReset s
  | .perstReset => Sys2Proof.Machine.execPerstReset s
  | .powerDown => Sys2Proof.Machine.execPowerDown s
  | .timebasePllLock => Sys2Proof.Machine.execTimebasePllLock s
  | .timebasePllLoss => Sys2Proof.Machine.execTimebasePllLoss s
  | .corePllLoss => Sys2Proof.Machine.execCorePllLoss s
  | .ref10mLoss => Sys2Proof.Machine.execRef10mLoss s
  | .ref10mDetect => Sys2Proof.Machine.execRef10mDetect s
  | .pcieRefLoss => Sys2Proof.Machine.execPcieRefLoss s
  | .supplyMonitorTrip rail => Sys2Proof.Machine.execSupplyMonitorTrip rail s
  | .warmReset m w => Sys2Proof.Machine.execWarmReset m w s
  | .thimbleWatchdogExpiry => Sys2Proof.Machine.execThimbleWatchdogExpiry s
  | .thimbleWatchdogReset => Sys2Proof.Machine.execThimbleWatchdogReset s
  | .lockstepMismatch => Sys2Proof.Machine.execLockstepMismatch s
  | .thimbleBoot => Sys2Proof.Machine.execThimbleBoot s
  | .readySet fails => Sys2Proof.Machine.execReadySet fails s
  | .runSet m => Sys2Proof.Machine.execRunSet m s
  | .ctrlRunStart => Sys2Proof.Machine.execCtrlRunStart s
  | .runClear m => Sys2Proof.Machine.execRunClear m s
  | .orderlyStopStack => Sys2Proof.Machine.execOrderlyStopStack s
  | .orderlyStopLegs => Sys2Proof.Machine.execOrderlyStopLegs s
  | .orderlyStopEnd => Sys2Proof.Machine.execOrderlyStopEnd s
  | .mramImageCommit => Sys2Proof.Machine.execMramImageCommit s
  | .lifecycleAdvance => Sys2Proof.Machine.execLifecycleAdvance s
  | .fuseProgram => Sys2Proof.Machine.execFuseProgram s
  | .onDemandBist => Sys2Proof.Machine.execOnDemandBist s
  | .secureWipe => Sys2Proof.Machine.execSecureWipe s
  | .longopComplete fails => Sys2Proof.Machine.execLongopComplete fails s
  | .cycleStart => Sys2Proof.Machine.execCycleStart s
  | .refsDue => Sys2Proof.Machine.execRefsDue s
  | .tattingPublish => Sys2Proof.Machine.execTattingPublish s
  | .stitchComputeDone => Sys2Proof.Machine.execStitchComputeDone s
  | .downDeparture => Sys2Proof.Machine.execDownDeparture s
  | .h0Enable m => Sys2Proof.Machine.execH0Enable m s
  | .h0Disable m => Sys2Proof.Machine.execH0Disable m s
  | .h0DcSet m => Sys2Proof.Machine.execH0DcSet m s
  | .h0DcClear m => Sys2Proof.Machine.execH0DcClear m s
  | .h0nomWrite m nom => Sys2Proof.Machine.execH0nomWrite m nom s
  | .primaryReturn m => Sys2Proof.Machine.execPrimaryReturn m s
  | .h0PrimaryUpdate angle pos neg => Sys2Proof.Machine.execH0PrimaryUpdate angle pos neg s
  | .angleZero => Sys2Proof.Machine.execAngleZero s
  | .h1TrackUpdate angle pos neg => Sys2Proof.Machine.execH1TrackUpdate angle pos neg s
  | .h1AngleWrite m v => Sys2Proof.Machine.execH1AngleWrite m v s
  | .prickingPass => Sys2Proof.Machine.execPrickingPass s
  | .prkEnable m => Sys2Proof.Machine.execPrkEnable m s
  | .prkDisable m => Sys2Proof.Machine.execPrkDisable m s
  | .prkEditRead m page => Sys2Proof.Machine.execPrkEditRead m page s
  | .prkEditWrite m page => Sys2Proof.Machine.execPrkEditWrite m page s
  | .prkEditInsert m page => Sys2Proof.Machine.execPrkEditInsert m page s
  | .prkEditDelete m page => Sys2Proof.Machine.execPrkEditDelete m page s
  | .prkEditClear m page => Sys2Proof.Machine.execPrkEditClear m page s
  | .prkEditCommit m page => Sys2Proof.Machine.execPrkEditCommit m page s
  | .prkEditComplete => Sys2Proof.Machine.execPrkEditComplete s
  | .prkSwapRequest m page => Sys2Proof.Machine.execPrkSwapRequest m page s
  | .pageSwapEffect => Sys2Proof.Machine.execPageSwapEffect s
  | .adcSeqTrig mask => Sys2Proof.Machine.execAdcSeqTrig mask s
  | .taskWake engines arg => Sys2Proof.Machine.execTaskWake engines arg s
  | .cellSnapshot target kind => Sys2Proof.Machine.execCellSnapshot target kind s
  | .twArm mask window => Sys2Proof.Machine.execTwArm mask window s
  | .phuAlign mask => Sys2Proof.Machine.execPhuAlign mask s
  | .ageProbe target params => Sys2Proof.Machine.execAgeProbe target params s
  | .rotatePoint phases => Sys2Proof.Machine.execRotatePoint phases s
  | .pwmCommit legs => Sys2Proof.Machine.execPwmCommit legs s
  | .gpioSet pin => Sys2Proof.Machine.execGpioSet pin s
  | .gpioClr pin => Sys2Proof.Machine.execGpioClr pin s
  | .mark page idx tag => Sys2Proof.Machine.execMark page idx tag s
  | .pageSwap page => Sys2Proof.Machine.execPageSwap page s
  | .handoverPoint => Sys2Proof.Machine.execHandoverPoint s
  | .ntmIncWrite m lo => Sys2Proof.Machine.execNtmIncWrite m lo s
  | .ntmAdjStep m v => Sys2Proof.Machine.execNtmAdjStep m v s
  | .ntmAdjSlew m v => Sys2Proof.Machine.execNtmAdjSlew m v s
  | .ntmSlewComplete => Sys2Proof.Machine.execNtmSlewComplete s
  | .ntmSet m => Sys2Proof.Machine.execNtmSet m s
  | .ntmCmdFree m => Sys2Proof.Machine.execNtmCmdFree m s
  | .ntmCmdAcquire m => Sys2Proof.Machine.execNtmCmdAcquire m s
  | .ntmCmdLock m => Sys2Proof.Machine.execNtmCmdLock m s
  | .ntmCmdHold m => Sys2Proof.Machine.execNtmCmdHold m s
  | .ntmMasterTimeout => Sys2Proof.Machine.execNtmMasterTimeout s
  | .ntmMasteridWrite m reg v => Sys2Proof.Machine.execNtmMasteridWrite m reg v s
  | .ntmHoldUpdate => Sys2Proof.Machine.execNtmHoldUpdate s
  | .ppsOutPulse => Sys2Proof.Machine.execPpsOutPulse s
  | .ppsOutPulseEnd => Sys2Proof.Machine.execPpsOutPulseEnd s
  | .ppsInEdge falling quarter => Sys2Proof.Machine.execPpsInEdge falling quarter s
  | .ref10Measure err => Sys2Proof.Machine.execRef10Measure err s
  | .ntmAlarm => Sys2Proof.Machine.execNtmAlarm s
  | .ethRxFrame port frame fcsOk => Sys2Proof.Machine.execEthRxFrame port frame fcsOk s
  | .ethTxFrame port d frame returned => Sys2Proof.Machine.execEthTxFrame port d frame returned s
  | .prpEntryExpire => Sys2Proof.Machine.execPrpEntryExpire s
  | .ethLinkChange port sigdet sync an remFlt => Sys2Proof.Machine.execEthLinkChange port sigdet sync an remFlt s
  | .engineBaseInstruction e => Sys2Proof.Machine.execEngineBaseInstruction e s
  | .load e => Sys2Proof.Machine.execLoad e s
  | .store e => Sys2Proof.Machine.execStore e s
  | .postedStoreAccepted e => Sys2Proof.Machine.execPostedStoreAccepted e s
  | .aliasBitSet e => Sys2Proof.Machine.execAliasBitSet e s
  | .aliasBitClear e => Sys2Proof.Machine.execAliasBitClear e s
  | .fence e => Sys2Proof.Machine.execFence e s
  | .fenceI e => Sys2Proof.Machine.execFenceI e s
  | .wfi e => Sys2Proof.Machine.execWfi e s
  | .ecall e => Sys2Proof.Machine.execEcall e s
  | .ebreak e => Sys2Proof.Machine.execEbreak e s
  | .csrAccess e => Sys2Proof.Machine.execCsrAccess e s
  | .illegalInstruction e => Sys2Proof.Machine.execIllegalInstruction e s
  | .vaDiff e => Sys2Proof.Machine.execVaDiff e s
  | .vaLt e => Sys2Proof.Machine.execVaLt e s
  | .vaBtw e => Sys2Proof.Machine.execVaBtw e s
  | .vqMacq31 e => Sys2Proof.Machine.execVqMacq31 e s
  | .vqMulq31 e => Sys2Proof.Machine.execVqMulq31 e s
  | .vqMacq15 e => Sys2Proof.Machine.execVqMacq15 e s
  | .vqRndq15 e => Sys2Proof.Machine.execVqRndq15 e s
  | .vsAdd2 e => Sys2Proof.Machine.execVsAdd2 e s
  | .vsSub2 e => Sys2Proof.Machine.execVsSub2 e s
  | .vsMac2 e => Sys2Proof.Machine.execVsMac2 e s
  | .vsMul2 e => Sys2Proof.Machine.execVsMul2 e s
  | .vcSin e => Sys2Proof.Machine.execVcSin e s
  | .vcCos e => Sys2Proof.Machine.execVcCos e s
  | .vcSc e => Sys2Proof.Machine.execVcSc e s
  | .vrRd e => Sys2Proof.Machine.execVrRd e s
  | .waitslot e => Sys2Proof.Machine.execWaitslot e s
  | .vtLh e => Sys2Proof.Machine.execVtLh e s
  | .vtLw e => Sys2Proof.Machine.execVtLw e s
  | .vtLhu e => Sys2Proof.Machine.execVtLhu e s
  | .vtSh e => Sys2Proof.Machine.execVtSh e s
  | .vtSw e => Sys2Proof.Machine.execVtSw e s
  | .bobWakeWrite m e w => Sys2Proof.Machine.execBobWakeWrite m e w s
  | .slotDispatch e => Sys2Proof.Machine.execSlotDispatch e s
  | .slotBudgetOverrun e => Sys2Proof.Machine.execSlotBudgetOverrun e s
  | .slotEnable m e slot => Sys2Proof.Machine.execSlotEnable m e slot s
  | .slotDisable m e slot => Sys2Proof.Machine.execSlotDisable m e slot s
  | .engineEnable m e => Sys2Proof.Machine.execEngineEnable m e s
  | .engineDisable m e => Sys2Proof.Machine.execEngineDisable m e s
  | .bobWdkick m e => Sys2Proof.Machine.execBobWdkick m e s
  | .bobbinWatchdogCheck => Sys2Proof.Machine.execBobbinWatchdogCheck s
  | .stitchPhaseEnable m mask => Sys2Proof.Machine.execStitchPhaseEnable m mask s
  | .stitchPhaseDisable m mask => Sys2Proof.Machine.execStitchPhaseDisable m mask s
  | .upFrameRx c f => Sys2Proof.Machine.execUpFrameRx c f s
  | .mgmtRspRx c f => Sys2Proof.Machine.execMgmtRspRx c f s
  | .claimRspRx c f => Sys2Proof.Machine.execClaimRspRx c f s
  | .delayRspRx lane f t4 => Sys2Proof.Machine.execDelayRspRx lane f t4 s
  | .nakRx c f => Sys2Proof.Machine.execNakRx c f s
  | .chainHbtRx c f => Sys2Proof.Machine.execChainHbtRx c f s
  | .enumReturn c f => Sys2Proof.Machine.execEnumReturn c f s
  | .fastTripRx lane x => Sys2Proof.Machine.execFastTripRx lane x s
  | .mgmtTimeout c => Sys2Proof.Machine.execMgmtTimeout c s
  | .mgmtBusyRetry cell => Sys2Proof.Machine.execMgmtBusyRetry cell s
  | .delayExchangePeriod cell => Sys2Proof.Machine.execDelayExchangePeriod cell s
  | .enumAssign m chains => Sys2Proof.Machine.execEnumAssign m chains s
  | .enumFill m chains => Sys2Proof.Machine.execEnumFill m chains s
  | .enumFillPeriodic => Sys2Proof.Machine.execEnumFillPeriodic s
  | .enumBreakTimeout c => Sys2Proof.Machine.execEnumBreakTimeout c s
  | .cellLostTimeout cell => Sys2Proof.Machine.execCellLostTimeout cell s
  | .claimOutcome => Sys2Proof.Machine.execClaimOutcome s
  | .laneEnable m lane => Sys2Proof.Machine.execLaneEnable m lane s
  | .laneDisable m lane => Sys2Proof.Machine.execLaneDisable m lane s
  | .laneSignalLock lane => Sys2Proof.Machine.execLaneSignalLock lane s
  | .laneAligned lane inverted => Sys2Proof.Machine.execLaneAligned lane inverted s
  | .trainFrameRx lane head body eye => Sys2Proof.Machine.execTrainFrameRx lane head body eye s
  | .ffeTapUpdate lane => Sys2Proof.Machine.execFfeTapUpdate lane s
  | .trainCtleDone lane boost => Sys2Proof.Machine.execTrainCtleDone lane boost s
  | .trainTuneEval lane => Sys2Proof.Machine.execTrainTuneEval lane s
  | .trainTuneRestart lane => Sys2Proof.Machine.execTrainTuneRestart lane s
  | .laneLinkUp lane => Sys2Proof.Machine.execLaneLinkUp lane s
  | .laneTrainTimeout lane => Sys2Proof.Machine.execLaneTrainTimeout lane s
  | .laneLoss lane signal clock codes => Sys2Proof.Machine.execLaneLoss lane signal clock codes s
  | .laneBackoffEnd lane => Sys2Proof.Machine.execLaneBackoffEnd lane s
  | .laneRetrain m lane => Sys2Proof.Machine.execLaneRetrain m lane s
  | .lanePllLoss pll => Sys2Proof.Machine.execLanePllLoss pll s
  | .lanePllLock pll => Sys2Proof.Machine.execLanePllLock pll s
  | .lanePrbsEnable m lane => Sys2Proof.Machine.execLanePrbsEnable m lane s
  | .lanePrbsDisable m lane => Sys2Proof.Machine.execLanePrbsDisable m lane s
  | .prbsErrinj m lane => Sys2Proof.Machine.execPrbsErrinj m lane s
  | .prbsCheckerLock lane => Sys2Proof.Machine.execPrbsCheckerLock lane s
  | .prbsCheckerLoss lane errs => Sys2Proof.Machine.execPrbsCheckerLoss lane errs s
  | .eyeScanStart m lane => Sys2Proof.Machine.execEyeScanStart m lane s
  | .eyeScanDone lane height width => Sys2Proof.Machine.execEyeScanDone lane height width s
  | .elasticRecenter lane => Sys2Proof.Machine.execElasticRecenter lane s
  | .sarEnable m conv => Sys2Proof.Machine.execSarEnable m conv s
  | .sarReady conv => Sys2Proof.Machine.execSarReady conv s
  | .sarDisable m conv => Sys2Proof.Machine.execSarDisable m conv s
  | .adcSeqswGo m mask => Sys2Proof.Machine.execAdcSeqswGo m mask s
  | .sarConversionResult conv code => Sys2Proof.Machine.execSarConversionResult conv code s
  | .adcUrgentRequest m conv input => Sys2Proof.Machine.execAdcUrgentRequest m conv input s
  | .hkScanPeriod => Sys2Proof.Machine.execHkScanPeriod s
  | .selfCheckPeriod => Sys2Proof.Machine.execSelfCheckPeriod s
  | .refSelect m sel vnom => Sys2Proof.Machine.execRefSelect m sel vnom s
  | .refSettled settled => Sys2Proof.Machine.execRefSettled settled s
  | .refInbandLoss => Sys2Proof.Machine.execRefInbandLoss s
  | .windowComparatorChange k level => Sys2Proof.Machine.execWindowComparatorChange k level s
  | .adcInject m w => Sys2Proof.Machine.execAdcInject m w s
  | .fastStreamStart m chen => Sys2Proof.Machine.execFastStreamStart m chen s
  | .fastStreamStop m => Sys2Proof.Machine.execFastStreamStop m s
  | .phuEnable m => Sys2Proof.Machine.execPhuEnable m s
  | .phuGuardDecision => Sys2Proof.Machine.execPhuGuardDecision s
  | .phuTrigger => Sys2Proof.Machine.execPhuTrigger s
  | .phuFrameEmit phasors freq rocof => Sys2Proof.Machine.execPhuFrameEmit phasors freq rocof s
  | .twTrigger xs => Sys2Proof.Machine.execTwTrigger xs s
  | .twPostEnd first xs => Sys2Proof.Machine.execTwPostEnd first xs s
  | .twHoldoffEnd => Sys2Proof.Machine.execTwHoldoffEnd s
  | .twArmExpire => Sys2Proof.Machine.execTwArmExpire s
  | .twCaptureDone => Sys2Proof.Machine.execTwCaptureDone s
  | .twLocate m => Sys2Proof.Machine.execTwLocate m s
  | .twLocateDone => Sys2Proof.Machine.execTwLocateDone s
  | .pwmLegEnable m n => Sys2Proof.Machine.execPwmLegEnable m n s
  | .pwmLegDisable m n => Sys2Proof.Machine.execPwmLegDisable m n s
  | .pwmGstart m mask => Sys2Proof.Machine.execPwmGstart m mask s
  | .pwmCtrlCommit m n => Sys2Proof.Machine.execPwmCtrlCommit m n s
  | .pwmPeriodBoundary n => Sys2Proof.Machine.execPwmPeriodBoundary n s
  | .pwmTransition n high => Sys2Proof.Machine.execPwmTransition n high s
  | .deadTimeEnd n => Sys2Proof.Machine.execDeadTimeEnd n s
  | .gateAckInput n high level => Sys2Proof.Machine.execGateAckInput n high level s
  | .ackTimeout n high => Sys2Proof.Machine.execAckTimeout n high s
  | .bsuvInput n asserted => Sys2Proof.Machine.execBsuvInput n asserted s
  | .picotSupplyCheck n => Sys2Proof.Machine.execPicotSupplyCheck n s
  | .dsatBlankEnd n => Sys2Proof.Machine.execDsatBlankEnd n s
  | .selvageDecision src => Sys2Proof.Machine.execSelvageDecision src s
  | .selvForce m w => Sys2Proof.Machine.execSelvForce m w s
  | .selvClr m w => Sys2Proof.Machine.execSelvClr m w s
  | .brkMinExpire => Sys2Proof.Machine.execBrkMinExpire s
  | .faultEvent src inst detail => Sys2Proof.Machine.execFaultEvent src inst detail s
  | .faultWindowClose src => Sys2Proof.Machine.execFaultWindowClose src s
  | .faultConditionEnd src inst => Sys2Proof.Machine.execFaultConditionEnd src inst s
  | .logRecordCommit => Sys2Proof.Machine.execLogRecordCommit s
  | .errpinMinwExpire => Sys2Proof.Machine.execErrpinMinwExpire s
  | .errpinHoldWrite m hold => Sys2Proof.Machine.execErrpinHoldWrite m hold s
  | .fltReleaseSafe m key => Sys2Proof.Machine.execFltReleaseSafe m key s
  | .fltReleaseTripclr m key => Sys2Proof.Machine.execFltReleaseTripclr m key s
  | .cellBypassRelease m k mask => Sys2Proof.Machine.execCellBypassRelease m k mask s
  | .escalationClear m k mask => Sys2Proof.Machine.execEscalationClear m k mask s
  | .faultInject m w => Sys2Proof.Machine.execFaultInject m w s
  | .injectConditionEnd src inst => Sys2Proof.Machine.execInjectConditionEnd src inst s
  | .eccInjectArm m w => Sys2Proof.Machine.execEccInjectArm m w s
  | .logClear m w => Sys2Proof.Machine.execLogClear m w s
  | .rdnEnable m => Sys2Proof.Machine.execRdnEnable m s
  | .rdnDisable m => Sys2Proof.Machine.execRdnDisable m s
  | .shuttleHbtRx lane f frac => Sys2Proof.Machine.execShuttleHbtRx lane f frac s
  | .stateSegmentRx f => Sys2Proof.Machine.execStateSegmentRx f s
  | .snapshotPeriod => Sys2Proof.Machine.execSnapshotPeriod s
  | .tunnelRx f => Sys2Proof.Machine.execTunnelRx f s
  | .standbyTxSlot => Sys2Proof.Machine.execStandbyTxSlot s
  | .rdnClaimgo m => Sys2Proof.Machine.execRdnClaimgo m s
  | .rdnHoreq m => Sys2Proof.Machine.execRdnHoreq m s
  | .rdnHoabort m => Sys2Proof.Machine.execRdnHoabort m s
  | .revertTimerExpire => Sys2Proof.Machine.execRevertTimerExpire s
  | .hoarmTimeout => Sys2Proof.Machine.execHoarmTimeout s
  | .handoverClaim => Sys2Proof.Machine.execHandoverClaim s
  | .handoffTimeout => Sys2Proof.Machine.execHandoffTimeout s
  | .ctlockTimeout => Sys2Proof.Machine.execCtlockTimeout s
  | .shuttleDelayPeriod => Sys2Proof.Machine.execShuttleDelayPeriod s
  | .standbyLbistTile fail => Sys2Proof.Machine.execStandbyLbistTile fail s
  | .standbyHealthReport => Sys2Proof.Machine.execStandbyHealthReport s
  | .chainReclaim => Sys2Proof.Machine.execChainReclaim s
  | .dieSensorSample rs => Sys2Proof.Machine.execDieSensorSample rs s
  | .diodeReading k bad t => Sys2Proof.Machine.execDiodeReading k bad t s
  | .throttleEvaluate => Sys2Proof.Machine.execThrottleEvaluate s
  | .thmNstepWrite m n => Sys2Proof.Machine.execThmNstepWrite m n s
  | .thmAck m => Sys2Proof.Machine.execThmAck m s
  | .cellHeadroomUpdate => Sys2Proof.Machine.execCellHeadroomUpdate s
  | .dieComparatorTrip => Sys2Proof.Machine.execDieComparatorTrip s
  | .thermalHalt => Sys2Proof.Machine.execThermalHalt s
  | .thermalRestart => Sys2Proof.Machine.execThermalRestart s
  | .pathMonitorRead slacks => Sys2Proof.Machine.execPathMonitorRead slacks s
  | .ageEyeScanPeriod => Sys2Proof.Machine.execAgeEyeScanPeriod s
  | .probeTimeout cell => Sys2Proof.Machine.execProbeTimeout cell s
  | .ageLifeUpdate => Sys2Proof.Machine.execAgeLifeUpdate s
  | .ageSave => Sys2Proof.Machine.execAgeSave s
  | .ageCellReset m w => Sys2Proof.Machine.execAgeCellReset m w s
  | .ageReport => Sys2Proof.Machine.execAgeReport s
  | .memOwnerWrite m n w => Sys2Proof.Machine.execMemOwnerWrite m n w s
  | .ownershipDrainEnd n => Sys2Proof.Machine.execOwnershipDrainEnd n s
  | .bankPowerRequest m n w => Sys2Proof.Machine.execBankPowerRequest m n w s
  | .bankPowerDone n => Sys2Proof.Machine.execBankPowerDone n s
  | .scrubPass => Sys2Proof.Machine.execScrubPass s
  | .eccWriteback => Sys2Proof.Machine.execEccWriteback s
  | .starveTimeout => Sys2Proof.Machine.execStarveTimeout s
  | .nvmWriteGo m => Sys2Proof.Machine.execNvmWriteGo m s
  | .mramLineWritten => Sys2Proof.Machine.execMramLineWritten s
  | .tamperPin high => Sys2Proof.Machine.execTamperPin high s
  | .voltageTamper ok => Sys2Proof.Machine.execVoltageTamper ok s
  | .clockTamper ok => Sys2Proof.Machine.execClockTamper ok s
  | .secureWipeDone => Sys2Proof.Machine.execSecureWipeDone s
  | .thimbleRestartDone => Sys2Proof.Machine.execThimbleRestartDone s
  | .bar4Read off len => Sys2Proof.Machine.execBar4Read off len s
  | .bar4Write off data => Sys2Proof.Machine.execBar4Write off data s
  | .ringDoorbell ring v slots => Sys2Proof.Machine.execRingDoorbell ring v slots s
  | .ringEnable m ring => Sys2Proof.Machine.execRingEnable m ring s
  | .ringDisable m ring => Sys2Proof.Machine.execRingDisable m ring s
  | .ringStopDone ring => Sys2Proof.Machine.execRingStopDone ring s
  | .dmaError ring write cpl addr => Sys2Proof.Machine.execDmaError ring write cpl addr s
  | .nop ring d => Sys2Proof.Machine.execNop ring d s
  | .prkRead ring d page idx cnt => Sys2Proof.Machine.execPrkRead ring d page idx cnt s
  | .prkWrite ring d page idx entries => Sys2Proof.Machine.execPrkWrite ring d page idx entries s
  | .prkInsert ring d page entries => Sys2Proof.Machine.execPrkInsert ring d page entries s
  | .prkDelete ring d page idx cnt => Sys2Proof.Machine.execPrkDelete ring d page idx cnt s
  | .prkClear ring d page => Sys2Proof.Machine.execPrkClear ring d page s
  | .prkCommit ring d page => Sys2Proof.Machine.execPrkCommit ring d page s
  | .prkSwap ring d page => Sys2Proof.Machine.execPrkSwap ring d page s
  | .cellMgmt ring d q => Sys2Proof.Machine.execCellMgmt ring d q s
  | .cellmapWrite ring d first entries => Sys2Proof.Machine.execCellmapWrite ring d first entries s
  | .memRead ring d addr => Sys2Proof.Machine.execMemRead ring d addr s
  | .memWrite ring d addr data => Sys2Proof.Machine.execMemWrite ring d addr data s
  | .commandComplete cq => Sys2Proof.Machine.execCommandComplete cq s
  | .irqHoldoffEnd ring => Sys2Proof.Machine.execIrqHoldoffEnd ring s
  | .msixUnmask vec masked addr data => Sys2Proof.Machine.execMsixUnmask vec masked addr data s
  | .mailboxFetch k msg => Sys2Proof.Machine.execMailboxFetch k msg s
  | .mailboxPop m k => Sys2Proof.Machine.execMailboxPop m k s
  | .mailboxPost m k => Sys2Proof.Machine.execMailboxPost m k s
  | .pcieLinkDown => Sys2Proof.Machine.execPcieLinkDown s
  | .bootConfirm => Sys2Proof.Machine.execBootConfirm s
  | .bootSelect m sel => Sys2Proof.Machine.execBootSelect m sel s
  | .shutdownStart => Sys2Proof.Machine.execShutdownStart s
  | .shutdownPadHold => Sys2Proof.Machine.execShutdownPadHold s
  | .shutdownBistDone fails => Sys2Proof.Machine.execShutdownBistDone fails s
  | .quietEnter => Sys2Proof.Machine.execQuietEnter s
  | .quietEntryDone => Sys2Proof.Machine.execQuietEntryDone s
  | .wakePin => Sys2Proof.Machine.execWakePin s
  | .quietWakeCmd => Sys2Proof.Machine.execQuietWakeCmd s
  | .quietAwake => Sys2Proof.Machine.execQuietAwake s
  | .corePllLock => Sys2Proof.Machine.execCorePllLock s
  | .pcieRefDetect => Sys2Proof.Machine.execPcieRefDetect s
  | .pcieLinkUp speed width => Sys2Proof.Machine.execPcieLinkUp speed width s
  | .pcieConfigWrite bme msixen d3hot => Sys2Proof.Machine.execPcieConfigWrite bme msixen d3hot s
  | .thimbleHeartbeat => Sys2Proof.Machine.execThimbleHeartbeat s
  | .ctleTrackStep lane up => Sys2Proof.Machine.execCtleTrackStep lane up s
  | .enumFarEndRx c f => Sys2Proof.Machine.execEnumFarEndRx c f s
  | .shuttleDelayReqRx f t2 => Sys2Proof.Machine.execShuttleDelayReqRx f t2 s
  | .selvageInputChange src level => Sys2Proof.Machine.execSelvageInputChange src level s
  | .picotPulseEnd n => Sys2Proof.Machine.execPicotPulseEnd n s
  | .fastChannelClip c clip => Sys2Proof.Machine.execFastChannelClip c clip s
  | .tapInstruction ir => Sys2Proof.Machine.execTapInstruction ir s

end Sys2Proof.Machine
end

