-- ==== Sys2Proof/Machine/Step.lean ====
section
/-!
DEFINITION. The step: the command at the front of the queue, or, with an empty queue, the passing of time: what is due at this
tick enters the queue, and when nothing is, the next tick comes (R12, R15; log entry 1).
-/

namespace Sys2Proof.Machine

/-- The state with commands at the end of its queue. -/
def State.push (s : State) (cs : List Instr) : State := { s with pending := s.pending ++ cs }

/-- The device works: it is not off, not shut down and not halted by the fixed thermal comparator. -/
def State.alive (s : State) : Bool := !s.thm.halted && s.bst.at_ != .off && !s.bit BST_STATUS_SHUTDOWN

/-- R135. What comes before the wakes of the tick: budgets reached, and WAITSLOT in the first engine cycle of the tick. -/
def State.dueFirst (s : State) : List Instr :=
  (List.finRange 16).filterMap (fun e =>
    if s.overBudget e.val then (if s.overAt e.val ≤ s.cycNow then some (.slotBudgetOverrun e) else none)
    else if s.engDue e.val && decide (s.issueAt e.val ≤ s.cycNow) then
      match s.engRow e with
      | some (.waitslot e) => some (.waitslot e)
      | some (.wfi e) => some (.wfi e)
      | _ => none
    else none)

/-- R77. A swap is armed: at an H0 zero it is tried, and takes effect at the zero that it was armed for. -/
def State.swapTried (s : State) : List Instr := if s.prk.swap.isSome then [.pageSwapEffect] else []

/-- R22, R33. Control cycles that wait for an H0 zero after a passing check start at it. -/
def State.ctrlStart (s : State) : List Instr :=
  if s.bit GLB_CTRL_RUN && !s.bit GLB_STATUS_CTRL_RUN then [.ctrlRunStart] else []

/-- R22, R49, R77. A hoop has passed zero in this tick; what waits for an H0 zero comes with it, before Pricking dispatches. -/
def State.dueZero (s : State) : List Instr :=
  if s.hoop.h0.crossed then [.angleZero] ++ s.swapTried ++ s.ctrlStart
  else if s.hoop.h1.crossed then [.angleZero]
  else []

/-- R125, R464. The place of an engine's oldest posted store among those of the tick: by the engine cycle of its arrival, then the
home engine of its bank's owner before the others. -/
def State.storeRank (s : State) (e : Fin 16) : Nat :=
  match (s.eng e.val).buf with
  | [] => 0
  | p :: _ => (if p.late && p.due == s.tick then 2 else 0) +
      (match regionOf p.addr with
        | .bank n => if s.fld (MEM_OWN_KIND n) = 0 ∧ s.fld (MEM_OWN_HOME n) = e.val then 0 else 1
        | _ => 0)

/-- The place of a due step among the posted stores; none for any other step. -/
def State.rankOf (s : State) : Instr → Option Nat
  | .postedStoreAccepted e => some (s.storeRank e)
  | _ => none

/-- The scheduled steps that are due, oldest first. -/
def State.dueAgenda (s : State) : List Instr := (s.agenda.filter (fun e => decide (e.1 ≤ s.tick))).map (·.2)

/-- R125. A due step is delivered now: no posted store of the tick goes before it. -/
def State.goesNow (s : State) (c : Instr) : Bool :=
  match s.rankOf c with
  | none => true
  | some r => s.dueAgenda.all (fun d => decide (r ≤ (s.rankOf d).getD r))

/-- The scheduled steps that are delivered now, oldest first; the posted stores among them come last (R348). -/
def State.dueSteps (s : State) : List Instr :=
  let due := s.dueAgenda.filter s.goesNow
  due.filter (fun c => (s.rankOf c).isNone) ++ due.filter (fun c => (s.rankOf c).isSome)

/-- The scheduled steps that are not delivered now stay. -/
def State.dropDue (s : State) : State :=
  { s with agenda := s.agenda.filter (fun e => decide (s.tick < e.1) || !s.goesNow e.2) }

/-- R135, R291. What is due at this tick: what goes before the wakes, the zero of a hoop, what Pricking dispatches, then the
scheduled steps. -/
def State.deliver (s : State) : State :=
  let r := s.prkDispatch
  r.1.dropDue.push (s.dueFirst ++ s.dueZero ++ r.2 ++ r.1.dueSteps)

/-- R129. The engines in the order of this tick: it rotates. -/
def State.engOrder (s : State) : List (Fin 16) := (List.finRange 16).map (fun e => engIx (e.val + s.tick))

/-- R129, R137. The engine cycle of the next event of an engine: the stop of its run or the issue of an instruction. -/
def State.engNext (s : State) (e : Nat) : Nat := if s.overBudget e then s.overAt e else s.issueAt e

/-- R129. Cycles for which the VC instruction of an engine has stalled at engine cycle `c`, at most 3. -/
def State.vcAge (s : State) (e c : Nat) : Nat := ((s.eng e).vcWait.map (fun w => min 3 (c - w))).getD 0

/-- R124. The instructions that issue in the next engine cycle of this tick in which one does; those that the CORDIC unit has made
wait go first, the longest wait before all (R129). -/
def State.dueIssues (s : State) : List Instr :=
  let due := s.engOrder.filter (fun e => s.overBudget e.val || s.engDue e.val)
  let first := due.foldl (fun m e => min m (s.engNext e.val)) (s.cycNow + 1)
  let now := due.filter (fun e => decide (s.engNext e.val ≤ first))
  (([3, 2, 1, 0] : List Nat).flatMap (fun d => now.filter (fun e => s.vcAge e.val first == d))).filterMap s.engRow

/-- R12, R17, R48, R92. The next tick: the hoops, the network clock and the tick count; a step of the clock reaches the PHU (R318),
its frames fall (R327), the converters hold (R317) and the fast stream writes (R304); the lanes send what is due (R213). -/
def State.nextTick (s : State) : State :=
  let n := s.rdN NTM_STEPCNT
  let f := s.frameNext
  let s := { s with tick := s.tick + 1 }
  if s.alive then
    let s := s.hoopTick.ntmTick
    (((if s.rdN NTM_STEPCNT = n then s else s.phuStep f).phuTick.sarTick 0).sarTick 1).fastTick.txPass.yieldPass.saveTick
  else s

/-- The passing of time with an empty queue: what is due at this tick is delivered, then the instructions that issue in it; when
nothing is left the next tick comes, and what is due in it enters the queue at once, before any command that arrives in it. -/
def State.idle (s : State) : State :=
  if s.alive then
    let d := s.deliver
    if !d.pending.isEmpty then d
    else if d.bit PHU_STATUS_RUN && d.gridDue d.phu.next then d.push [.phuGuardDecision]
    else
      let is := d.dueIssues
      if !is.isEmpty then d.push is else d.nextTick.deliver
  else s.nextTick

/-- One step. -/
def step (s : State) : Host.Outcome State Fault Refusal :=
  match s.pending with
  | c :: rest => exec c { s with pending := rest }
  | [] => .next s.idle

/-- The state with the command that a word spells at the front of its queue; no word spells one. -/
def State.withFetchWord (s : State) (nbits w : Nat) : State :=
  match decodeTableWord nbits w with
  | some c => { s with pending := c :: s.pending }
  | none => s

end Sys2Proof.Machine
end

