-- ==== Sys2Proof/Safety.lean ====
section
/-!
DEFINITION. What counts as a safe run, in the terms that claims use: the canonical form of the register file and of memory, the
gate outputs that are commanded on, and what a command leaves unchanged.
-/

namespace Sys2Proof.Machine

/-- The register file is in its canonical form: addresses strictly rising, no entry equal to the reset value. -/
abbrev State.regsWf (s : State) : Prop := s.regs.Pairwise (fun x y => x.1 < y.1) ∧ ∀ e ∈ s.regs, e.2 ≠ regReset e.1

/-- Memory is in its canonical form: addresses strictly rising, no entry equal to what an unlisted address reads as. -/
abbrev Memory.wf (m : List Host.Cell) : Prop := m.Pairwise (fun x y => x.1 < y.1) ∧ ∀ e ∈ m, e.2 ≠ memReset e.1

/-- The invariant that every step keeps: both forms. -/
def State.Inv (s : State) : Prop := s.regsWf ∧ Memory.wf s.mem

/-- R351. No leg has both its gates commanded on. -/
def State.noShootThrough (s : State) : Prop := ∀ n < 12, ¬ (s.sideOn n true = true ∧ s.sideOn n false = true)

/-- R509, R518, R525. A register write of a master is taken: a host write passes the host gate. -/
def taken (m : Master) (s : State) : Prop := m = .host → s.hostWriteOk = true

/-- R522. The same at the registers that ROM loader mode serves too. -/
def loaderTaken (m : Master) (s : State) : Prop := m = .host → s.loaderWriteOk = true

/-- R123, R124, R137. An instruction `i` of `len` bytes goes on an engine: a slot runs within its budget and an issue is due, the
bytes at the PC are in reach and are this instruction, and its operands are available. -/
def State.goes (s : State) (e : Fin 16) (i : Ins) (len : Nat) : Prop :=
  s.overBudget e.val = false ∧ s.engDue e.val = true ∧ s.engFetch e.val = .ins i len ∧ s.fetchMiss e.val len = none ∧
    s.operandsAt e.val i ≤ s.issueAt e.val

/-- R467. The state in which an instruction acts: its bytes have been read through ECC. -/
def State.fetched (s : State) (e : Fin 16) (len : Nat) : State := s.eccRead (engTarget e.val (s.ctx e.val).pc) len

/-- Every register reads as before, but for those at the named addresses. -/
def sameRegsBut (as : List Nat) (s t : State) : Prop := ∀ a, a ∉ as → t.rd a = s.rd a

/-- Every byte of memory reads as before, but for those from `a` to `a + n`. -/
def sameMemBut (a n : Nat) (s t : State) : Prop := ∀ x, x < a ∨ a + n ≤ x → t.memB x = s.memB x

/-- Every byte of memory reads as before. -/
def sameMem (s t : State) : Prop := ∀ x, t.memB x = s.memB x

/-- The frame of a command: every register but the named ones and every byte of memory read as before, and nothing leaves the
device. -/
def frame (as : List Nat) (s t : State) : Prop := sameRegsBut as s t ∧ sameMem s t ∧ t.out = s.out

end Sys2Proof.Machine
end

