-- ==== Sys2Proof/Certificates/Slice0/Obligations.lean ====
section
/-!
DEFINITION. The statements for the provers. Each cites the rules of spec/ it rests on.
-/

open Sys2Proof Sys2Proof.Machine

/-- For every command c, every rest of a queue and every state s, a step of s with c at the front of its queue is exec of c on s
with the queue's rest. -/
def Obligations.StepRunsFrontCommand : Prop :=
  ∀ (c : Instr) (rest : List Instr) (s : State),
    step { s with pending := c :: rest } = exec c { s with pending := rest }

/-- The spec's commands come from outside and from the device's own scheduled steps; that a step on an empty queue delivers what
is due, or else advances the tick, is the model's choice (log entry 1). For every state with an empty queue a step answers
the idle state. When the device works and something is due at the tick, the step answers the state in which it is delivered;
when no engine is over budget or at a WAITSLOT, no hoop has passed zero and Pricking dispatches nothing, that is the
scheduled steps that go now: they are queued in order and leave the agenda. When the H0 angle has passed zero, an armed page
swap is tried and control cycles that wait are started right after the ANGLE_ZERO that counts the turn. A device that is
off, shut down or halted only counts ticks. -/
def Obligations.IdleStepDelivers : Prop :=
  (∀ s : State, s.pending = [] → step s = .next s.idle) ∧
  (∀ s : State, s.pending = [] → s.alive = true → s.deliver.pending ≠ [] → step s = .next s.deliver) ∧
  (∀ s : State, s.pending = [] → s.alive = true → s.dueFirst = [] → s.dueZero = [] → s.prkDispatch = (s, []) → s.dueSteps ≠ [] →
    step s = .next { s with
      agenda := s.agenda.filter (fun e => decide (s.tick < e.1) || !s.goesNow e.2)
      pending := s.dueSteps }) ∧
  (∀ s : State, s.hoop.h0.crossed = true → s.dueZero = .angleZero ::
    ((if s.prk.swap.isSome then [.pageSwapEffect] else []) ++
      (if s.bit GLB_CTRL_RUN && !s.bit GLB_STATUS_CTRL_RUN then [.ctrlRunStart] else []))) ∧
  (∀ s : State, s.pending = [] → s.alive = false →
    step s = .next { s with tick := s.tick + 1 })

/-- Right after reset the register file and memory are in their canonical form, no command waits, no tick has passed, and every
register reads as its reset value, every byte of memory as 0 (the model's choice for power-on memory, log entry 4). -/
def Obligations.ResetHoldsCanonicalForm : Prop :=
  State.reset.Inv ∧ State.reset.pending = [] ∧ State.reset.tick = 0 ∧
  (∀ a, State.reset.rd a = regReset a) ∧ (∀ a, State.reset.memB a = 0#8)

/-- For every state whose register file and memory are in canonical form (addresses strictly rising, no entry equal to what an
unlisted address reads as), if a step answers a next state, that state's are too. This holds for every command and for the
idle step. The form is the model's own: it makes equal register files and equal memories equal data. -/
def Obligations.StepKeepsCanonicalForm : Prop :=
  ∀ s t : State, s.Inv → step s = .next t → t.Inv

/-- For every state in canonical form, what BAR4_WRITE, MEM_WRITE, MRAM_LINE_WRITTEN, LOG_RECORD_COMMIT, POSTED_STORE_ACCEPTED,
AGE_SAVE, SECURE_WIPE_DONE and CELLMAP_WRITE answer has its memory in canonical form. -/
def Obligations.MemoryCommandsKeepForm : Prop :=
  ∀ s : State, s.Inv →
    (∀ off data t, exec (.bar4Write off data) s = .next t → Memory.wf t.mem) ∧
    (∀ ring d a data t, exec (.memWrite ring d a data) s = .next t → Memory.wf t.mem) ∧
    (∀ t, exec .mramLineWritten s = .next t → Memory.wf t.mem) ∧
    (∀ t, exec .logRecordCommit s = .next t → Memory.wf t.mem) ∧
    (∀ e t, exec (.postedStoreAccepted e) s = .next t → Memory.wf t.mem) ∧
    (∀ t, exec .ageSave s = .next t → Memory.wf t.mem) ∧
    (∀ t, exec .secureWipeDone s = .next t → Memory.wf t.mem) ∧
    (∀ ring d idx entries t, exec (.cellmapWrite ring d idx entries) s = .next t → Memory.wf t.mem)

/-- FAULT_EVENT runs an event of a listed source through FLT at an edge of the fault clock, which schedules the events it raised
at the next edge, and between two edges leaves it to the next one; an unlisted source does nothing. A window close forgets
the window of its source. A condition end takes the instance off the live ones (at an edge of the fault clock, without such
an instance, it does nothing). The log drains its oldest record unless MRAM writes are halted or Thimble restarts. ERR_N
follows HOLD at the end of a minimum pulse. A write that is taken: HOLD asserts ERR_N, or releases it once no minimum pulse
runs; a keyed release clears FLT_SAFEHOLD unless a live condition requested a safe state; a bypass is released unless a live
condition bypasses its cell; an escalation clear ends the escalation, the window and its scheduled close; an injection is
refused while it is locked, for an unlisted source, or for a reaction on legs or stack while control cycles run, and is
otherwise an event of the source, whose condition, where it has one, ends at once or after its duration; an ECC injection is
stored unless its target is reserved or it is not allowed now; a keyed log clear empties the pinned page. -/
def Obligations.FaultCommandsComplete : Prop :=
  (∀ src inst detail s, exec (.faultEvent src inst detail) s =
    .next (let waits := s.flt.injWait.contains (src.val, inst.val)
      let t := if waits then { s with flt := { s.flt with injWait := s.flt.injWait.erase (src.val, inst.val) } } else s
      let e : Ev := { src := src.val, inst := inst.val, detail := detail.toNat, inj := waits }
      if fltListed src.val = false then t
      else if t.tick % 2 = 0 then forL (State.fltStep e t).2 (State.fltLater 2) (State.fltStep e t).1
      else State.fltLater 1 e t)) ∧
  (∀ src s, exec (.faultWindowClose src) s =
    .next { s with flt := { s.flt with windows := tput none s.flt.windows src.val none } }) ∧
  (∀ src inst s, exec (.faultConditionEnd src inst) s =
    .next (if src.val = 0x04 then (s.fltEnd src.val inst.val).haltUpdate else s.fltEnd src.val inst.val)) ∧
  (∀ src inst s, s.flt.live.all (fun x => !(x.src == src.val && x.inst == inst.val)) = true → src.val ≠ 0x04 → s.tick % 2 = 0 →
    exec (.faultConditionEnd src inst) s = .next s) ∧
  (∀ src inst s, exec (.injectConditionEnd src inst) s =
    .next (if s.flt.live.any (fun c => c.src == src.val && c.inst == inst.val && c.inj) then s.fltEnd src.val inst.val else s)) ∧
  (∀ s, s.flt.fifo = [] → exec .logRecordCommit s = .next s) ∧
  (∀ s r rest, s.flt.fifo = r :: rest →
    exec .logRecordCommit s =
      .next (if s.bit NVM_STATUS_HALT || s.bit SEC_STATUS_WIPING || s.bit SEC_STATUS_RESTART then s
        else (State.commitRec { s with flt := { s.flt with fifo := rest } } r).fifoAfter)) ∧
  (∀ s, s.selv.padHold = false → exec .errpinMinwExpire s =
    .next (State.setB { s with flt := { s.flt with minEnd := 0 } } FLT_STATUS_ERRPIN (s.bit FLT_ERRPIN_HOLD_HOLD))) ∧
  (∀ m hold s, taken m s → exec (.errpinHoldWrite m hold) s =
    .next (if hold then (s.setB FLT_ERRPIN_HOLD_HOLD true).setErrPin true
      else if s.tick < s.flt.minEnd then s.setB FLT_ERRPIN_HOLD_HOLD false
      else (s.setB FLT_ERRPIN_HOLD_HOLD false).setErrPin false)) ∧
  (∀ m key s, taken m s → exec (.fltReleaseSafe m key) s =
    .next (if key ≠ 0xF1E0#16 ∨ s.flt.live.any (fun c => bitOf c.react 4 || bitOf c.react 5 || bitOf c.react 6) then s.fltRefuse m
      else (s.wrN FLT_SAFEHOLD 0).setSelvLive 60 false)) ∧
  (∀ m k mask s, taken m s → s.flt.live.all (fun c => !bitOf c.react 3) = true →
    exec (.cellBypassRelease m k mask) s =
      .next (forL ((bitsIn 32 mask.toNat).filter (fun i => s.rbit (FLT_CBYP k.val) i)) (fun i t => t.setBit (FLT_CBYP k.val) i false) s)) ∧
  (∀ m k mask s, taken m s → exec (.escalationClear m k mask) s =
    .next (forL (bitsIn 32 mask.toNat) (fun i t =>
      ((t.setBit (FLT_ESC k.val) i false).closeWindow (32 * k.val + i)).unsched
        (fun c => match c with | .faultWindowClose x => x.val == 32 * k.val + i | _ => false)) s)) ∧
  (∀ m w s, taken m s → (s.bit FLT_LOCK_INJOFF = true ∨ fltListed (bitsOf w.toNat 0 8) = false) →
    exec (.faultInject m w) s = .next (s.fltRefuse m)) ∧
  (∀ m w s, taken m s → s.bit FLT_LOCK_INJOFF = false → fltListed (bitsOf w.toNat 0 8) = true →
    exec (.faultInject m w) s =
      .next (let src := bitsOf w.toNat 0 8
        let inst := bitsOf w.toNat 16 8
        let k := s.classify src
        if s.bit GLB_STATUS_CTRL_RUN && (k.cls == 2 || bitOf k.react 4 || bitOf k.react 5 || bitOf k.react 6 || bitOf k.react 7) then
          s.fltRefuse m
        else
          let t := State.raiseEv { src, inst, detail := 0, inj := true } s
          if fltIsCondition src then
            if bitsOf w.toNat 24 8 = 0 then t.fltEnd src inst
            else t.sched (us (10 * bitsOf w.toNat 24 8))
              (.injectConditionEnd ⟨src % 256, Nat.mod_lt _ (by decide)⟩ ⟨inst % 256, Nat.mod_lt _ (by decide)⟩)
          else t)) ∧
  (∀ m w s, taken m s → exec (.eccInjectArm m w) s =
    .next (if !eccTargetOk (bitsOf w.toNat 16 8) || (bitOf w.toNat 31 && decide (1 < (bitsIn 8 (bitsOf w.toNat 0 8)).length) &&
        (s.bit GLB_STATUS_CTRL_RUN || s.bit FLT_LOCK_INJOFF)) then s.fltRefuse m
      else s.wrN FLT_ECCINJ (putBits w.toNat 24 7 0))) ∧
  (∀ m w s, taken m s → exec (.logClear m w) s =
    .next (if bitsOf w.toNat 16 16 ≠ 0xF1E0 then s.fltRefuse m
      else if bitOf w.toNat 0 then s.setF FLT_LOGSTAT_PINCNT 0 else s))

/-- For every source below 256, every class and every state, the mark of an event leaves the source's bit in FLT_CAUSEk set,
counts the event in FLT_SCNTn as R41 counts, sets FLT_STATUS.FATAL exactly when the class is F or it was set, leaves every
other bit of FLT_CAUSEk and every other register as it was, and leaves memory, the agenda and what has left the device
alone. -/
def Obligations.EventMarkSetsCauseAndCounts : Prop :=
  ∀ (s : State) (src cls : Nat), src < 256 →
    (s.fltMark src cls).srcBit FLT_CAUSE src = true ∧
    (s.fltMark src cls).rd (FLT_SCNT src) = (s.count (FLT_SCNT src)).rd (FLT_SCNT src) ∧
    (s.fltMark src cls).bit FLT_STATUS_FATAL = (s.bit FLT_STATUS_FATAL || cls == 2) ∧
    (∀ i, i < 32 → i ≠ src % 32 → (s.fltMark src cls).rbit (FLT_CAUSE (src / 32)) i = s.rbit (FLT_CAUSE (src / 32)) i) ∧
    (∀ a, a ≠ FLT_SCNT src → a ≠ FLT_CAUSE (src / 32) → a ≠ FLT_STATUS → (s.fltMark src cls).rd a = s.rd a) ∧
    (s.fltMark src cls).mem = s.mem ∧ (s.fltMark src cls).agenda = s.agenda ∧ (s.fltMark src cls).out = s.out

/-- Each of these commands answers the next state that the rules give, for every state and operands (a register write: when it
is taken; EN set: outside Quiet). EN set arms an OFF leg, or is refused as ENREF for a latched leg and in ROLE 2 and 3; EN
cleared takes an ARMED leg OFF and stops a running one, at once or at the end of its dead time; PWM_GSTART starts the ARMED
legs of its mask; a commit marks the pair pending; a period boundary and an ideal transition act on a leg in RUN; the end of
a dead time ends STOPPING or lets the waiting side turn on; a gate-off acknowledge, its timer, the supply input, the supply
check, the refresh pulse and the end of DSAT blanking act as R350 to R355 say. -/
def Obligations.PwmLegCommandsComplete : Prop :=
  (∀ m n s, taken m s → s.awake = true → exec (.pwmLegEnable m n) s =
    .next (if s.rbit SELV_STATUS n.val ∨ 2 ≤ s.fld GLB_STATUS_ROLE then s.evtLeg PWM_EVT_ENREF n.val
      else
        let s := s.setB (PWM_CTRL_EN n.val) true
        if s.fld (PWM_STATUS_STATE n.val) = legOff then s.setF (PWM_STATUS_STATE n.val) legArmed else s)) ∧
  (∀ m n s, taken m s → exec (.pwmLegDisable m n) s =
    .next (let st := s.fld (PWM_STATUS_STATE n.val)
      let s := s.setB (PWM_CTRL_EN n.val) false
      if st = legArmed then s.setF (PWM_STATUS_STATE n.val) legOff
      else if st = legRun then
        let s := (s.setF (PWM_STATUS_STATE n.val) legStopping).legHalt n.val
        if s.bit (PWM_STATUS_DTRUN n.val) then s else s.stopEnd n.val
      else s)) ∧
  (∀ m mask s, taken m s → exec (.pwmGstart m mask) s =
    .next (forL (bitsIn 12 mask.toNat) (fun n t => t.startLeg n) s)) ∧
  (∀ m n s, taken m s → exec (.pwmCtrlCommit m n) s =
    .next (s.setB (PWM_STATUS_PEND n.val) true)) ∧
  (∀ legs s, exec (.pwmCommit legs) s =
    .next (if s.standby then s else forL (bitsIn 12 legs.toNat) (fun n t => t.commitPair n) s)) ∧
  (∀ n s, exec (.pwmPeriodBoundary n) s =
    .next (if s.fld (PWM_STATUS_STATE n.val) = legRun then
        let first := (s.leg n.val).starting
        let b := if first then (s.leg n.val).begin else (s.leg n.val).begin + placeSix (s.perSix n.val) (s.fld (PWM_STATUS_DPH n.val))
        let s := s.unsched (isPeriod n.val)
        let s := if first then s
          else (s.incr (PWM_PCNT n.val)).setF (PWM_STATUS_DPH n.val) ((s.fld (PWM_STATUS_DPH n.val) + 1) % 16)
        let s := s.updLeg n.val (fun l => { l with begin := b, starting := false })
        let s := if s.bit (PWM_STATUS_PEND n.val) then (if s.tagsEqual n.val then s.loadPair n.val else s.splitPair n.val) else s
        let refresh := s.picotDue n.val
        let s := if refresh then s.picotInsert n.val b else s
        s.planPeriod n.val b refresh
      else s)) ∧
  (∀ n high s, exec (.pwmTransition n high) s =
    .next (if s.fld (PWM_STATUS_STATE n.val) = legRun then s.transition n.val high (s.transitionTime n.val high) else s)) ∧
  (∀ n s, exec (.deadTimeEnd n) s =
    .next (if s.bit (PWM_STATUS_DTRUN n.val) then
        let s := s.setB (PWM_STATUS_DTRUN n.val) false
        if s.fld (PWM_STATUS_STATE n.val) = legStopping then s.stopEnd n.val else s.turnOnAt n.val (s.leg n.val).dtEnd
      else s)) ∧
  (∀ n high level s, exec (.gateAckInput n high level) s =
    .next (let s := s.setBit PWM_FBSTAT (if high then n.val else 12 + n.val) level
      if level then (((s.unsched (isAckTimeout n.val high)).turnOnStep n.val).ackLiveUpdate n.val)
      else if s.bit (PWM_CFG_HSK n.val) && !s.sideOn n.val high then s.startAck n.val high
      else s)) ∧
  (∀ n high s, exec (.ackTimeout n high) s =
    .next (if s.bit (PWM_CFG_HSK n.val) && !s.sideOn n.val high && !s.gateFb n.val high then
        (s.setSelvLive (36 + n.val) true).selvDecide (36 + n.val)
      else s)) ∧
  (∀ n asserted s, exec (.bsuvInput n asserted) s =
    .next (let s := s.updLeg n.val (fun l => { l with bsuv := asserted })
      if asserted then
        if s.bit (PWM_CFG_BOOT n.val) then
          if s.sideOn n.val true then s.updLeg n.val (fun l => { l with picotReq := true }) else s
        else (s.setSelvLive (48 + n.val) true).selvDecide (48 + n.val)
      else
        let s := s.setSelvLive (48 + n.val) false
        (s.updLeg n.val (fun l => { l with supplyWait := false })).turnOnStep n.val)) ∧
  (∀ n s, exec (.picotSupplyCheck n) s =
    .next (if (s.leg n.val).supplyWait && (s.leg n.val).bsuv then
        let s := s.updLeg n.val (fun l => { l with supplyWait := false, want := .none })
        ((s.setB (PWM_STATUS_PICOT n.val) false).setSelvLive (48 + n.val) true).selvDecide (48 + n.val)
      else s)) ∧
  (∀ n s, exec (.picotPulseEnd n) s =
    .next (if s.bit (PWM_STATUS_PICOT n.val) && s.sideOn n.val false then
        let s := s.turnOff n.val false (s.tick * 8 + (s.leg n.val).onSub)
        let hold := (s.leg n.val).bsuv
        let s := s.updLeg n.val (fun l => { l with want := .high, supplyWait := hold })
        let s := if hold then s.sched 100 (.picotSupplyCheck (legIx n.val)) else s
        s.turnOnStep n.val
      else s)) ∧
  (∀ n s, exec (.dsatBlankEnd n) s =
    .next (let s := s.updLeg n.val (fun l => { l with blank := false })
      if s.selv.pins.getLsbD (12 + n.val) then
        (s.unsched (isSelvDecision (12 + n.val))).sched (s.fld (SELV_LCFG_DSATFILT n.val) * 10)
          (.selvageDecision ⟨(12 + n.val) % 64, Nat.mod_lt _ (by decide)⟩)
      else s))

/-- A decision makes its source live and latches it if it is enabled and not blanked; a filtered input sets or clears the live
bit; SELV_FORCE with the key is a decision of source 61 for the latches it names, with another key CFGREF; SELV_CLR with the
key releases the latches that no live source holds and counts and reports a refusal; BRK_TRIP_N follows the BRK latch when
its minimum time is over. -/
def Obligations.SelvageCommandsComplete : Prop :=
  (∀ src s, exec (.selvageDecision src) s =
    .next (if src.val = 63 ∨ src.val = 61 then s
      else if src.val = 60 then (if s.rdN FLT_SAFEHOLD = 0 then s else s.selvDecide 60)
      else
        let s := s.setSelvLive src.val true
        if 12 ≤ src.val ∧ src.val < 24 ∧ (s.leg (src.val - 12)).blank then s else s.selvDecide src.val)) ∧
  (∀ src level s, exec (.selvageInputChange src level) s =
    .next (if 48 ≤ src.val then s.bsuvInput (src.val - 48) level
      else if src.val < 4 ∨ (12 ≤ src.val ∧ src.val < 36) then
        let s := s.updSelv (fun v => { v with pins := if level then v.pins ||| BitVec.twoPow 64 src.val else v.pins &&& ~~~ BitVec.twoPow 64 src.val })
        if level then s.pinAssert src.val else (s.unsched (isSelvDecision src.val)).setSelvLive src.val false
      else s)) ∧
  (∀ m w s, taken m s → exec (.selvForce m w) s =
    .next (if bitsOf w.toNat 16 16 ≠ 0xC1EA then s.selvCfgRef
      else
        let legs := bitsOf w.toNat 0 12
        let stack := bitOf w.toNat 12
        let brk := bitOf w.toNat 13
        if legs = 0 ∧ !stack ∧ !brk then s else s.selvTrip 61 legs stack brk)) ∧
  (∀ m w s, taken m s → exec (.selvClr m w) s =
    .next (if s.selv.padHold then s
      else if bitsOf w.toNat 16 16 ≠ 0xC1EA then s.selvCfgRef
      else
        let want := (upto 14).filter (fun i => bitOf w.toNat i && s.rbit SELV_STATUS i)
        let held := want.filter s.selvHeld
        let s := (forL (want.filter (fun i => !held.contains i)) (fun i t => t.selvRelease i) s).updSafe
        if held.isEmpty then s else (s.count SELV_CLR_REFUSED).evt SELV_EVT_CLRREF 0xB4 0xFF)) ∧
  (∀ s, exec .brkMinExpire s =
    .next ((s.updSelv (fun v => { v with brkEnd := 0 })).setB SELV_STATUS_BRKPIN (s.bit SELV_STATUS_BRK)))

/-- A write that is taken: H0EN or H0DC set or cleared acts as a write of HOOP_CTRL, and is refused as CFGREF when it would
change H0EN while control cycles run; HOOP_H0NOM is clamped to 1,000 to 20,000, gives the frequency at once in FREE, and is
refused while cycles run with H0DC; PRIRET returns the loop to its primary source while that is usable; a write of H1's
angle sets it while H1 is stopped and is refused otherwise. The loop updates act on the measured phasors when the run of
their sequence has ended. Angle zero counts the turns that the angles have passed. -/
def Obligations.HoopCommandsComplete : Prop :=
  (∀ m s, taken m s → exec (.h0Enable m) s = .next (s.hoopCtrl (putBit (s.rdN HOOP_CTRL) 0 true))) ∧
  (∀ m s, taken m s → s.bit GLB_STATUS_CTRL_RUN = true → bitOf (putBit (s.rdN HOOP_CTRL) 0 true) 0 ≠ s.bit HOOP_CTRL_H0EN →
    exec (.h0Enable m) s = .next (s.evtHoop HOOP_EVT_CFGREF)) ∧
  (∀ m s, taken m s → exec (.h0Disable m) s = .next (s.hoopCtrl (putBit (s.rdN HOOP_CTRL) 0 false))) ∧
  (∀ m s, taken m s → s.bit GLB_STATUS_CTRL_RUN = true → bitOf (putBit (s.rdN HOOP_CTRL) 0 false) 0 ≠ s.bit HOOP_CTRL_H0EN →
    exec (.h0Disable m) s = .next (s.evtHoop HOOP_EVT_CFGREF)) ∧
  (∀ m s, taken m s → exec (.h0DcSet m) s =
    .next (s.hoopCtrl (putBit (s.rdN HOOP_CTRL) 1 true))) ∧
  (∀ m s, taken m s → exec (.h0DcClear m) s =
    .next (s.hoopCtrl (putBit (s.rdN HOOP_CTRL) 1 false))) ∧
  (∀ m nom s, taken m s → exec (.h0nomWrite m nom) s =
    .next (if s.bit GLB_STATUS_CTRL_RUN && s.bit HOOP_CTRL_H0DC then s.evtHoop HOOP_EVT_CFGREF
      else
        let s := s.setF HOOP_H0NOM_NOM (clampNat 1000 20000 nom.toNat)
        if s.h0State = h0Free then s.updH0 (fun l => { l with step := stepOf (s.fld HOOP_H0NOM_NOM) }) else s)) ∧
  (∀ m s, taken m s → exec (.primaryReturn m) s =
    .next (if s.bit HOOP_STATUS_PRIOK then (s.setB HOOP_STATUS_H0SRC false).h0Resume else s)) ∧
  (∀ angle pos neg s, exec (.h0PrimaryUpdate angle pos neg) s =
    .next (if s.hoop.h0.runDone then
          let c := s.fld HOOP_H0SRC_CONV
          let flag := s.entryFlagged c (s.fld HOOP_H0SRC_ENT_L1) || s.entryFlagged c (s.fld HOOP_H0SRC_ENT_L2) ||
            s.entryFlagged c (s.fld HOOP_H0SRC_ENT_L3)
          let s := s.updH0 (fun l => { l with runDone := false })
          if s.followH0 then s.h0Measure angle.toNat pos.toNat neg.toNat flag else s.h0Primary angle.toNat pos.toNat neg.toNat flag
        else s)) ∧
  (∀ s, exec .angleZero s =
    .next (let s1 := if s.hoop.h1.crossed then (s.updH1 (fun l => { l with crossed := false })).incr HOOP_H1TURNS else s
      if s1.hoop.h0.crossed then ((s1.updH0 (fun l => { l with crossed := false })).incr HOOP_H0TURNS) else s1)) ∧
  (∀ angle pos neg s, exec (.h1TrackUpdate angle pos neg) s =
    .next (if s.hoop.h1.runDone then
          let c := s.fld HOOP_H1SRC_CONV
          let flag := s.entryFlagged c (s.fld HOOP_H1SRC_ENT_L1) || (!s.bit HOOP_H1SRC_SINGLE &&
            (s.entryFlagged c (s.fld HOOP_H1SRC_ENT_L2) || s.entryFlagged c (s.fld HOOP_H1SRC_ENT_L3)))
          (s.updH1 (fun l => { l with runDone := false })).h1Track angle.toNat pos.toNat neg.toNat flag
        else s)) ∧
  (∀ m v s, taken m s → exec (.h1AngleWrite m v) s =
    .next (if s.hoop.h1.step = 0 then (s.updH1 (fun l => { l with acc := v.toNat % 2 ^ 32 * 2 ^ 32, crossed := false })).prkH1Restart
      else s.evtHoop HOOP_EVT_H1ANGREF))

/-- A write that is taken: EN of PRK_CTRL starts and stops Pricking; an edit command executes at once in the page, its result is
shown when the command completes and BUSY is set, and while another executes it only sets LOST; a swap request gives its
status. A completed edit, not before its due time, shows STATUS and, of a read or a search, the index and the entry; a
ring's command that held the port completes with it. A swap takes effect at the zero it was requested for. The actions
GPIO_SET, GPIO_CLR (not in a standby unit), MARK, PAGE_SWAP, and a pass of the time-based walk while cycles do not run, act
as their rules say. -/
def Obligations.PrickingCommandsComplete : Prop :=
  (∀ s, exec .prickingPass s =
    .next (if s.bit PRK_CTRL_EN && !s.bit GLB_STATUS_CTRL_RUN then s.passTimer.prkPass passTicks else s)) ∧
  (∀ m s, taken m s → exec (.prkEnable m) s =
    .next (s.prkCtrl m (putBit (s.rdN PRK_CTRL) 0 true))) ∧
  (∀ m s, taken m s → exec (.prkDisable m) s =
    .next (s.prkCtrl m (putBit (s.rdN PRK_CTRL) 0 false))) ∧
  (∀ m page s, taken m s → exec (.prkEditRead m page) s =
    .next (if s.bit PRK_EDSTAT_BUSY then s.setB PRK_EDSTAT_LOST true
      else
        let r := s.prkRead page.val (s.fld PRK_EDIDX_IDX)
        r.st.portHold r.status r.idx r.data r.ticks)) ∧
  (∀ m page s, taken m s → exec (.prkEditWrite m page) s =
    .next (if s.bit PRK_EDSTAT_BUSY then s.setB PRK_EDSTAT_LOST true
      else
        let r := s.prkWrite page.val (s.fld PRK_EDIDX_IDX) s.edData
        r.st.portHold r.status r.idx r.data r.ticks)) ∧
  (∀ m page s, taken m s → exec (.prkEditInsert m page) s =
    .next (if s.bit PRK_EDSTAT_BUSY then s.setB PRK_EDSTAT_LOST true
      else
        let r := s.prkInsert page.val s.edData
        r.st.portHold r.status r.idx r.data r.ticks)) ∧
  (∀ m page s, taken m s → exec (.prkEditDelete m page) s =
    .next (if s.bit PRK_EDSTAT_BUSY then s.setB PRK_EDSTAT_LOST true
      else
        let r := s.prkDelete page.val (s.fld PRK_EDIDX_IDX)
        r.st.portHold r.status r.idx r.data r.ticks)) ∧
  (∀ m page s, taken m s → exec (.prkEditClear m page) s =
    .next (if s.bit PRK_EDSTAT_BUSY then s.setB PRK_EDSTAT_LOST true
      else
        let r := s.prkClear page.val
        r.st.portHold r.status r.idx r.data r.ticks)) ∧
  (∀ m page s, taken m s → exec (.prkEditCommit m page) s =
    .next (if s.bit PRK_EDSTAT_BUSY then s.setB PRK_EDSTAT_LOST true
      else
        let r := s.prkCommit page.val
        r.st.portHold r.status r.idx r.data r.ticks)) ∧
  (∀ s, exec .prkEditComplete s =
    .next (match s.prk.edit with
      | none => s
      | some d =>
        if s.tick < d.due then s else
        let s := ((s.updPrk (fun k => { k with edit := none })).setB PRK_EDSTAT_BUSY false).setF PRK_EDSTAT_STATUS d.status
        let s := s.portDone
        let s := match d.idx with
          | some i => s.setF PRK_EDIDX_IDX i
          | none => s
        match d.data with
        | some e => forN 4 (fun k t => t.wrN (PRK_EDDATA k) (bitsOf e.toNat (32 * k) 32)) s
        | none => s)) ∧
  (∀ m page s, taken m s → exec (.prkSwapRequest m page) s =
    .next ((s.swapRequest page.val).1.setF PRK_EDSTAT_STATUS (s.swapRequest page.val).2)) ∧
  (∀ s, exec .pageSwapEffect s =
    .next (match s.prk.swap with
      | none => s
      | some (p, z) =>
        if s.rdN HOOP_H0TURNS = z then
          let s := (s.setF PRK_STATUS_ACTIVE p).incr PRK_SWAPCNT
          (s.updSwap none).swapCmdEnd prkOk (s.rdN PRK_SWAPCNT)
        else s)) ∧
  (∀ page s, exec (.pageSwap page) s =
    .next ((s.swapRequest page.val).1.setF PRK_EDSTAT_STATUS (s.swapRequest page.val).2)) ∧
  (∀ pin s, exec (.gpioSet pin) s =
    .next (if s.standby then s else s.setGpio pin.val true)) ∧
  (∀ pin s, exec (.gpioClr pin) s =
    .next (if s.standby then s else s.setGpio pin.val false)) ∧
  (∀ page idx tag s, exec (.mark page idx tag) s =
    .next (s.ringPut 18 (s.markRecord page.val idx.toNat tag.toNat)))

/-- A read of NTM_TIME_NS that is served answers the nanoseconds and captures NTM_TIME_SECL, NTM_TIME_SECH and NTM_TIME_FRAC of
that tick for the master, one of NTM_PPSIN_NS the captured nanoseconds with NTM_PPSIN_SECL; a host read that is not served
answers ones and captures nothing. A write that is taken: NTM_INC is clamped to 1.5 to 2.5 ns and taken, in HOLDOVER it is
HOLDWR; a correction, limited to 999,999,999 ns either way, is with MODE 0 a step at the next tick and with MODE 1 added to
the slew remainder, in HOLDOVER it is HOLDWR; SET acts in FREE and ACQUIRE and is CFGREF otherwise; the commands FREE,
ACQUIRE, LOCK and HOLD change the state where the table of R99 lists them, LOCK without a master being LOCKREF; a write of
the master's identity or port changes the master, one of NTM_CTRL takes its effect. The slew ends when nothing remains; a
master absent for NTM_MTMO in LOCKED gives HOLDOVER with MASTERLOSS; the holdover update repeats each millisecond; a due
1PPS_OUT pulse rises at its sub-tick and falls after WIDTH; the selected edge of 1PPS_IN, no closer than 500 ms to the last,
is captured with its quarter of a nanosecond; the 10 MHz measurement, loss and detection show in NTM_REF10ERR, GLB_CLKSTAT
and NTM_STATUS; the due alarm disarms, sets ALARM and may wake the unit. -/
def Obligations.NtmCommandsComplete : Prop :=
  (∀ m s, (m = .host → s.readServed NTM_TIME_NS = true) → exec (.ntmTimeNsRead m false) s =
    .next ((((s.capture m NTM_TIME_SECL (s.ntm.sec % 2 ^ 32)).capture m NTM_TIME_SECH (s.ntm.sec / 2 ^ 32 % 65536)).capture m
      NTM_TIME_FRAC s.ntm.frac).setRdata (s.ntm.ns % 2 ^ 32))) ∧
  (∀ m s, (m = .host → s.readServed NTM_PPSIN_NS = true) → exec (.ntmTimeNsRead m true) s =
    .next ((s.capture m NTM_PPSIN_SECL (s.rdN NTM_PPSIN_SECL)).setRdata (s.rdN NTM_PPSIN_NS))) ∧
  (∀ pps s, s.readServed (if pps then NTM_PPSIN_NS else NTM_TIME_NS) = false → exec (.ntmTimeNsRead .host pps) s =
    .next (s.setRdata 0xFFFFFFFF)) ∧
  (∀ m lo s, taken m s → exec (.ntmIncWrite m lo) s =
    .next (let hi := bitsOf (s.heldN m NTM_INC_HI) 0 2
      let s := s.unhold m NTM_INC_HI
      if s.ntmState = ntmHoldover then s.evtNtm NTM_EVT_HOLDWR
      else
        let v := clampNat 0x180000000 0x280000000 (hi * 2 ^ 32 + lo.toNat % 2 ^ 32)
        (s.wrN NTM_INC_HI (v / 2 ^ 32)).wrN NTM_INC_LO (v % 2 ^ 32))) ∧
  (∀ m v s, taken m s → s.bit NTM_ADJCTL_MODE = false → s.ntmState ≠ ntmHoldover → exec (.ntmAdjStep m v) s =
    .next (s.updNtm (fun n => { n with ops := n.ops ++ [.step (clampInt (-999999999) 999999999 (toSigned 32 v.toNat))] }))) ∧
  (∀ m v s, taken m s → s.bit NTM_ADJCTL_MODE = false → s.ntmState = ntmHoldover → exec (.ntmAdjStep m v) s =
    .next (s.evtNtm NTM_EVT_HOLDWR)) ∧
  (∀ m v s, taken m s → s.bit NTM_ADJCTL_MODE = true → s.ntmState ≠ ntmHoldover → exec (.ntmAdjSlew m v) s =
    .next (let lim : Int := 999999999 * 2 ^ 32
      let s1 := s.updNtm (fun n => { n with
        rem := clampInt (-lim) lim (n.rem + clampInt (-999999999) 999999999 (toSigned 32 v.toNat) * 2 ^ 32) })
      s1.setB NTM_STATUS_SLEWING (s1.ntm.rem != 0))) ∧
  (∀ m v s, taken m s → s.bit NTM_ADJCTL_MODE = true → s.ntmState = ntmHoldover → exec (.ntmAdjSlew m v) s =
    .next (s.evtNtm NTM_EVT_HOLDWR)) ∧
  (∀ s, exec .ntmSlewComplete s =
    .next (if s.ntm.rem = 0 then s.setB NTM_STATUS_SLEWING false else s)) ∧
  (∀ m s, taken m s → exec (.ntmSet m) s =
    .next (if s.ntmState = ntmFree ∨ s.ntmState = ntmAcquire then
        let sec := bitsOf (s.rdN NTM_SETSEC_HI) 0 16 * 2 ^ 32 + s.rdN NTM_SETSEC_LO
        (s.updNtm (fun n => { n with rem := 0, ops := n.ops ++ [.set sec (s.rdN NTM_SETNS)] })).setB NTM_STATUS_SLEWING false
      else s.evtNtm NTM_EVT_CFGREF)) ∧
  (∀ m s, taken m s → exec (.ntmCmdFree m) s = .next (if s.ntmState = ntmFree then s else s.ntmEnter ntmFree)) ∧
  (∀ m s, taken m s → exec (.ntmCmdAcquire m) s =
    .next (if s.ntmState = ntmFree ∨ s.ntmState = ntmHoldover then s.ntmEnter ntmAcquire else s)) ∧
  (∀ m s, taken m s → exec (.ntmCmdLock m) s =
    .next (if s.ntmState = ntmAcquire then
        (if s.masterPresent then (s.ntmEnter ntmLocked).masterArm else s.evtNtm NTM_EVT_LOCKREF)
      else s)) ∧
  (∀ m s, taken m s → exec (.ntmCmdHold m) s = .next (if s.ntmState = ntmLocked then s.ntmHold s.tick else s)) ∧
  (∀ s, exec .ntmMasterTimeout s =
    .next (if s.ntmState = ntmLocked ∧ s.masterPresent = false ∧ s.masterDue ≤ s.tick then
          (s.ntmHold s.lastSign).evtNtm NTM_EVT_MASTERLOSS
        else s)) ∧
  (∀ m v s, taken m s → exec (.ntmMasteridWrite m 0 v) s =
    .next ((((s.wrN NTM_MASTERID_HI (s.heldN m NTM_MASTERID_HI)).unhold m NTM_MASTERID_HI).wrN NTM_MASTERID_LO v.toNat).masterChange s.lastSign)) ∧
  (∀ m v s, taken m s → exec (.ntmMasteridWrite m 1 v) s =
    .next ((s.wrN NTM_MASTERPORT (v.toNat % 2 ^ 17)).masterChange s.lastSign)) ∧
  (∀ m v s, taken m s → exec (.ntmMasteridWrite m 2 v) s = .next (s.ntmCtrl v.toNat)) ∧
  (∀ s, exec .ntmHoldUpdate s =
    .next (if s.ntmState = ntmHoldover then
          (s.holdUpdate.unsched (· == .ntmHoldUpdate)).sched (ms 1) .ntmHoldUpdate
        else s)) ∧
  (∀ s, exec .ppsOutPulse s =
    .next (if s.ntm.ppsDue then
          (((s.updNtm (fun n => { n with ppsDue := false, ppsOut := true })).emit (.ppsRise s.ntm.ppsSub)).unsched
            (· == .ppsOutPulseEnd)).sched (us (10 * s.fld NTM_PPSCFG_WIDTH)) .ppsOutPulseEnd
        else s)) ∧
  (∀ s, exec .ppsOutPulseEnd s =
    .next ({ s with ntm := (fun n => { n with ppsOut := false }) s.ntm })) ∧
  (∀ falling quarter s, exec (.ppsInEdge falling quarter) s =
    .next (let close := match s.ntm.lastEdge with
        | some t => decide (s.tick < t + ms 500)
        | none => false
      if falling != s.bit NTM_PPSCFG_INEDGE || close then s
      else
        let n := s.ntm.setExact ((s.ntm.exact + quarter.val * 2 ^ 30 : Nat) : Int)
        let s := (s.wrN NTM_PPSIN_NS (n.frac / 2 ^ 30 * 2 ^ 30 + n.ns)).wrN NTM_PPSIN_SECL n.sec
        (s.updNtm (fun x => { x with lastEdge := some s.tick, ppsIn := some s.tick, edgeGen := s.rdN NTM_STEPCNT % 16 })).masterSign)) ∧
  (∀ err s, exec (.ref10Measure err) s =
    .next (let s := s.holdInteg
        if s.bit NTM_STATUS_REF10 then s.wr NTM_REF10ERR err else s.wrN NTM_REF10ERR 0x80000000)) ∧
  (∀ s, exec .ref10mLoss s =
    .next (if s.bit GLB_CLKSTAT_REF10M then
          let s := s.holdInteg
          (((s.setB GLB_CLKSTAT_REF10M false).setB GLB_CLKSTAT_REF10MLOSS true).setB NTM_STATUS_REF10 false).wrN NTM_REF10ERR 0x80000000
        else s)) ∧
  (∀ s, exec .ref10mDetect s =
    .next ((s.setB GLB_CLKSTAT_REF10M true).setB NTM_STATUS_REF10 true)) ∧
  (∀ s, exec .ntmAlarm s =
    .next (if s.alarmDue then
          let s := (s.setB NTM_ALARM_SECH_ARM false).evtNtm NTM_EVT_ALARM
          if s.bit BST_QCFG_ALARMEN then s.wakeEvent 2 else s
        else s))

/-- A received frame does nothing while its port is disabled or looped back; one with a wrong FCS is only counted; else it is
received. A frame is sent from its ring only while the ring is live, has one and the port is enabled. PRP entries that were
not used for the forget time leave the table. A link change sets SIGDET and REMFLT; what the PCS sees is taken while the
port is enabled, and ANDONE (auto-negotiation is done) and LINK (in SGMII only at 1000 Mb/s) follow. -/
def Obligations.EthernetCommandsComplete : Prop :=
  (∀ port frame fcsOk s, exec (.ethRxFrame port frame fcsOk) s =
    .next (if !s.bit (ETH_CTRL_EN port.val) || s.bit (ETH_CTRL_LOOP port.val) then s
        else if fcsOk then s.ethRx port.val frame else s.count (ETH_CRCERR port.val))) ∧
  (∀ port d frame returned s, exec (.ethTxFrame port d frame returned) s =
    .next (if s.ringLive (20 + port.val) && !s.ringFull (20 + port.val) && s.bit (ETH_CTRL_EN port.val) then
          s.ethTx port.val d frame returned
        else s)) ∧
  (∀ s, exec .prpEntryExpire s =
    .next (let d := ms (s.fld (ETH_PRPCFG_FORGET 0))
      let s := (s.updEth (fun x => { x with prp := x.prp.filter (fun e => decide (s.tick < e.used + d)) })).unsched (· == .prpEntryExpire)
      if s.eth.prp.isEmpty then s else s.schedAt (prpOldest s.eth.prp + d) .prpEntryExpire)) ∧
  (∀ port sigdet sync an remFlt s, exec (.ethLinkChange port sigdet sync an remFlt) s =
    .next (let p := port.val
        let s := (s.setB (ETH_STATUS_SIGDET p) sigdet).setB (ETH_STATUS_REMFLT p) remFlt
        (if s.bit (ETH_CTRL_EN p) then s.setPcs p ⟨sync, an.isSome, an == some true⟩ else s).ethLink p))

/-- A wake sets its slots of its engines (an action: not in a standby unit). A dispatch gives the engine to its first ready
slot, and takes it from a slot of lower priority. A budget overrun ends the run with cause 1. A slot's EN is written in
BOB_SCFG. EN of an engine: set again it changes nothing, before its bank is loaded it is refused, else the engine runs, its
cycle and instruction counters begin at 0 and its enabled slots are enabled; cleared, the slots are disabled and the engine
stops, at once or when its run has ended. A kick counts for the engine; the watchdog check repeats while its period is not 0
and Thimble runs. The heartbeat counts each millisecond. A lockstep mismatch and a watchdog expiry set their reason and
raise their source. Phases of Stitch are enabled and disabled by mask; a completed computation of Stitch is taken while
STCH_STATUS.BUSY is 1. -/
def Obligations.SlotCommandsComplete : Prop :=
  (∀ engines arg s, exec (.taskWake engines arg) s =
    .next (if s.standby then s
        else forL (bitsIn 16 engines.toNat) (fun e t => t.wake e (arg.toNat % 8) (wakeWord arg.toNat 0)) s)) ∧
  (∀ m e w s, taken m s → exec (.bobWakeWrite m e w) s =
    .next (let src := if m = .host then 3 else 2
      forL (bitsIn 8 (w.toNat % 256)) (fun k t => t.wake e.val k (wakeWord (w.toNat / 256 * 256) src)) s)) ∧
  (∀ e s, exec (.slotDispatch e) s =
    .next (if s.bit (BOB_STATUS_HELD e.val) then s
      else
        match s.readySlot e.val with
        | none => s
        | some k =>
          if s.bit (BOB_STATUS_BUSY e.val) then
            let cur := s.fld (BOB_STATUS_CURSLOT e.val)
            if k < cur then
              (((s.bookRun e.val (s.engCycle e.val)).setSlotState e.val cur slReady).updSlot e.val cur (fun c => { c with mode := 2 })).eccMeet 8 e.val
                |>.switchTo e.val k
            else s
          else s.switchTo e.val k)) ∧
  (∀ e s, exec (.slotBudgetOverrun e) s =
    .next (if s.overBudget e.val then s.slotAbort e.val 1 0 (s.slot e.val (s.fld (BOB_STATUS_CURSLOT e.val))).pc (s.overAt e.val) else s)) ∧
  (∀ m e slot s, taken m s → exec (.slotEnable m e slot) s =
    .next (s.slotCfg e.val slot.val (putBit (s.rdN (BOB_SCFG e.val slot.val)) 31 true))) ∧
  (∀ m e slot s, taken m s → exec (.slotDisable m e slot) s =
    .next (s.slotCfg e.val slot.val (putBit (s.rdN (BOB_SCFG e.val slot.val)) 31 false))) ∧
  (∀ m e s, taken m s → s.awake = true → s.bit (BOB_CTRL_EN e.val) = true → exec (.engineEnable m e) s = .next s) ∧
  (∀ m e s, taken m s → s.awake = true → s.bit (BOB_CTRL_EN e.val) = false → s.bit (BOB_STATUS_LOADED e.val) = false →
    exec (.engineEnable m e) s = .next (s.refuse m (BOB_CTRL e.val))) ∧
  (∀ m e s, taken m s → s.awake = true → s.bit (BOB_CTRL_EN e.val) = false → s.bit (BOB_STATUS_LOADED e.val) = true →
    exec (.engineEnable m e) s =
      .next (let t := ((s.setB (BOB_CTRL_EN e.val) true).setB (BOB_STATUS_RUNNING e.val) true).setB (BOB_STATUS_STOPPING e.val) false
        forN 8 (fun k t => if t.bit (BOB_SCFG_EN e.val k) then t.slotOn e.val k else t)
          (t.updEng e.val (fun g => { g with enTick := some t.tick, instret := 0 })))) ∧
  (∀ m e s, taken m s → s.bit (BOB_CTRL_EN e.val) = false → exec (.engineDisable m e) s = .next s) ∧
  (∀ m e s, taken m s → s.bit (BOB_CTRL_EN e.val) = true → exec (.engineDisable m e) s =
    .next (let t := forN 8 (fun k t => t.slotOff e.val k) (s.setB (BOB_CTRL_EN e.val) false)
      if t.bit (BOB_STATUS_BUSY e.val) then t.setB (BOB_STATUS_STOPPING e.val) true else t.setB (BOB_STATUS_RUNNING e.val) false)) ∧
  (∀ m e s, taken m s → exec (.bobWdkick m e) s =
    .next (s.updThb (fun t => { t with kicks := t.kicks ||| BitVec.twoPow 16 e.val }))) ∧
  (∀ s, exec .bobbinWatchdogCheck s =
    .next (if s.fld THB_BWDCFG_PERIOD = 0 then s
        else if s.bit SEC_STATUS_WIPING || s.bit SEC_STATUS_RESTART then s.bobTimer else s.bobCheck.bobTimer)) ∧
  (∀ s, exec .thimbleHeartbeat s =
    .next (if s.bit THB_STATUS_FWRUN then
          (s.incr THB_HEART).timer (ms 1) .thimbleHeartbeat else s)) ∧
  (∀ s, exec .lockstepMismatch s =
    .next (let n := s.rdN THB_LSMIS
        ((s.wrN THB_LSMIS (min 255 (n + 1))).setB THB_RSTINFO_LOCKSTEP true).raise 0x02 0xFF)) ∧
  (∀ s, exec .thimbleWatchdogExpiry s =
    .next ((s.setB THB_RSTINFO_WDEXP true).raise 0x03 0xFF)) ∧
  (∀ s, exec .stitchComputeDone s =
    .next (if s.bit STCH_STATUS_BUSY then s.stitchDone else s)) ∧
  (∀ m mask s, taken m s → exec (.stitchPhaseEnable m mask) s =
    .next (s.stitchCtrl (s.rdN STCH_CTRL ||| mask.toNat))) ∧
  (∀ m mask s, taken m s → exec (.stitchPhaseDisable m mask) s =
    .next (s.stitchCtrl (s.rdN STCH_CTRL &&& (mask.toNat ^^^ 0xFFFFFFFF))))

/-- When the instruction goes (a slot runs within its budget, the issue is due, its bytes are in reach, its operands are
available), it acts in the state in which its bytes have been read. A base instruction retires with the value, latency and
next PC of its kind. A load whose target answers and that no posted store holds back writes the value of its kind; a store,
plain or through a bit alias, that its target permits and that finds room enters the write buffer. FENCE retires when the
write buffer is empty, FENCE.I also empties the fetch buffer. WFI waits as WAITSLOT with x0. ECALL and EBREAK end the run
with causes 5 and 6. A CSR instruction reads and writes the CSR. What cannot be fetched or is no legal instruction ends the
run with its cause. A posted store that is due reaches its target. -/
def Obligations.EngineInstructionsComplete : Prop :=
  (∀ e rd imm len s, s.goes e (.lui rd imm) len → exec (.engineBaseInstruction e) s =
    .next ((s.fetched e len).retireX e.val len rd imm 1 1 1)) ∧
  (∀ e rd imm len s, s.goes e (.auipc rd imm) len → exec (.engineBaseInstruction e) s =
    .next (let t := s.fetched e len
      t.retireX e.val len rd (((t.ctx e.val).pc + imm) % 2 ^ 32) 1 1 1)) ∧
  (∀ e rd off len s, s.goes e (.jal rd off) len → exec (.engineBaseInstruction e) s =
    .next (let t := s.fetched e len
      (t.setX e.val rd (((t.ctx e.val).pc + len) % 2 ^ 32)).retireJump e.val (jumpTo (t.ctx e.val).pc off))) ∧
  (∀ e rd a off len s, s.goes e (.jalr rd a off) len → exec (.engineBaseInstruction e) s =
    .next (let t := s.fetched e len
      (t.setX e.val rd (((t.ctx e.val).pc + len) % 2 ^ 32)).retireJump e.val (t.eaddr e.val a off / 2 * 2))) ∧
  (∀ e c a b off len s, s.goes e (.br c a b off) len → exec (.engineBaseInstruction e) s =
    .next (let t := s.fetched e len
      if branchTaken c (t.xr e.val a) (t.xr e.val b) then t.retireJump e.val (jumpTo (t.ctx e.val).pc off)
      else t.retire e.val ((t.ctx e.val).pc + len) 1)) ∧
  (∀ e f rd a imm len s, s.goes e (.aluI f rd a imm) len → exec (.engineBaseInstruction e) s =
    .next (let t := s.fetched e len
      t.retireAlu e.val len rd (f.eval (t.xr e.val a) imm) f)) ∧
  (∀ e f rd a b len s, s.goes e (.alu f rd a b) len → exec (.engineBaseInstruction e) s =
    .next (let t := s.fetched e len
      t.retireAlu e.val len rd (f.eval (t.xr e.val a) (t.xr e.val b)) f)) ∧
  (∀ e k rd a b c rm len s, s.goes e (.fma k rd a b c rm) len → exec (.engineBaseInstruction e) s =
    .next (let t := s.fetched e len
      let r := fmaEval k (t.roundMode e.val rm) (t.fr e.val a) (t.fr e.val b) (t.fr e.val c)
      (t.addFlags e.val r.2).retireF e.val len rd r.1 3 1)) ∧
  (∀ e f rd a b rm len s, s.goes e (.fop f rd a b rm) len → exec (.engineBaseInstruction e) s =
    .next ((s.fetched e len).retireFop e.val len rd a b rm f)) ∧
  (∀ e k rd a off len s, s.goes e (.load k rd a off) len →
    let t := s.fetched e len
    t.storePending e.val (engTarget e.val (t.eaddr e.val a off)) (kindBytes k) = false →
    t.engAcc e.val (engTarget e.val (t.eaddr e.val a off)) (kindBytes k) false = .ok →
    exec (.load e) s = .next (let r := t.loadData e.val (engTarget e.val (t.eaddr e.val a off)) (kindBytes k)
        let lat := loadLat e.val (engTarget e.val (t.eaddr e.val a off)) (kindBytes k)
        r.2.retireX e.val len rd (loadValue k r.1) lat lat 1)) ∧
  (∀ e rd a off len s, s.goes e (.flw rd a off) len →
    let t := s.fetched e len
    t.storePending e.val (engTarget e.val (t.eaddr e.val a off)) 4 = false →
    t.engAcc e.val (engTarget e.val (t.eaddr e.val a off)) 4 false = .ok →
    exec (.load e) s = .next (let r := t.loadData e.val (engTarget e.val (t.eaddr e.val a off)) 4
        r.2.retireF e.val len rd r.1 (loadLat e.val (engTarget e.val (t.eaddr e.val a off)) 4) 1)) ∧
  (∀ e k a b off len s, s.goes e (.store k a b off) len → storeKind (s.eaddr e.val a off) = .plain →
    let t := s.fetched e len
    (t.eng e.val).buf.length < 4 → aliasBad (t.eaddr e.val a off) (kindBytes k) = false →
    t.engAcc e.val (engTarget e.val (t.eaddr e.val a off)) (kindBytes k) true = .ok →
    exec (.store e) s = .next ((t.post e.val (t.eaddr e.val a off) (kindBytes k) (t.xr e.val b)).retire e.val (t.nextPc e.val len) 1)) ∧
  (∀ e a b off len s, s.goes e (.fsw a b off) len → storeKind (s.eaddr e.val a off) = .plain →
    let t := s.fetched e len
    (t.eng e.val).buf.length < 4 → aliasBad (t.eaddr e.val a off) 4 = false →
    t.engAcc e.val (engTarget e.val (t.eaddr e.val a off)) 4 true = .ok →
    exec (.store e) s = .next ((t.post e.val (t.eaddr e.val a off) 4 (t.fr e.val b)).retire e.val (t.nextPc e.val len) 1)) ∧
  (∀ e k a b off len s, s.goes e (.store k a b off) len → storeKind (s.eaddr e.val a off) = .set →
    let t := s.fetched e len
    (t.eng e.val).buf.length < 4 → aliasBad (t.eaddr e.val a off) (kindBytes k) = false →
    t.engAcc e.val (engTarget e.val (t.eaddr e.val a off)) (kindBytes k) true = .ok →
    exec (.aliasBitSet e) s = .next ((t.post e.val (t.eaddr e.val a off) (kindBytes k) (t.xr e.val b)).retire e.val (t.nextPc e.val len) 1)) ∧
  (∀ e a b off len s, s.goes e (.fsw a b off) len → storeKind (s.eaddr e.val a off) = .set →
    let t := s.fetched e len
    (t.eng e.val).buf.length < 4 → aliasBad (t.eaddr e.val a off) 4 = false →
    t.engAcc e.val (engTarget e.val (t.eaddr e.val a off)) 4 true = .ok →
    exec (.aliasBitSet e) s = .next ((t.post e.val (t.eaddr e.val a off) 4 (t.fr e.val b)).retire e.val (t.nextPc e.val len) 1)) ∧
  (∀ e k a b off len s, s.goes e (.store k a b off) len → storeKind (s.eaddr e.val a off) = .clear →
    let t := s.fetched e len
    (t.eng e.val).buf.length < 4 → aliasBad (t.eaddr e.val a off) (kindBytes k) = false →
    t.engAcc e.val (engTarget e.val (t.eaddr e.val a off)) (kindBytes k) true = .ok →
    exec (.aliasBitClear e) s = .next ((t.post e.val (t.eaddr e.val a off) (kindBytes k) (t.xr e.val b)).retire e.val (t.nextPc e.val len) 1)) ∧
  (∀ e a b off len s, s.goes e (.fsw a b off) len → storeKind (s.eaddr e.val a off) = .clear →
    let t := s.fetched e len
    (t.eng e.val).buf.length < 4 → aliasBad (t.eaddr e.val a off) 4 = false →
    t.engAcc e.val (engTarget e.val (t.eaddr e.val a off)) 4 true = .ok →
    exec (.aliasBitClear e) s = .next ((t.post e.val (t.eaddr e.val a off) 4 (t.fr e.val b)).retire e.val (t.nextPc e.val len) 1)) ∧
  (∀ e len s, s.goes e .fence len →
    let t := s.fetched e len
    (t.eng e.val).buf = [] → exec (.fence e) s = .next (t.retire e.val (t.nextPc e.val len) 1)) ∧
  (∀ e len s, s.goes e .fenceI len →
    let t := s.fetched e len
    (t.eng e.val).buf = [] → exec (.fenceI e) s = .next ((t.updEng e.val (fun g => { g with fetchBuf := none })).retire e.val (t.nextPc e.val len) 1)) ∧
  (∀ e len s, s.goes e .wfi len → exec (.wfi e) s =
    .next (let t := s.fetched e len
      (t.updEng e.val (fun g => { g with instret := g.instret + 1 })).slotWait e.val (t.engSlot e.val) (t.nextPc e.val len % 2 ^ 32) 0
        (t.issueAt e.val + 1))) ∧
  (∀ e len s, s.goes e .ecall len → exec (.ecall e) s =
    .next (let t := s.fetched e len
      t.slotAbort e.val 5 0 (t.ctx e.val).pc (t.issueAt e.val + 1))) ∧
  (∀ e len s, s.goes e .ebreak len → exec (.ebreak e) s =
    .next (let t := s.fetched e len
      t.slotAbort e.val 6 0 (t.ctx e.val).pc (t.issueAt e.val + 1))) ∧
  (∀ e k rd src n len s, s.goes e (.csr k rd src n) len → exec (.csrAccess e) s =
    .next (let t := s.fetched e len
      let arg := if k < 4 then t.xr e.val src else src
      let r := if k % 4 = 1 ∧ rd = 0 then (0, t) else t.csrRead e.val n
      let v := if k % 4 = 1 then arg else if k % 4 = 2 then r.1 ||| arg else r.1 - (r.1 &&& arg)
      (if csrWrites k src then r.2.csrWrite e.val n v else r.2).retireX e.val len rd r.1 1 1 1)) ∧
  (∀ e cause addr off s, s.overBudget e.val = false → s.engDue e.val = true → s.engFetch e.val = .bad cause addr off → exec (.illegalInstruction e) s =
    .next (let t := s.pwrAcc off
      t.slotAbort e.val cause addr (t.ctx e.val).pc (t.issueAt e.val + 1))) ∧
  (∀ e s, exec (.postedStoreAccepted e) s =
    .next ((s.acceptStore e.val).acceptNext e.val))

/-- When the instruction goes, VA, VQ and VS instructions retire with the result of their operation, a MAC with 2 cycles to a
dependent MAC; a VC instruction that is not the fifth of its cycle retires with sine or cosine; VR.RD retires with the
quantity of its selector; WAITSLOT ends the run at its cycle; a VT access outside the table, beyond its entry, misaligned or
a store below 0x40 ends the run with cause 7; else a VT load retires with the halfword or word, and a VT store enters the
write buffer when it has room. -/
def Obligations.XvarulInstructionsComplete : Prop :=
  (∀ e rd a b len s, s.goes e (.xv .vaDiff rd a b) len → exec (.vaDiff e) s =
    .next (let t := s.fetched e len
      t.retireX e.val len rd (vaDiff (t.xr e.val a) (t.xr e.val b)) 1 1 1)) ∧
  (∀ e rd a b len s, s.goes e (.xv .vaLt rd a b) len → exec (.vaLt e) s =
    .next (let t := s.fetched e len
      t.retireX e.val len rd (vaLt (t.xr e.val a) (t.xr e.val b)) 1 1 1)) ∧
  (∀ e rd a b c len s, s.goes e (.vaBtw rd a b c) len → exec (.vaBtw e) s =
    .next (let t := s.fetched e len
      t.retireX e.val len rd (vaBtw (t.xr e.val a) (t.xr e.val b) (t.xr e.val c)) 1 1 1)) ∧
  (∀ e rd a b len s, s.goes e (.xv .vqMacq31 rd a b) len → exec (.vqMacq31 e) s =
    .next (let t := s.fetched e len
      t.retireX e.val len rd (vqMacq31 (t.xr e.val rd) (t.xr e.val a) (t.xr e.val b)) 1 2 1)) ∧
  (∀ e rd a b len s, s.goes e (.xv .vqMulq31 rd a b) len → exec (.vqMulq31 e) s =
    .next (let t := s.fetched e len
      t.retireX e.val len rd (vqMulq31 (t.xr e.val a) (t.xr e.val b)) 1 1 1)) ∧
  (∀ e rd a b len s, s.goes e (.xv .vqMacq15 rd a b) len → exec (.vqMacq15 e) s =
    .next (let t := s.fetched e len
      t.retireX e.val len rd (vqMacq15 (t.xr e.val rd) (t.xr e.val a) (t.xr e.val b)) 1 2 1)) ∧
  (∀ e rd a b len s, s.goes e (.xv .vqRndq15 rd a b) len → exec (.vqRndq15 e) s =
    .next (let t := s.fetched e len
      t.retireX e.val len rd (vqRndq15 (t.xr e.val a)) 1 1 1)) ∧
  (∀ e rd a b len s, s.goes e (.xv .vsAdd2 rd a b) len → exec (.vsAdd2 e) s =
    .next (let t := s.fetched e len
      t.retireX e.val len rd (vsAdd2 (t.xr e.val a) (t.xr e.val b)) 1 1 1)) ∧
  (∀ e rd a b len s, s.goes e (.xv .vsSub2 rd a b) len → exec (.vsSub2 e) s =
    .next (let t := s.fetched e len
      t.retireX e.val len rd (vsSub2 (t.xr e.val a) (t.xr e.val b)) 1 1 1)) ∧
  (∀ e rd a b len s, s.goes e (.xv .vsMac2 rd a b) len → exec (.vsMac2 e) s =
    .next (let t := s.fetched e len
      t.retireX e.val len rd (vsMac2 (t.xr e.val rd) (t.xr e.val a) (t.xr e.val b)) 1 2 1)) ∧
  (∀ e rd a b len s, s.goes e (.xv .vsMul2 rd a b) len → exec (.vsMul2 e) s =
    .next (let t := s.fetched e len
      t.retireX e.val len rd (vsMul2 (t.xr e.val a) (t.xr e.val b)) 1 1 1)) ∧
  (∀ e rd a b len s, s.goes e (.xv .vcSin rd a b) len →
    let t := s.fetched e len
    t.vcServed e.val (t.issueAt e.val) < 4 → exec (.vcSin e) s =
      .next (let r := (t.updEng e.val (fun g => { g with vcAt := some (t.issueAt e.val) })).vcOne (sinWord (t.xr e.val a))
        r.2.retireX e.val len rd r.1 1 1 1)) ∧
  (∀ e rd a b len s, s.goes e (.xv .vcCos rd a b) len →
    let t := s.fetched e len
    t.vcServed e.val (t.issueAt e.val) < 4 → exec (.vcCos e) s =
      .next (let r := (t.updEng e.val (fun g => { g with vcAt := some (t.issueAt e.val) })).vcOne (cosWord (t.xr e.val a))
        r.2.retireX e.val len rd r.1 1 1 1)) ∧
  (∀ e rd a b len s, s.goes e (.xv .vcSc rd a b) len →
    let t := s.fetched e len
    t.vcServed e.val (t.issueAt e.val) < 4 → exec (.vcSc e) s =
      .next (let r := (t.updEng e.val (fun g => { g with vcAt := some (t.issueAt e.val) })).sinCos (cosWord (t.xr e.val a)) (sinWord (t.xr e.val a))
        r.2.retireX e.val len rd r.1 1 1 1)) ∧
  (∀ e rd sel len s, s.goes e (.vrRd rd sel) len → exec (.vrRd e) s =
    .next (let t := s.fetched e len
      (t.vrRead e.val sel).2.retireX e.val len rd (t.vrRead e.val sel).1 1 1 1)) ∧
  (∀ e rd len s, s.goes e (.waitslot rd) len → exec (.waitslot e) s =
    .next (let t := s.fetched e len
      (t.updEng e.val (fun g => { g with instret := g.instret + 1 })).slotWait e.val (t.engSlot e.val) (t.nextPc e.val len % 2 ^ 32) rd
        (t.issueAt e.val + 1))) ∧
  (∀ e rd a off len s, s.goes e (.vtLoad 1 rd a off) len →
    let t := s.fetched e len
    vtBad (t.xr e.val a) off 2 false = false → t.storePending e.val (vtAddr (t.xr e.val a) off) 2 = false →
    exec (.vtLh e) s = .next (t.retireX e.val len rd (loadValue 1 (t.memN (vtAddr (t.xr e.val a) off) 2)) 4 4 1)) ∧
  (∀ e rd a off len s, s.goes e (.vtLoad 1 rd a off) len →
    let t := s.fetched e len
    vtBad (t.xr e.val a) off 2 false = true →
    exec (.vtLh e) s = .next (t.slotAbort e.val 7 (vtAddr (t.xr e.val a) off) (t.ctx e.val).pc (t.issueAt e.val + 1))) ∧
  (∀ e rd a off len s, s.goes e (.vtLoad 2 rd a off) len →
    let t := s.fetched e len
    vtBad (t.xr e.val a) off 4 false = false → t.storePending e.val (vtAddr (t.xr e.val a) off) 4 = false →
    exec (.vtLw e) s = .next (t.retireX e.val len rd (loadValue 2 (t.memN (vtAddr (t.xr e.val a) off) 4)) 4 4 1)) ∧
  (∀ e rd a off len s, s.goes e (.vtLoad 2 rd a off) len →
    let t := s.fetched e len
    vtBad (t.xr e.val a) off 4 false = true →
    exec (.vtLw e) s = .next (t.slotAbort e.val 7 (vtAddr (t.xr e.val a) off) (t.ctx e.val).pc (t.issueAt e.val + 1))) ∧
  (∀ e rd a off len s, s.goes e (.vtLoad 4 rd a off) len →
    let t := s.fetched e len
    vtBad (t.xr e.val a) off 2 false = false → t.storePending e.val (vtAddr (t.xr e.val a) off) 2 = false →
    exec (.vtLhu e) s = .next (t.retireX e.val len rd (loadValue 5 (t.memN (vtAddr (t.xr e.val a) off) 2)) 4 4 1)) ∧
  (∀ e rd a off len s, s.goes e (.vtLoad 4 rd a off) len →
    let t := s.fetched e len
    vtBad (t.xr e.val a) off 2 false = true →
    exec (.vtLhu e) s = .next (t.slotAbort e.val 7 (vtAddr (t.xr e.val a) off) (t.ctx e.val).pc (t.issueAt e.val + 1))) ∧
  (∀ e a b off len s, s.goes e (.vtStore 5 a b off) len →
    let t := s.fetched e len
    vtBad (t.xr e.val a) off 2 true = false → (t.eng e.val).buf.length < 4 →
    exec (.vtSh e) s = .next ((t.post e.val (vtAddr (t.xr e.val a) off) 2 (t.xr e.val b)).retire e.val (t.nextPc e.val len) 1)) ∧
  (∀ e a b off len s, s.goes e (.vtStore 5 a b off) len →
    let t := s.fetched e len
    vtBad (t.xr e.val a) off 2 true = true →
    exec (.vtSh e) s = .next (t.slotAbort e.val 7 (vtAddr (t.xr e.val a) off) (t.ctx e.val).pc (t.issueAt e.val + 1))) ∧
  (∀ e a b off len s, s.goes e (.vtStore 6 a b off) len →
    let t := s.fetched e len
    vtBad (t.xr e.val a) off 4 true = false → (t.eng e.val).buf.length < 4 →
    exec (.vtSw e) s = .next ((t.post e.val (vtAddr (t.xr e.val a) off) 4 (t.xr e.val b)).retire e.val (t.nextPc e.val len) 1)) ∧
  (∀ e a b off len s, s.goes e (.vtStore 6 a b off) len →
    let t := s.fetched e len
    vtBad (t.xr e.val a) off 4 true = true →
    exec (.vtSw e) s = .next (t.slotAbort e.val 7 (vtAddr (t.xr e.val a) off) (t.ctx e.val).pc (t.issueAt e.val + 1)))

/-- Each kind of frame on a chain is received through the shared checks of R216 and then acts as its rule says: an upward frame
updates its cell, a management response, a claim response, a delay response and a NAK answer what waited for them, a
heartbeat and an enumeration frame act on their chain; a delay response on a Shuttle lane is the Shuttle's. A fast trip is
taken on an aligned lane only: inside a frame it counts CEL_ABORT; a whole one on a chain is counted and is CEL_EVT.TRIPRX,
and on the Shuttle a standby unit forwards it to the chains it heals. -/
def Obligations.ChainFramesComplete : Prop :=
  (∀ c f s, exec (.upFrameRx c f) s =
    .next (s.rxChain c.val ftUp true f (fun f t => t.upFrame f false))) ∧
  (∀ c f s, exec (.mgmtRspRx c f) s =
    .next (s.rxChain c.val ftMgmtRsp true f (fun f t => t.mgmtRsp c.val f))) ∧
  (∀ c f s, exec (.claimRspRx c f) s =
    .next (s.rxChain c.val ftClaimRsp true f (fun f t => t.claimAnswer c.val f))) ∧
  (∀ lane f t4 s, exec (.delayRspRx lane f t4) s =
    .next (if lane.val < 24 then s.rxChain lane.val ftDelayRsp true f (fun f t => t.delayRsp f t4.toNat)
        else s.shuttleDelay lane.val f t4.toNat)) ∧
  (∀ c f s, exec (.nakRx c f) s =
    .next (s.rxChain c.val ftNak true f (fun f t => t.nakAnswer c.val f))) ∧
  (∀ c f s, exec (.chainHbtRx c f) s =
    .next (s.rxChain c.val ftHbt false f (fun f t => t.chainHbt c.val f))) ∧
  (∀ c f s, exec (.enumReturn c f) s =
    .next (s.rxChain c.val ftEnum false f (fun f t => t.enumReturn c.val f))) ∧
  (∀ c f s, exec (.enumFarEndRx c f) s =
    .next (s.rxChain c.val ftEnum false f (fun f t => t.enumFarEnd c.val f))) ∧
  (∀ lane x s, exec (.fastTripRx lane x) s =
    .next (if s.bit (LNK_STATUS_ALIGNED lane.val) then
        let s := if x = .whole false then s else s.count CEL_ABORT
        if x = .single then s
        else if lane.val < 24 then (s.count CEL_TRIPRX).evtCel CEL_EVT_TRIPRX lane.val
        else if s.standby then forL ((bitsIn 24 (s.rdN RDN_HEAL)).filter s.laneTrips) (fun c t => t.tripOn c) s
        else s
      else s))

/-- A management operation that is overdue, or that a cell was busy for, is tried again; a broadcast that has its responses
ends; the delay exchange of a known node is wanted again; an admitted cell whose last frame is older than its hold time is
LOST. Enumeration passes assign or fill the chains of a mask, assigning refused while cycles run, the fill pass repeated
each second while they run, and a pass that does not return within 4 slots marks a break. A snapshot and a probe are
actions: not in a standby unit. A keyed release of TRIPCLR starts the release unless the stack is still held. A host's
CELL_MGMT that can start is refused or queued, CELLMAP_WRITE runs and completes; each waits in its ring until it can start. -/
def Obligations.CellCommandsComplete : Prop :=
  (∀ c s, exec (.mgmtTimeout c) s =
    .next (match s.cel.mgmt.find? (fun m => m.chain == c.val && m.at_ == .sent && decide (m.slot + s.fld CEL_MGMTCFG_TMO ≤ s.cel.slot)) with
      | some m => if m.cell = 0xFE ∧ 0 < m.responses then s.mgmtExpire m else s.mgmtAgain m true
      | none => s)) ∧
  (∀ cell s, exec (.mgmtBusyRetry cell) s =
    .next (match s.cel.mgmt.find? (fun m => m.cell == cell.val && m.at_ == .busy) with
      | some m => s.mgmtAgain m false
      | none => s)) ∧
  (∀ cell s, exec (.delayExchangePeriod cell) s =
    .next (if s.nodeKnown cell.val then (s.updDly cell.val (fun d => { d with want := true })).delayTimer cell.val else s)) ∧
  (∀ cell s, exec (.cellLostTimeout cell) s =
    .next (if s.admitted cell.val && decide (ms (s.fld CEL_HOLDMAX_MS) ≤ (s.tick + 2 ^ 32 - s.up cell.val 0x30 4) % 2 ^ 32) then
        (s.setCstat cell.val csLost).evtCel CEL_EVT_LOST cell.val
      else s)) ∧
  (∀ m chains s, taken m s → exec (.enumAssign m chains) s =
    .next (s.enumGo m false chains.toNat)) ∧
  (∀ m chains s, taken m s → exec (.enumFill m chains) s =
    .next (s.enumGo m true chains.toNat)) ∧
  (∀ s, exec .enumFillPeriodic s =
    .next (if s.bit GLB_STATUS_CTRL_RUN then (s.enumGo .thimble true (2 ^ 24 - 1)).timer 500000000 .enumFillPeriodic else s)) ∧
  (∀ c s, exec (.enumBreakTimeout c) s =
    .next (match tget none s.cel.enums c.val with
      | none => s
      | some r =>
        if r.sent && decide (r.slot + 4 ≤ s.cel.slot) then
          let s := (s.updCel (fun t => { t with enums := tput none t.enums c.val none })).setB (CEL_CHSTAT_BREAK c.val) true
          s.celStatus.bringUpClaim r.fill
        else s)) ∧
  (∀ target kind s, exec (.cellSnapshot target kind) s =
    .next (if s.standby then s else s.cellSnapshot target.toNat kind.toNat)) ∧
  (∀ target params s, exec (.ageProbe target params) s =
    .next (if s.standby || !s.bit AGE_CTRL_PRBEN then s
      else
        match s.probeCell target.toNat with
        | none => ((s.count AGE_PRBFAIL).evtAge AGE_EVT_PRBFAIL 0xFF)
        | some id =>
          let n := s.age.probeCnt + 1
          let step := if bitsOf params.toNat 16 8 = 0 then s.fld AGE_PRBCFG_STEP else bitsOf params.toNat 16 8
          let dur := if bitsOf params.toNat 0 16 = 0 then s.fld AGE_PRBCFG_DUR else bitsOf params.toNat 0 16
          let w := 2 ^ 31 + n % 16 * 2 ^ 24 + step * 2 ^ 16 + dur
          s.updAge (fun a => { a with probeCnt := n, lastCell := if target.toNat = 0xFF then id else a.lastCell, want := a.want ++ [(id, w)] }))) ∧
  (∀ m key s, taken m s → exec (.fltReleaseTripclr m key) s =
    .next (if key.toNat ≠ 0xF1E0 ∨ s.bit SELV_STATUS_STACK = true ∨ s.bit FLT_SAFEHOLD_STACK = true ∨ s.bit FLT_SAFEHOLD_ALL = true ∨
          s.bit CEL_STATUS_MASTER = false then s.fltRefuse m
      else s.tripclrStart)) ∧
  (∀ ring d q s, exec (.cellMgmt ring d q) s =
    .next (if s.cmdReady ring.val d && decide (s.hostMgmts < 64) then
        let cidx := s.ringDev ring.val
        let s := s.cmdFetch ring.val
        match s.mgmtRefused q with
        | some st => s.finish ⟨ring.val, d.tag.toNat, d.opc.toNat, cidx, st, 0⟩
        | none =>
          let cell := q.cell.toNat
          s.mgmtAdd { chain := if cell = 0xFE then q.chain.toNat else cell / 8, cell, op := q.op.toNat, obj := q.obj.toNat
                      off := q.offset.toNat, cnt := q.cnt.toNat, data := if q.op.toNat = 1 then [] else q.data
                      by_ := .host ring.val d.tag.toNat cidx }
      else s.cmdLater ring.val (.cellMgmt ring d q))) ∧
  (∀ ring d first entries s, s.cmdReady ring.val d = true → exec (.cellmapWrite ring d first entries) s =
    .next (let r := (s.cmdFetch ring.val).cellMapWrite d first.val entries
      r.1.finish ⟨ring.val, d.tag.toNat, d.opc.toNat, s.ringDev ring.val, r.2.1, r.2.2⟩)) ∧
  (∀ ring d first entries s, s.cmdReady ring.val d = false → exec (.cellmapWrite ring d first entries) s =
    .next (s.cmdLater ring.val (.cellmapWrite ring d first entries)))

/-- A heartbeat, a state segment, a tunnelled frame and a delay request on the Shuttle are received through the shared checks
and act as their rules say; a write that sets or clears EN, or sets CLAIMGO, HOREQ or HOABORT, acts as a write of RDN_CTRL;
the outcome of a claim is won or lost; an ACTIVE unit reclaims its chains and sends snapshots; a handover point counts while
a handover is armed, a handover that is armed too long is abandoned, a STANDBY unit claims at the handover when it may and
reports CLAIMLOST otherwise, a handoff that times out is HOFAIL; the control lock ends at its timeout; a standby transmit
slot, a self-test tile and a health report act as R415 and R428 say; the delay measurement repeats each second while EN is
set. -/
def Obligations.RedundancyCommandsComplete : Prop :=
  (∀ lane f frac s, exec (.shuttleHbtRx lane f frac) s =
    .next (if lane.val < 24 then s else s.rxShuttle lane.val ftHbt (· == 40) f (fun f t => t.shuttleHeartbeat f frac.toNat))) ∧
  (∀ f s, exec (.stateSegmentRx f) s =
    .next (s.rxShuttle s.shuttleUp ftState (fun n => decide (16 ≤ n) && n % 4 == 0) f (fun f t => t.stateSegment f))) ∧
  (∀ f s, exec (.tunnelRx f) s =
    .next (s.rxShuttle s.shuttleUp ftTunnel (fun n => decide (28 ≤ n)) f (fun f t => t.tunnelRx f))) ∧
  (∀ f t2 s, exec (.shuttleDelayReqRx f t2) s =
    .next (s.rxShuttle 24 ftDelayReq (· == 16) f (fun f t => t.shuttleDelayRsp f t2.toNat))) ∧
  (∀ s, exec .shuttleDelayPeriod s =
    .next (if s.bit RDN_CTRL_EN then
        let s := s.timer 500000000 .shuttleDelayPeriod
        if s.laneLink 24 then
          (s.updRdn (fun r => { r with shT1 := none })).sendShuttle 24 ftDelayReq clDelay .shT1 (leBytes 0 12 ++ leBytes (s.rdN RDN_SHDLY) 4)
        else s
      else s)) ∧
  (∀ m s, taken m s → exec (.rdnEnable m) s =
    .next (s.rdnCtrl m (putBit (s.rdN RDN_CTRL) 0 true))) ∧
  (∀ m s, taken m s → exec (.rdnDisable m) s =
    .next (s.rdnCtrl m (putBit (s.rdN RDN_CTRL) 0 false))) ∧
  (∀ m s, taken m s → exec (.rdnClaimgo m) s =
    .next (s.rdnCtrl m (putBit (s.rdN RDN_CTRL) 2 true))) ∧
  (∀ m s, taken m s → exec (.rdnHoreq m) s =
    .next (s.rdnCtrl m (putBit (s.rdN RDN_CTRL) 3 true))) ∧
  (∀ m s, taken m s → exec (.rdnHoabort m) s =
    .next (s.rdnCtrl m (putBit (s.rdN RDN_CTRL) 4 true))) ∧
  (∀ s, exec .claimOutcome s =
    .next (if s.cel.claimDue.isNone then s
      else
        let won := s.chainsWon
        let lost := s.chainsLost
        let s := s.claimTake
        if s.rdState = rdSingle then s
        else if lost.isEmpty && !won.isEmpty then
          if s.rdn.hoTake then s.claimWon won 0 else (s.becomeActive).claimWon won (min s.rdn.shMiss s.rdn.chMiss)
        else s.claimFail won lost)) ∧
  (∀ s, exec .chainReclaim s =
    .next (if s.rdState = rdActive then s.reclaim else s)) ∧
  (∀ s, exec .handoverPoint s =
    .next (if s.standby then s
        else if s.bit RDN_STATUS_HOARMED then s.updRdn (fun r => { r with hoPoint := true }) else s)) ∧
  (∀ s, exec .revertTimerExpire s =
    .next (if s.rdn.revert then (s.updRdn (fun r => { r with revert := false })).hoRequest else s)) ∧
  (∀ s, exec .hoarmTimeout s =
    .next (if s.rdState = rdActive ∧ s.bit RDN_STATUS_HOARMED = true ∧ s.rdn.hoPoint = false then s.hoAbandon else s)) ∧
  (∀ s, exec .handoverClaim s =
    .next (if s.rdState = rdStandby then
        if s.claimAllowed then
          let u0 := s.rdN HOOP_H0TURNS * 2 ^ 32 + s.h0Ang
          let th := s.nextCycle u0
          let two := (s.nextCycle (s.nextCycle th) - th) * 2 ^ 32 / max 1 s.hoop.h0.step
          let s := (s.rdnEnter rdClaim).updRdn (fun r => { r with hoTake := true, hoAge := 0, claimMax := 0 })
          let s := s.claimSend s.claimE false
          (s.updCel (fun t => { t with claimDue := some (t.slot + 3) })).sched two .claimOutcome
        else s.evtRdn RDN_EVT_CLAIMLOST
      else s)) ∧
  (∀ s, exec .handoffTimeout s =
    .next (if s.rdState = rdHandoff then
        let s := s.evtRdn RDN_EVT_HOFAIL
        if s.claimAllowed then s.rdnClaim else s.rdnClaim.rdnEnter rdStandby
      else s)) ∧
  (∀ s, exec .ctlockTimeout s =
    .next ((s.setB RDN_STATUS_CTLOCK false).updRdn (fun r => { r with ctOk := 0 }))) ∧
  (∀ s, exec .snapshotPeriod s =
    .next (if s.rdState = rdActive then s.snapTimer.snapStart else s)) ∧
  (∀ s, exec .standbyTxSlot s =
    .next (if s.bit RDN_CTRL_EN && decide (2 ≤ s.fld GLB_STATUS_ROLE) && !s.commands then
        if s.rdn.txSlot then s.healSync else (s.updRdn (fun r => { r with txSlot := true })).standbySlot
      else s)) ∧
  (∀ fail s, exec (.standbyLbistTile fail) s =
    .next (if s.testRuns then
        let s := s.updRdn (fun r => { r with tiles := r.tiles + 1, tilesBad := r.tilesBad + (if fail then 1 else 0) })
        if fail then ((s.setB RDN_STATUS_TESTOK false).count RDN_TESTFAIL).evtRdn RDN_EVT_TESTFAIL else s
      else s)) ∧
  (∀ s, exec .standbyHealthReport s =
    .next (if s.rdState = rdStandby then
        let s := s.timer 500000000 .standbyHealthReport
        if s.testRuns then
          let s := s.setB RDN_STATUS_TESTOK (decide (0 < s.rdn.tiles) && s.rdn.tilesBad == 0)
          (s.rdnRecord 0x06 s.rdn.tiles (s.rxErrors * 65536 + min 65535 s.rdn.tilesBad)).updRdn (fun r => { r with tiles := 0, tilesBad := 0 })
        else s
      else s))

/-- A write that is taken: RUN set (outside Quiet) or cleared acts as a write of GLB_CTRL. Control cycles start at the zero when
RUN is 1, which sets CTRL_RUN and ends the time-based walk. A cycle begins while they run, or starts them at a zero that
came early by rounding. While they run, references are due: the windows are checked, and a unit that commands the stack
latches and places probes. The Tatting result is published unless the unit is a standby; frames depart when the unit
commands, else the slot is idle. The steps of an orderly stop act while it goes on: the stack, then the legs, then the end
of the cycles. -/
def Obligations.CycleCommandsComplete : Prop :=
  (∀ m s, taken m s → s.awake = true → exec (.runSet m) s = .next (s.glbCtrl m (putBit (s.rdN GLB_CTRL) 0 true))) ∧
  (∀ m s, taken m s → exec (.runClear m) s =
    .next (s.glbCtrl m (putBit (s.rdN GLB_CTRL) 0 false))) ∧
  (∀ s, exec .ctrlRunStart s =
    .next (if s.bit GLB_CTRL_RUN && !s.bit GLB_STATUS_CTRL_RUN then
        let s := (s.setB GLB_STATUS_CTRL_RUN true).setB PRK_STATUS_PASSMODE false
        let s := ((s.unsched isCycleMark).unsched (· == .prickingPass)).sched 500000000 .enumFillPeriodic
        (s.updStitch StitchSt.restart).fmaxWatch
      else s)) ∧
  (∀ s, exec .cycleStart s =
    .next (if s.bit GLB_STATUS_CTRL_RUN then s.cycleBegin
      else if s.bit GLB_CTRL_RUN && s.zeroNear then s.ctrlRunStart.cycleBegin
      else s)) ∧
  (∀ s, exec .refsDue s =
    .next (if s.bit GLB_STATUS_CTRL_RUN then
        let s := s.windowCheck
        let s := if s.commands then s.firstLatch.stitchLatch.placeProbes else s
        s.rdnRefs
      else s)) ∧
  (∀ s, exec .tattingPublish s =
    .next (if s.standby then s else s.tatPublish.sendDelta)) ∧
  (∀ s, exec .downDeparture s =
    .next (if s.commands then s.departure else s.slotIdle)) ∧
  (∀ s, exec .orderlyStopStack s =
    .next (if s.bit THM_STATUS_STOP then s.selvTrip 61 0 true false else s)) ∧
  (∀ s, exec .orderlyStopLegs s =
    .next (if s.bit THM_STATUS_STOP then s.selvTrip 61 0xFFF false false else s)) ∧
  (∀ s, exec .orderlyStopEnd s =
    .next (if s.bit THM_STATUS_STOP then ((s.ctrlStop.setB THM_STATUS_STOP false).thmLimit).thmRecord 0x07 0xFF else s)) ∧
  (∀ phases s, exec (.rotatePoint phases) s =
    .next (if s.standby then s
        else forL (bitsIn 3 phases.toNat) (fun p t => t.updTatPhase p (fun ph => { ph with rotate := true })) s))

/-- Die sensors are sampled as signed words; a diode reading out of range, marked bad or more than 20 K from the last measured
is bad, else good. The throttle evaluation repeats each millisecond. A write that is taken: NSTEP is limited to 8, refused
as CFGREF when its thresholds are not in order, and lowers the present step to it; an acknowledge ends FROZEN. Headroom
follows each present cell's temperature. The die comparators decide a halt once, with the stack tripped and the legs left as
they are until the halt 10 us later. The path monitors give the least slack, report PATHMARG below the low limit and, in
automatic mode, move the supply code by one within its limits. Probe timeouts, life, saves, reports and a keyed reset of a
cell's record act as their rules say; in Quiet the unit saves, reports and reads no path. -/
def Obligations.ThermalAgeingCommandsComplete : Prop :=
  (∀ rs s, exec (.dieSensorSample rs) s =
    .next (s.dieSample ((upto 8).map (fun k => match rs[k]? with
        | some r => toSigned 16 r.toNat
        | none => s.sfld (THM_TEMP_READ (16 + k)))))) ∧
  (∀ k bad t s, exec (.diodeReading k bad t) s =
    .next (let jump := match tget none s.thm.last k.val with
        | some p => decide (320 < ((toSigned 16 t.toNat) - p).natAbs)
        | none => false
      let s' := s.updThm (fun h => { h with last := tput none h.last k.val (if bad then none else some (toSigned 16 t.toNat)) })
      if bad || jump || decide ((toSigned 16 t.toNat) < -880) || decide (2800 < (toSigned 16 t.toNat)) then s'.thmBad k.val else s'.thmGood k.val (toSigned 16 t.toNat))) ∧
  (∀ s, exec .throttleEvaluate s =
    .next ((if s.bit THM_CTRL_EN then s.thmEvaluate else s).timer (ms 1) .throttleEvaluate)) ∧
  (∀ m n s, taken m s → exec (.thmNstepWrite m n) s =
    .next (let n := n.toNat
      let n := min 8 n
      if s.stepsOk n then
        let s := s.setF THM_CTRL_NSTEP n
        if n < s.fld THM_STATUS_STEP then s.setStep n else s
      else s.evtThm THM_EVT_CFGREF 0xFF)) ∧
  (∀ m s, taken m s → exec (.thmAck m) s =
    .next (if s.bit THM_STATUS_FROZEN then
        let s := (s.setB THM_STATUS_FROZEN false).setB THM_CTEMP_OFSAPPL false
        (if s.bit THM_CTRL_EN && !s.thmSensors.isEmpty then s.thmTc else s).thmRecord 0x04 0xFF
      else s)) ∧
  (∀ s, exec .cellHeadroomUpdate s =
    .next (if s.bit THM_CTRL_CELLEN then
        forL ((upto 192).filter (fun id => s.cstat id != csAbsent && s.up id 0x36 1 == 0)) (fun id t =>
          match t.headOf id with
          | some h => t.updTatCell id (fun c => { c with head := h })
          | none => (t.updTatCell id (fun c => { c with head := 0 })).evtThm THM_EVT_CELLTFAIL id) s
      else s)) ∧
  (∀ s, exec .dieComparatorTrip s =
    .next (if s.thm.halted then s
      else if s.thm.decided then s.raise 0x05 0xFF
      else
        let s := ((s.updThm (fun t => { t with decided := true })).setB NVM_STATUS_HALT true).raise 0x05 0xFF
        ((s.setSelvLive 62 true).selvDecide 62).sched (us 10) .thermalHalt)) ∧
  (∀ cell s, exec (.probeTimeout cell) s =
    .next (match tget none s.age.pend cell.val with
        | some p => if p.left = 0 then s.probeFail cell.val else s
        | none => s)) ∧
  (∀ s, exec .ageLifeUpdate s =
    .next (let s := (s.timer 500000000 .ageLifeUpdate).setB AGE_STATUS_RUN (s.bit AGE_CTRL_EN && s.awake)
      if s.bit AGE_STATUS_RUN then forN 192 (fun id t => (t.ageLife id).ageDerate id) s else s)) ∧
  (∀ s, exec .ageSave s =
    .next (if s.awake then (s.timer (s.fld AGE_RPTCFG_SAVEPER * 500000000) .ageSave).ageSave
        else s.timer (s.fld AGE_RPTCFG_SAVEPER * 500000000) .ageSave)) ∧
  (∀ s, exec .ageReport s =
    .next (forL ((upto 192).filter (fun id => s.awake && (s.ageRec id).isSome)) (fun id t => t.ageRecord 2 id 0 0)
        (s.timer (s.fld AGE_RPTCFG_RPTPER * 500000000) .ageReport))) ∧
  (∀ m w s, taken m s → exec (.ageCellReset m w) s =
    .next (let id := bitsOf w.toNat 0 8
      if bitsOf w.toNat 16 16 = 0xA6E0 ∧ id < 192 then s.ageRestart id (((s.ageRec id).map (fun r => r.uid)).getD 0) else s)) ∧
  (∀ slacks s, exec (.pathMonitorRead slacks) s =
    .next (if s.awake then s.pathRead (slacks.map (fun x => x.toNat)) else s))

/-- A write that is taken (outside Quiet) enables a lane that is not enabled and starts its blind wait; disabling clears its
status and takes it OFF; RETRAIN starts training again from LINK and the blind wait from DOWN. Signal, lock and alignment
move an enabled lane on; a training frame is checked and taken while the lane trains, and in LINK a request to train
retrains it; taps, CTLE, tuning and its restart act in their stage of training; the lane comes up when 8 frames of the far
end were ready and its own were sent long enough; a training that takes too long and a loss lead to the backoff, whose end
starts again. -/
def Obligations.LaneStateCommandsComplete : Prop :=
  (∀ m lane s, taken m s → s.awake = true → exec (.laneEnable m lane) s =
    .next (if s.bit (LNK_CTRL_EN lane.val) then s
      else ((s.setB (LNK_CTRL_EN lane.val) true).pllCheck (pllOf lane.val)).blindStart lane.val)) ∧
  (∀ m lane s, taken m s → exec (.laneDisable m lane) s =
    .next (if s.bit (LNK_CTRL_EN lane.val) then
        let s := (((s.rxCut lane.val).prbsUnlock lane.val).laneLeave lane.val).setB (LNK_CTRL_EN lane.val) false
        let s := ((s.setB (LNK_STATUS_SIGDET lane.val) false).setB (LNK_STATUS_CDRLOCK lane.val) false).setB (LNK_STATUS_ALIGNED lane.val) false
        ((s.updLane lane.val (fun _ => {})).setLane lane.val lnOff).pllCheck (pllOf lane.val)
      else s)) ∧
  (∀ lane s, exec (.laneSignalLock lane) s =
    .next (if s.bit (LNK_CTRL_EN lane.val) && s.bit (LNK_STATUS_PLLOK lane.val) then
        ((s.setB (LNK_STATUS_SIGDET lane.val) true).setB (LNK_STATUS_CDRLOCK lane.val) true).laneLocked lane.val
      else s)) ∧
  (∀ lane inverted s, exec (.laneAligned lane inverted) s =
    .next (if s.bit (LNK_CTRL_EN lane.val) && s.bit (LNK_STATUS_CDRLOCK lane.val) && (!s.bit (LNK_STATUS_ALIGNED lane.val) || s.laneState lane.val == lnAlign) then
        let s := s.setB (LNK_STATUS_POLINV lane.val) inverted
        if inverted then s
        else
          let s := s.setB (LNK_STATUS_ALIGNED lane.val) true
          if s.laneState lane.val = lnAlign then (s.updLane lane.val (fun t => { t with phase := 1, ctleFrom := s.tick })).setLane lane.val lnTrain
          else s
      else s)) ∧
  (∀ lane head body eye s, exec (.trainFrameRx lane head body eye) s =
    .next (let bad (t : State) : State := if lane.val < 24 then t.violation lane.val 0x03 ((head ++ body).take 8) else t.count RDN_SHERR
      let take := decide (lnWait ≤ s.laneState lane.val) && decide (s.laneState lane.val ≤ lnTrain)
      if take || s.laneState lane.val == lnLink then
        match parseFrame 1024 (head ++ body) with
        | .inr c => if take then (if c = 0x03 then bad s else s.trainTake lane.val none eye.toNat) else s
        | .inl fr =>
          if fr.ty ≠ ftTrain then s
          else if fr.payload.length ≠ 272 then bad s
          else if take then s.trainTake lane.val (some fr.payload) eye.toNat
          else if bitsOf (fieldAt fr.payload 0 1) 0 2 = 0 then (s.retrain lane.val).evtLnk (LNK_EVT_TRAININ lane.val) lane.val
          else s
      else s)) ∧
  (∀ lane s, exec (.ffeTapUpdate lane) s =
    .next (s.tapUpdate lane.val)) ∧
  (∀ lane boost s, exec (.trainCtleDone lane boost) s =
    .next (if s.laneState lane.val = lnTrain ∧ (s.lane lane.val).phase = 1 ∧ (s.lane lane.val).ctleFrom + us 100 ≤ s.tick then
        (s.setF (LNK_STATUS_CTLE lane.val) boost.val).updLane lane.val (fun t =>
          { t with phase := 2, best := (min 255 t.errs.sum, t.eye), stage := .want, pre := false, inc := false, first := true
                   undo := false, base := false, frames := 0 })
      else s)) ∧
  (∀ lane s, exec (.trainTuneEval lane) s =
    .next (let t := s.lane lane.val
      if s.laneState lane.val = lnTrain ∧ t.phase = 2 then
        if t.stage = .settle ∧ 64 ≤ t.good then
          ((s.updLane lane.val (fun x => { x with phase := 3, readyCnt := 0 })).setB (LNK_STATUS_RXREADY lane.val) true).linkCheck lane.val
        else if t.stage = .eval ∧ 16 ≤ t.cnt then s.updLane lane.val LaneSt.evaluate
        else s
      else s)) ∧
  (∀ lane s, exec (.trainTuneRestart lane) s =
    .next (if s.laneState lane.val = lnTrain ∧ (s.lane lane.val).phase = 2 ∧ (s.lane lane.val).stage = .settle ∧ 512 ≤ (s.lane lane.val).frames then
        s.updLane lane.val (fun t => { t with stage := .preset })
      else s)) ∧
  (∀ lane s, exec (.laneLinkUp lane) s =
    .next (let t := s.lane lane.val
      if s.laneState lane.val = lnTrain ∧ s.linkReady lane.val = true then
        let s := s.unsched (isTraining lane.val)
        let s := (s.setF (LNK_TRLAST_TIME lane.val) (min 4095 ((s.tick - t.since) / 5000))).setF (LNK_TRLAST_CTLE lane.val) (s.fld (LNK_STATUS_CTLE lane.val))
        let s := (s.setF (LNK_TRLAST_POST lane.val) (s.fld (LNK_STATUS_POST lane.val))).setF (LNK_TRLAST_PRE lane.val) (s.fld (LNK_STATUS_PRE lane.val))
        let s := if lane.val < 24 ∧ s.bit GLB_STATUS_CTRL_RUN then
            forL (((upto 8).map (fun k => 8 * lane.val + k)).filter s.nodeKnown) (fun id t => t.updDly id (fun d => { d with want := true })) s
          else s
        (s.updLane lane.val (fun x => { x with trackAt := s.tick, training := false })).setLane lane.val lnLink
      else s)) ∧
  (∀ lane s, exec (.laneTrainTimeout lane) s =
    .next (if lnWait ≤ s.laneState lane.val ∧ s.laneState lane.val ≤ lnTrain ∧ (s.lane lane.val).pllLost = false then s.laneBackoff lane.val else s)) ∧
  (∀ lane signal clock codes s, exec (.laneLoss lane signal clock codes) s =
    .next (s.laneLoss lane.val signal clock codes.val)) ∧
  (∀ lane s, exec (.laneBackoffEnd lane) s =
    .next (if s.laneState lane.val = lnBackoff then s.blindStart lane.val else s)) ∧
  (∀ m lane s, taken m s → exec (.laneRetrain m lane) s =
    .next (if s.laneState lane.val = lnLink then s.retrain lane.val
      else if s.laneState lane.val = lnDown then s.blindStart lane.val
      else s))

/-- A running PLL that is lost takes its lanes with it and, of the Ethernet ports, both links; one that locks starts the enabled
lanes of its own. PRBS is enabled when the lane may have it, else CFGREF; disabled it starts the lane again; an inserted
error is sent while the transmitter sends PRBS; the checker locks, counts errors and is lost at 32 in a window. An eye scan
starts on a lane in LINK that has none running and ends with the height and width measured. An elastic recentre counts on a
lane that is not OFF. A tracking step moves CTLE by one when a millisecond has passed in LINK. The periodic eye scan takes
the next lane in LINK. -/
def Obligations.LaneTestCommandsComplete : Prop :=
  (∀ pll s, exec (.lanePllLoss pll) s =
    .next (if s.pllRuns pll.val && s.lnk.pll.getLsbD pll.val then
        let s := (s.setPll pll.val false).setB GLB_CLKSTAT_LANELOSS true
        let s := forL (pllLanes pll.val) (fun l t => t.lanePllLost l) s
        if pll.val = 3 then (s.setB (ETH_STATUS_LINK 0) false).setB (ETH_STATUS_LINK 1) false else s
      else s)) ∧
  (∀ pll s, exec (.lanePllLock pll) s =
    .next (if s.pllRuns pll.val && !s.lnk.pll.getLsbD pll.val then
        forL ((pllLanes pll.val).filter (fun l => s.bit (LNK_CTRL_EN l))) (fun l t => t.laneClocked l) (s.setPll pll.val true)
      else s)) ∧
  (∀ m lane s, taken m s → exec (.lanePrbsEnable m lane) s =
    .next (if s.bit (LNK_PRBS_EN lane.val) then s
      else if s.prbsOk lane.val then
        let s := s.setB (LNK_PRBS_EN lane.val) true
        let st := s.laneState lane.val
        if (lnWait ≤ st ∧ st ≤ lnLink) ∨ st = lnDown then (s.laneLeave lane.val).setLane lane.val lnPrbs else s
      else s.evtLnk (LNK_EVT_CFGREF lane.val) lane.val)) ∧
  (∀ m lane s, taken m s → exec (.lanePrbsDisable m lane) s =
    .next (let s := s.setB (LNK_PRBS_EN lane.val) false
      if s.laneState lane.val = lnPrbs then (s.prbsUnlock lane.val).blindStart lane.val else s)) ∧
  (∀ m lane s, taken m s → exec (.prbsErrinj m lane) s =
    .next (if s.laneState lane.val = lnPrbs ∧ s.bit (LNK_PRBS_TXEN lane.val) then s.emit (.bitInverted lane.val) else s)) ∧
  (∀ lane s, exec (.prbsCheckerLock lane) s =
    .next (if s.laneState lane.val == lnPrbs && s.bit (LNK_PRBS_RXEN lane.val) && !s.bit (LNK_PRBS_LOCK lane.val) then
        (s.setB (LNK_PRBS_LOCK lane.val) true).updLane lane.val (fun t => { t with bitsFrom := s.tick })
      else s)) ∧
  (∀ lane errs s, exec (.prbsCheckerLoss lane errs) s =
    .next (if s.bit (LNK_PRBS_LOCK lane.val) then
        let s := (s.prbsFold lane.val).count48 (LNK_PRBSERR_LO lane.val) (LNK_PRBSERR_HI lane.val) errs.val
        if 32 ≤ errs.val then (s.setB (LNK_PRBS_LOCK lane.val) false).evtLnk (LNK_EVT_PRBSLOSS lane.val) lane.val else s
      else s)) ∧
  (∀ m lane s, taken m s → exec (.eyeScanStart m lane) s =
    .next (if s.laneLink lane.val && !s.bit (LNK_EYECTL_BUSY lane.val) then
        let e := s.tick + s.eyeTicks lane.val
        (((s.setB (LNK_EYECTL_BUSY lane.val) true).setB (LNK_EYECTL_ABORT lane.val) false).updLane lane.val (fun t => { t with eyeEnd := e }))
      else s)) ∧
  (∀ lane height width s, exec (.eyeScanDone lane height width) s =
    .next (if s.bit (LNK_EYECTL_BUSY lane.val) && decide ((s.lane lane.val).eyeEnd ≤ s.tick) then
        let s := ((s.setB (LNK_EYECTL_BUSY lane.val) false).setF (LNK_EYE_HEIGHT lane.val) height.val).setF (LNK_EYE_WIDTH lane.val) width.val
        if s.age.eyeLane = some lane.val then s.ageEye lane.val height.val else s
      else s)) ∧
  (∀ lane s, exec (.elasticRecenter lane) s =
    .next (if s.laneState lane.val = lnOff then s else s.count (LNK_ESKIP lane.val))) ∧
  (∀ lane up s, exec (.ctleTrackStep lane up) s =
    .next (let c := s.fld (LNK_STATUS_CTLE lane.val)
      if s.laneLink lane.val && s.bit (LNK_CTRL_TRACK lane.val) && decide ((s.lane lane.val).trackAt + ms 1 ≤ s.tick) then
        (s.setF (LNK_STATUS_CTLE lane.val) (if up then min 15 (c + 1) else c - 1)).updLane lane.val (fun t => { t with trackAt := s.tick })
      else s)) ∧
  (∀ s, exec .ageEyeScanPeriod s =
    .next (let s := s.timer (max 1 (s.fld AGE_EYECFG_PER) * 500000000) .ageEyeScanPeriod
      if s.bit AGE_CTRL_EYEEN then
        let next := s.fld AGE_STATUS_EYELANE
        match ((upto 26).map (fun k => (next + k) % 26)).find? (fun l => s.laneLink l && !s.bit (LNK_EYECTL_BUSY l)) with
        | none => s
        | some l =>
          (((s.eyeStart l).updAge (fun a => { a with eyeLane := some l })).setF AGE_STATUS_EYELANE ((l + 1) % 26)).setB AGE_STATUS_EYEBUSY true
      else s))

/-- A trigger triggers the sequences of its mask. A write that is taken: a converter is enabled and becomes IDLE when it is
ready; a software trigger triggers the sequences of its mask; an urgent request takes an IDLE converter that has none, else
it is counted as dropped and reported; a reference is selected, which clears SETTLED unless it is the selected one;
ADC_INJECT arms its errors, a comparator's not while cycles run; the fast stream starts with its channels and stops.
Housekeeping and the self-check repeat at their period. The reference settles, and is lost with REFLOSS when it had settled.
A comparator's input takes a level, or its result is formed again after an injection; a conversion result is taken, a
clipped channel counts once per run of clipped samples and sets FCLIP at each. -/
def Obligations.AdcCommandsComplete : Prop :=
  (∀ mask s, exec (.adcSeqTrig mask) s =
    .next (forL (bitsIn 2 mask.toNat) (fun n t => (t.seqTrig n .prk).1) s)) ∧
  (∀ m conv s, taken m s → exec (.sarEnable m conv) s =
    .next (s.setBit ADC_CTRL conv.val true)) ∧
  (∀ conv s, exec (.sarReady conv) s =
    .next (if s.rbit ADC_CTRL conv.val ∧ s.fld (ADC_SEQSTAT_STATE conv.val) = sarOff then (s.setF (ADC_SEQSTAT_STATE conv.val) sarIdle).bgStart conv.val else s)) ∧
  (∀ m conv s, taken m s → exec (.sarDisable m conv) s =
    .next (let t := s.sarDisable conv.val
      match (s.conv conv.val).job with
      | some (.seq _) => t
      | _ => if t.bit PHU_STATUS_RUN && t.fld PHU_CTRL_CONV == conv.val then t.phuSeqEnd 0 else t)) ∧
  (∀ m mask s, taken m s → exec (.adcSeqswGo m mask) s =
    .next (forL (bitsIn 2 mask.toNat) (fun n t => (t.seqTrig n .sw).1) s)) ∧
  (∀ conv code s, exec (.sarConversionResult conv code) s =
    .next (s.sarResult conv.val (toSigned 20 code.toNat))) ∧
  (∀ m conv input s, taken m s → exec (.adcUrgentRequest m conv input) s =
    .next (let input := input.toNat
      let input := if 28 ≤ input then 24 else input
      let urgent := match (s.conv conv.val).job with
        | some (.urgent _) => true
        | _ => false
      if s.fld (ADC_SEQSTAT_STATE conv.val) = sarIdle ∧ urgent = false then (s.bgAbort conv.val).startJob conv.val (.urgent input) s.tick
      else (s.count ADC_URG_DROP).evtAdc ADC_EVT_URGDROP (if input < 24 then input else 0xFF))) ∧
  (∀ s, exec .hkScanPeriod s =
    .next (s.hkScan.timer (ms (max 1 (s.fld ADC_HKCFG_PERIOD))) .hkScanPeriod)) ∧
  (∀ s, exec .selfCheckPeriod s =
    .next (if s.fld ADC_SCCFG_PERIOD = 0 then s else s.scPeriod.timer (ms (s.fld ADC_SCCFG_PERIOD)) .selfCheckPeriod)) ∧
  (∀ m sel vnom s, taken m s → exec (.refSelect m sel vnom) s =
    .next (let vnom := vnom.toNat
      let sel := sel.toNat
      let sel := if sel = 3 then 0 else sel
      let vnom := clampNat 1800 2750 vnom
      let same := sel == s.fld ADC_REFCFG_SEL && (sel != 1 || vnom == s.fld ADC_REFCFG_VNOM)
      let s := (s.setF ADC_REFCFG_SEL sel).setF ADC_REFCFG_VNOM vnom
      if same then s
      else (s.setF ADC_REFSTAT_SELACT sel).setB ADC_REFSTAT_SETTLED false)) ∧
  (∀ settled s, exec (.refSettled settled) s =
    .next (let s := s.setB ADC_REFSTAT_INBAND true
      if settled then s.setB ADC_REFSTAT_SETTLED true else s)) ∧
  (∀ s, exec .refInbandLoss s =
    .next (let was := s.bit ADC_REFSTAT_SETTLED
      let s := (s.setB ADC_REFSTAT_INBAND false).setB ADC_REFSTAT_SETTLED false
      if was then s.evtAdc ADC_EVT_REFLOSS 0xFF else s)) ∧
  (∀ k level s, exec (.windowComparatorChange k level) s =
    .next (match level with
        | some v => s.wcChange k.val v
        | none => s.wcUpdate k.val)) ∧
  (∀ m w s, taken m s → exec (.adcInject m w) s =
    .next (let s := forL (bitsIn 2 w.toNat) (fun n t => t.updConv n (fun c => { c with ovrNext := true })) s
      let s := if bitOf w.toNat 2 then forN 2 (fun n t => t.updConv n (fun c => { c with refNext := true })) s else s
      let s := if bitOf w.toNat 3 then s.updAdc (fun a => { a with scInj := true }) else s
      let wc := bitsIn 8 (bitsOf w.toNat 8 8)
      if wc.isEmpty then s
      else if s.bit GLB_STATUS_CTRL_RUN then s.evtAdc ADC_EVT_CFGREF 0xFF
      else
        forL wc (fun k t =>
          let d := t.fld (ADC_WCCFG_FILT k) * 10 + us 1
          (((t.updAdc (fun a => { a with wcInj := tput 0 a.wcInj k (t.tick + d) })).wcUpdate k).sched d
            (.windowComparatorChange (wcIx k) none))) s)) ∧
  (∀ m chen s, taken m s → exec (.fastStreamStart m chen) s =
    .next (let run := s.bit ADC_FCTRL_RUN
      let s := if run then (if bitsOf (chen.toNat * 16 + 1) 4 4 = s.fld ADC_FCTRL_CHEN then s else s.evtAdc ADC_EVT_CFGREF 0xFF)
        else s.setF ADC_FCTRL_CHEN (bitsOf (chen.toNat * 16 + 1) 4 4)
      if bitOf (chen.toNat * 16 + 1) 0 then (if run then s else s.streamStart) else s.streamStop)) ∧
  (∀ m s, taken m s → exec (.fastStreamStop m) s =
    .next (let s := s.setB ADC_FCTRL_RUN false
      if s.bit ADC_FSTAT_RUNNING then
        let n := s.fcount
        (((s.setB ADC_FSTAT_RUNNING false).wrN ADC_FCNT_LO n).wrN ADC_FCNT_HI (n / 2 ^ 32)).setF ADC_FSTAT_CLIPNOW 0
      else s)) ∧
  (∀ c clip s, exec (.fastChannelClip c clip) s =
    .next (if s.bit ADC_FSTAT_RUNNING && bitOf (s.fld ADC_FCTRL_CHEN) c.val then
        if clip then
          if s.rbit ADC_FSTAT (4 + c.val) then s.evtAdc ADC_EVT_FCLIP c.val
          else
            let t := ((s.setBit ADC_FSTAT (4 + c.val) true).count (ADC_FCLIP c.val)).evtAdc ADC_EVT_FCLIP c.val
            if s.fcount = 0 then t else t.fastSample c.val (s.fcount - 1)
        else s.setBit ADC_FSTAT (4 + c.val) false
      else s))

/-- A write that is taken sets EN as a write of PHU_CTRL. While RUN is 1 an alignment clears its channels and the frame count; a
guard decision takes the first shift of the series whose conversions are clear of every edge, records the largest, or counts
GUARDFAIL and triggers unshifted; a trigger starts the sequence for the next grid point, or marks its samples bad. A frame
is reported when its window is over. -/
def Obligations.PhasorCommandsComplete : Prop :=
  (∀ m s, taken m s → exec (.phuEnable m) s =
    .next (s.phuCtrl (putBits (s.rdN PHU_CTRL) 0 1 1))) ∧
  (∀ mask s, exec (.phuAlign mask) s =
    .next (if s.bit PHU_STATUS_RUN then
        (((s.phuClear mask.toNat).setB PHU_STATUS_FILL (s.bit PHU_STATUS_FILL || mask.toNat % 4096 != 0)).setB PHU_STATUS_ALIGNPEND false).phuEmit.wrN
          PHU_FRCNT 0
      else s)) ∧
  (∀ s, exec .phuGuardDecision s =
    .next (if s.bit PHU_STATUS_RUN then
        let nom : Int := (s.tick + 250 : Nat)
        let edges := s.guardEdges
        let len := s.fld (ADC_SEQCFG_LENM1 (s.fld PHU_CTRL_CONV)) + 1
        let g := s.phu.next
        let s := s.updPhu (fun p => { p with next := p.next + 1, trigs := p.trigs ++ [g] })
        match (guardSeries (s.fld PHU_GUARD_GMAX)).find? (fun d => guardClear edges len (s.fld PHU_GUARD_GUARD) (nom + d)) with
        | some d =>
          let s := if s.fld PHU_SHIFTMAX_MAX < d.natAbs then s.setF PHU_SHIFTMAX_MAX d.natAbs else s
          s.schedAt (nom + d).toNat .phuTrigger
        | none => ((s.count PHU_GUARDFAIL).evtPhu PHU_EVT_GUARDFAIL 0xFF).schedAt nom.toNat .phuTrigger
      else s)) ∧
  (∀ s, exec .phuTrigger s =
    .next (if s.bit PHU_STATUS_RUN then
        match s.phu.trigs with
        | [] => s
        | g :: rest =>
          let s := s.updPhu (fun p => { p with trigs := rest })
          let r := s.seqTrig (s.fld PHU_CTRL_CONV) .phu
          if r.2 then r.1.updPhu (fun p => if p.cur.isSome then { p with again := some g } else { p with cur := some g })
          else (forL r.1.phuChans (fun n t => t.phuBad n g) r.1).updPhu (fun p => { p with last := max p.last g })
      else s)) ∧
  (∀ phasors freq rocof s, exec (.phuFrameEmit phasors freq rocof) s =
    .next (let frame := s.phu.frame
      let w := s.phuWindow frame
      if s.bit PHU_STATUS_RUN && decide (w.2 ≤ s.phu.last) then
        let complete := s.phuComplete w
        let s := s.updPhu (fun p => { p with frame := p.frame + 1 })
        let s := if complete then s.setB PHU_STATUS_FILL false else s
        (s.phuReport frame w complete (phasors, freq, rocof)).updPhu (fun p => { p with marks := p.marks.filter (fun e => decide (frame < e.1)) })
      else s))

/-- An arming without a running stream of its channels is NOSTREAM; else it opens the window, forever with length 0 only while
the unit is armed by its own enable, and ARMED follows. A trigger needs an armed unit outside POST and HOLDOFF whose stream
and bank serve it, and starts an event when the largest modal difference over the lag reaches the threshold. When the post
time has passed the event is recorded, POST ends and HOLDOFF begins; its end clears it. A copy goes to its ring when that
has room, less the samples that were overwritten. A location is formed at once and shown when it is done, as LOCDONE or
LOCERR. -/
def Obligations.TravellingWaveCommandsComplete : Prop :=
  (∀ mask window s, exec (.twArm mask window) s =
    .next (if !s.twStream mask.toNat then s.evtTwu TWU_EVT_NOSTREAM
      else
        let e := if window.toNat = 0 then s.tick else max s.twu.armEnd (s.tick + us window.toNat)
        let s := (s.updTwu (fun t => { t with armEnd := e })).unsched (· == .twArmExpire)
        let s := if s.tick < e then s.schedAt e .twArmExpire else s
        s.setB TWU_STATUS_ARMED s.twArmed)) ∧
  (∀ s, exec .twArmExpire s =
    .next (s.setB TWU_STATUS_ARMED s.twArmed)) ∧
  (∀ xs s, exec (.twTrigger xs) s =
    .next ((s.putSets (s.fcount - xs.length) xs).twTriggerNow)) ∧
  (∀ first xs s, exec (.twPostEnd first xs) s =
    .next ((s.putSets first.toNat xs).twPostNow)) ∧
  (∀ s, exec .twHoldoffEnd s =
    .next (s.setB TWU_STATUS_HOLDOFF false)) ∧
  (∀ s, exec .twCaptureDone s =
    .next (s.twCapture)) ∧
  (∀ m s, taken m s → exec (.twLocate m) s =
    .next (if s.bit TWU_LOCSTAT_BUSY then s else (s.updTwu (fun t => { t with loc := s.locate })).setB TWU_LOCSTAT_BUSY true)) ∧
  (∀ s, exec .twLocateDone s =
    .next (if s.bit TWU_LOCSTAT_BUSY then
        let r := s.twu.loc
        let s := (s.setB TWU_LOCSTAT_BUSY false).setF TWU_LOCSTAT_ERR r.1
        if r.1 = 0 then
          (((s.setB TWU_LOCSTAT_VALID true).wrN TWU_LOCRES (ofSigned 32 r.2.1)).setF TWU_LOCSTAT_EST r.2.2).evtTwu TWU_EVT_LOCDONE
        else (s.setB TWU_LOCSTAT_VALID false).evtTwu TWU_EVT_LOCERR
      else s))

/-- A BAR4 read gives its bytes, and all ones while a long operation runs; a BAR4 write writes its parts, and is counted in
GLB_REJECT while one runs; both wait for a bank. A host's MEM_READ and MEM_WRITE, when they need not wait for a bank and can
start, run and complete; until they can start they wait in their ring. A write of ownership that is taken is ignored from an
engine that does not own the bank, OWNBUSY when it may not change, else it drains the bank; of two writes of one bank in one
tick the master that comes first in the order keeps it and the other is OWNBUSY; when it has drained, OWNCHG is reported,
waiting accesses are served and a stream with RUN set starts again on a capture bank that is its own. A power request for a
bank in use is PWRREF, else the bank is asked to it and gets there in its time. Scrubbing corrects what it may and repeats
at its period; a corrected word is written back; a starved access is counted and reported. -/
def Obligations.MemoryCommandsComplete : Prop :=
  (∀ off len s, exec (.bar4Read off len) s =
    .next (if !s.bar4Open off.toNat len.val then s
      else if s.bit GLB_STATUS_BUSY then s.emit (.hostData off.toNat (List.replicate len.val 0xFF#8))
      else
        let parts := bar4Parts off.toNat len.val
        match s.bar4Wait false parts with
        | some n => s.bankWait n (.bar4Read off len)
        | none =>
          let r := parts.foldl (fun acc p => let q := acc.2.bar4ReadPart p; (acc.1 ++ q.1, q.2)) (([] : List Byte), s)
          r.2.emit (.hostData off.toNat r.1))) ∧
  (∀ off data s, exec (.bar4Write off data) s =
    .next (if !s.bar4Open off.toNat data.length then s
      else if s.bit GLB_STATUS_BUSY then s.count GLB_REJECT
      else
        let parts := bar4Parts off.toNat data.length
        match s.bar4Wait true parts with
        | some n => s.bankWait n (.bar4Write off data)
        | none => forL parts (fun p t => t.bar4WritePart p ((data.drop (p.1 - off.toNat)).take p.2)) s)) ∧
  (∀ ring d addr s, s.memCmdWait ring.val d addr.toNat false = none → s.cmdReady ring.val d = true → exec (.memRead ring d addr) s =
    .next (let r := (s.cmdFetch ring.val).memRead d addr.toNat
      r.1.finish ⟨ring.val, d.tag.toNat, d.opc.toNat, s.ringDev ring.val, r.2.1, r.2.2⟩)) ∧
  (∀ ring d addr s, s.cmdReady ring.val d = false → exec (.memRead ring d addr) s = .next (s.cmdLater ring.val (.memRead ring d addr))) ∧
  (∀ ring d addr data s, s.memCmdWait ring.val d addr.toNat true = none → s.cmdReady ring.val d = true → exec (.memWrite ring d addr data) s =
    .next (let r := (s.cmdFetch ring.val).memWrite d addr.toNat data
      r.1.finish ⟨ring.val, d.tag.toNat, d.opc.toNat, s.ringDev ring.val, r.2.1, r.2.2⟩)) ∧
  (∀ ring d addr data s, s.cmdReady ring.val d = false → exec (.memWrite ring d addr data) s = .next (s.cmdLater ring.val (.memWrite ring d addr data))) ∧
  (∀ m n w s, taken m s → exec (.memOwnerWrite m n w) s =
    .next (let mine := match m with
        | .eng e _ => s.fld (MEM_OWN_KIND n.val) == 0 && s.fld (MEM_OWN_HOME n.val) == e.val
        | _ => true
      let back := match s.ownBefore m n.val with
        | some old => (s.wrN (MEM_OWN n.val) old).setB (MEM_BSTAT_DRAIN n.val) false
        | none => s
      if !mine then s
      else if back.ownBad n.val w.toNat then s.evtMem MEM_EVT_OWNBUSY n.val
      else
        let s := if (s.ownBefore m n.val).isSome then back.evtMem MEM_EVT_OWNBUSY n.val else s
        s.ownTake m n.val w.toNat)) ∧
  (∀ n s, exec (.ownershipDrainEnd n) s =
    .next (if s.bit (MEM_BSTAT_DRAIN n.val) then
        let s := (s.setB (MEM_BSTAT_DRAIN n.val) false).evtMem MEM_EVT_OWNCHG n.val
        let s := if n.val < 16 then s.setB (BOB_STATUS_LOADED n.val) false
          else if n.val = 20 ∧ s.bit ADC_FCTRL_RUN = true ∧ s.bit ADC_FSTAT_RUNNING = false then s.streamStart else s
        s.bankServe n.val
      else s)) ∧
  (∀ m n w s, taken m s → exec (.bankPowerRequest m n w) s =
    .next (let req := min 2 (bitsOf w.toNat 0 2)
      let s := (s.setF (MEM_PWR_AUTOWAKE n.val) (bitsOf w.toNat 8 1)).setF (MEM_PWR_QUIET n.val) (min 2 (bitsOf w.toNat 4 2))
      if req ≠ 0 ∧ ((n.val < 16 ∧ s.bit (BOB_CTRL_EN n.val) = true) ∨ (n.val = 20 ∧ s.bit ADC_FCTRL_RUN = true)) then s.evtMem MEM_EVT_PWRREF n.val
      else (s.setF (MEM_PWR_REQ n.val) req).bankReq n.val req)) ∧
  (∀ n s, exec (.bankPowerDone n) s =
    .next (match s.bankGo n.val with
      | .none => s
      | .toRet => (s.setPstate n.val psRet).bankSettled n.val
      | .toOff => ((s.setPstate n.val psOff).bankLost n.val).bankSettled n.val
      | .wakeRet => (s.setPstate n.val psOn).bankSettled n.val
      | .wakeOff => (s.setPstate n.val psInit).bankStart n.val .init (bankSize n.val / 16)
      | .init => (s.setPstate n.val psOn).bankSettled n.val)) ∧
  (∀ s, exec .scrubPass s =
    .next (let s := if s.bit MEM_CTRL_SCRUBEN then
          forL (s.flips.filter (fun e => (bankOf e.1).any (fun n => s.pstate n == psOn))) (fun e t => t.eccRead e.1 4) s
        else s
      s.timer (500000000 * max 1 (s.fld MEM_CTRL_SCRUBPER)) .scrubPass)) ∧
  (∀ s, exec .eccWriteback s =
    .next (match s.bank.wb with
      | [] => s
      | a :: t => (s.updBank (fun b => { b with wb := t })).setWrong a 0)) ∧
  (∀ s, exec .starveTimeout s =
    .next ((s.count MEM_STARVE).evtMem MEM_EVT_STARVE 0xFF))

/-- A write that is taken enables or disables a ring as a write of HIF_RCFG. A doorbell is ignored before READY, counted in
GLB_REJECT while a long operation runs, else it moves the host index. A ring stops when nothing is in flight; a DMA error on
a ring that runs or stops takes it to ERROR and records where. NOP, when it can start, completes with status 0, or 0x10 for
an operation the table does not list; until then it waits in its ring. Completions are written in order while their ring has
room. An interrupt held off is sent at the end of the hold-off; unmasking a pending vector sends its message. A mailbox
message is fetched while the FIFO has room, popped, and posted to a live ring that has room, else dropped and counted. The
link going down, coming up and configuration writes set HIF_STATUS; a configuration write that enables MSI-X sends the
pending messages of unmasked vectors. -/
def Obligations.RingCommandsComplete : Prop :=
  (∀ m ring s, taken m s → exec (.ringEnable m ring) s =
    .next (s.rcfgWrite m ring.val (putBit (s.rdN (HIF_RCFG ring.val)) 31 true))) ∧
  (∀ m ring s, taken m s → exec (.ringDisable m ring) s =
    .next (s.rcfgWrite m ring.val (putBit (s.rdN (HIF_RCFG ring.val)) 31 false))) ∧
  (∀ ring s, exec (.ringStopDone ring) s =
    .next (if s.fld (HIF_RSTAT_STATE ring.val) = ringStopping ∧ s.fld (HIF_RSTAT_INFLT ring.val) = 0 then s.setF (HIF_RSTAT_STATE ring.val) ringDisabled
      else s)) ∧
  (∀ ring write cpl addr s, exec (.dmaError ring write cpl addr) s =
    .next (let st := s.fld (HIF_RSTAT_STATE ring.val)
      if st = ringRun ∨ st = ringStopping then
        let s := s.setF (HIF_RSTAT_STATE ring.val) ringError
        let s := s.wrN HIF_DMAERRINFO ((if write then 2 ^ 16 else 0) + cpl.toNat % 256 * 2 ^ 8 + ring.val % 32)
        ((s.wrN HIF_DMAERRADDR_LO addr.toNat).wrN HIF_DMAERRADDR_HI (addr.toNat / 2 ^ 32)).evtHif HIF_EVT_DMAERR
      else s)) ∧
  (∀ ring v slots s, exec (.ringDoorbell ring v slots) s =
    .next (if !s.bit GLB_STATUS_READY then s
        else if s.bit GLB_STATUS_BUSY then s.count GLB_REJECT
        else s.doorbell ring.val v.toNat slots)) ∧
  (∀ cq s, exec (.commandComplete cq) s =
    .next (let n := s.hif.done.length
        let s := s.completeOne (8 + cq.val)
        if s.hif.done.length < n then s.sched 0 (.commandComplete cq) else s)) ∧
  (∀ ring d s, s.cmdReady ring.val d = true → exec (.nop ring d) s =
    .next ((s.cmdFetch ring.val).finish ⟨ring.val, d.tag.toNat, d.opc.toNat, s.ringDev ring.val,
      if opcListed d.opc.toNat then 0x00 else 0x10, 0⟩)) ∧
  (∀ ring d s, s.cmdReady ring.val d = false → exec (.nop ring d) s = .next (s.cmdLater ring.val (.nop ring d))) ∧
  (∀ ring s, exec (.irqHoldoffEnd ring) s =
    .next (if (s.ring ring.val).irqPend && decide ((s.ring ring.val).holdEnd ≤ s.tick) then (s.updRing ring.val (fun q => { q with irqPend := false })).ringSignal ring.val
      else s)) ∧
  (∀ vec masked addr data s, exec (.msixUnmask vec masked addr data) s =
    .next (let bit := BitVec.twoPow 64 vec.val
      (s.updHif (fun h => { h with
        msixTab := tput (0#64, 0#32) h.msixTab vec.val (addr, data)
        msixUnmasked := if masked then h.msixUnmasked &&& ~~~ bit else h.msixUnmasked ||| bit })).msixTake vec.val)) ∧
  (∀ k msg s, exec (.mailboxFetch k msg) s =
    .next (let r := 28 + k.val
      if s.ringLive r && !s.ringIsEntry r && !s.ringFull r && decide ((s.mbox k.val).length < 16) then
        ((s.ringAdvance r).updRing r (fun q => { q with bufs := q.bufs.drop 1 })).setMbox k.val
          (s.mbox k.val ++ [(msg ++ List.replicate 32 0#8).take 32])
      else s)) ∧
  (∀ m k s, taken m s → exec (.mailboxPop m k) s =
    .next (match s.mbox k.val with
      | [] => s
      | _ :: t => s.setMbox k.val t)) ∧
  (∀ m k s, taken m s → exec (.mailboxPost m k) s =
    .next (let r := 28 + k.val
      if !s.ringIsEntry r then s
      else if s.ringLive r && !s.ringFull r then
        (s.ringEntry r ((upto 8).flatMap (fun w => leBytes (s.rdN (HIF_MBOUT k.val w)) 4))).setB (HIF_MBCTL_OUTFULL k.val) false
      else (s.count (HIF_RDROP r)).setB (HIF_MBCTL_OUTFULL k.val) true)) ∧
  (∀ s, exec .pcieLinkDown s =
    .next (if s.bit HIF_STATUS_LINKUP then
          (((s.setB HIF_STATUS_LINKUP false).setF HIF_STATUS_SPEED 0).setF HIF_STATUS_WIDTH 0).evtHif HIF_EVT_LINKDOWN
        else s)) ∧
  (∀ speed width s, exec (.pcieLinkUp speed width) s =
    .next (((s.setB HIF_STATUS_LINKUP true).setF HIF_STATUS_SPEED speed.val).setF HIF_STATUS_WIDTH width.val)) ∧
  (∀ bme msixen d3hot s, exec (.pcieConfigWrite bme msixen d3hot) s =
    .next ((((s.setB HIF_STATUS_BME bme).setB HIF_STATUS_MSIXEN msixen).updHif (fun h => { h with d3hot := d3hot })).msixFlush))

/-- A command that cannot start waits in its ring. When no command executes at the edit port and the command can start,
PRK_READ, PRK_WRITE, PRK_INSERT, PRK_DELETE, PRK_CLEAR and PRK_COMMIT take effect on their page at once, hold the port, and
complete with the status and result of R502 when the command at the port completes; one with a bad parameter completes at
once with 0x11. PRK_SWAP waits while the port is BUSY, and completes when its swap takes effect, or at once with its status
when it is refused. -/
def Obligations.PrickingRingCommandsComplete : Prop :=
  (∀ ring d page idx cnt s, s.bit PRK_EDSTAT_BUSY = false → s.cmdReady ring.val d = true → exec (.prkRead ring d page idx cnt) s =
    .next (match (s.cmdFetch ring.val).prkOps d true (fun i t => t.prkRead page.val (idx.val + i)) (upto cnt.val) with
      | none => (s.cmdFetch ring.val).finish ⟨ring.val, d.tag.toNat, d.opc.toNat, s.ringDev ring.val, 0x11, 0⟩
      | some r => (r.1.updHif (fun h => { h with portCmd := some ⟨ring.val, d.tag.toNat, d.opc.toNat, s.ringDev ring.val, r.2.1, r.2.2.1⟩ })).portHold
        r.2.1 none none r.2.2.2)) ∧
  (∀ ring d page idx cnt s, s.cmdReady ring.val d = false → exec (.prkRead ring d page idx cnt) s = .next (s.cmdLater ring.val (.prkRead ring d page idx cnt))) ∧
  (∀ ring d page idx entries s, s.bit PRK_EDSTAT_BUSY = false → s.cmdReady ring.val d = true → exec (.prkWrite ring d page idx entries) s =
    .next (match (s.cmdFetch ring.val).prkOps d true (fun e t => t.prkWrite page.val (idx.val + e.1) e.2) ((upto entries.length).zip entries) with
      | none => (s.cmdFetch ring.val).finish ⟨ring.val, d.tag.toNat, d.opc.toNat, s.ringDev ring.val, 0x11, 0⟩
      | some r => (r.1.updHif (fun h => { h with portCmd := some ⟨ring.val, d.tag.toNat, d.opc.toNat, s.ringDev ring.val, r.2.1, r.2.2.1⟩ })).portHold
        r.2.1 none none r.2.2.2)) ∧
  (∀ ring d page idx entries s, s.cmdReady ring.val d = false → exec (.prkWrite ring d page idx entries) s = .next (s.cmdLater ring.val (.prkWrite ring d page idx entries))) ∧
  (∀ ring d page entries s, s.bit PRK_EDSTAT_BUSY = false → s.cmdReady ring.val d = true → exec (.prkInsert ring d page entries) s =
    .next (match (s.cmdFetch ring.val).prkOps d true (fun e t => t.prkInsert page.val e) entries with
      | none => (s.cmdFetch ring.val).finish ⟨ring.val, d.tag.toNat, d.opc.toNat, s.ringDev ring.val, 0x11, 0⟩
      | some r => (r.1.updHif (fun h => { h with portCmd := some ⟨ring.val, d.tag.toNat, d.opc.toNat, s.ringDev ring.val, r.2.1, r.2.2.1⟩ })).portHold
        r.2.1 none none r.2.2.2)) ∧
  (∀ ring d page entries s, s.cmdReady ring.val d = false → exec (.prkInsert ring d page entries) s = .next (s.cmdLater ring.val (.prkInsert ring d page entries))) ∧
  (∀ ring d page idx cnt s, s.bit PRK_EDSTAT_BUSY = false → s.cmdReady ring.val d = true → exec (.prkDelete ring d page idx cnt) s =
    .next (match (s.cmdFetch ring.val).prkOps d false (fun _ t => t.prkDelete page.val idx.val) (upto cnt.val) with
      | none => (s.cmdFetch ring.val).finish ⟨ring.val, d.tag.toNat, d.opc.toNat, s.ringDev ring.val, 0x11, 0⟩
      | some r => (r.1.updHif (fun h => { h with portCmd := some ⟨ring.val, d.tag.toNat, d.opc.toNat, s.ringDev ring.val, r.2.1, r.2.2.1⟩ })).portHold
        r.2.1 none none r.2.2.2)) ∧
  (∀ ring d page idx cnt s, s.cmdReady ring.val d = false → exec (.prkDelete ring d page idx cnt) s = .next (s.cmdLater ring.val (.prkDelete ring d page idx cnt))) ∧
  (∀ ring d page s, s.bit PRK_EDSTAT_BUSY = false → s.cmdReady ring.val d = true → exec (.prkClear ring d page) s =
    .next (let e := (s.cmdFetch ring.val).prkClear page.val
      (e.st.updHif (fun h => { h with portCmd := some ⟨ring.val, d.tag.toNat, d.opc.toNat, s.ringDev ring.val, e.status, 0⟩ })).portHold
        e.status none none 0)) ∧
  (∀ ring d page s, s.cmdReady ring.val d = false → exec (.prkClear ring d page) s = .next (s.cmdLater ring.val (.prkClear ring d page))) ∧
  (∀ ring d page s, s.bit PRK_EDSTAT_BUSY = false → s.cmdReady ring.val d = true → exec (.prkCommit ring d page) s =
    .next (let e := (s.cmdFetch ring.val).prkCommit page.val
      (e.st.updHif (fun h => { h with portCmd := some ⟨ring.val, d.tag.toNat, d.opc.toNat, s.ringDev ring.val, e.status, (if e.status = prkOk then e.st.fld (PRK_PG_COUNT page.val) else e.idx.getD 0)⟩ })).portHold
        e.status none none 0)) ∧
  (∀ ring d page s, s.cmdReady ring.val d = false → exec (.prkCommit ring d page) s = .next (s.cmdLater ring.val (.prkCommit ring d page))) ∧
  (∀ ring d page s, exec (.prkSwap ring d page) s =
    .next (if !s.cmdReady ring.val d then s.cmdLater ring.val (.prkSwap ring d page)
      else if s.bit PRK_EDSTAT_BUSY then s.sched 1 (.prkSwap ring d page)
      else
        let cidx := s.ringDev ring.val
        let r := (s.cmdFetch ring.val).swapReq page.val
        if r.2 = prkOk then r.1.updHif (fun h => { h with swapCmds := h.swapCmds ++ [(ring.val, d.tag.toNat, d.opc.toNat, cidx)] })
        else r.1.finish ⟨ring.val, d.tag.toNat, d.opc.toNat, cidx, r.2, 0⟩))

/-- A tamper input acts while it is enabled. A wipe ends with the memory of the vault cleared and Thimble's restart, which ends
with Thimble running. A start of the MRAM port is counted and WRREF when it may not start, else it is busy with the line of
WDATA; the line is written when MRAM writes are not halted. The time base, the core PLL, the PCIe reference and their losses
set GLB_CLKSTAT, and raise or end their source; a supply trip halts MRAM writes for its two rails and raises source 4. -/
def Obligations.SecurityClockCommandsComplete : Prop :=
  (∀ high s, exec (.tamperPin high) s =
    .next (s.tamper SEC_STATUS_PINLVL SEC_TAMPCFG_PINEN SEC_EVT_TAMPERPIN 1 high)) ∧
  (∀ ok s, exec (.voltageTamper ok) s =
    .next (s.tamper SEC_STATUS_VMONOK SEC_TAMPCFG_VMONEN SEC_EVT_VTAMPER 2 ok)) ∧
  (∀ ok s, exec (.clockTamper ok) s =
    .next (s.tamper SEC_STATUS_CMONOK SEC_TAMPCFG_CMONEN SEC_EVT_CTAMPER 3 ok)) ∧
  (∀ s, exec .secureWipeDone s =
    .next (if s.bit SEC_STATUS_WIPING then
          ((s.clearRange 0x70000000 0x10000).setB SEC_STATUS_WIPING false).setB SEC_STATUS_RESTART true
        else s)) ∧
  (∀ s, exec .thimbleRestartDone s =
    .next (if s.bit SEC_STATUS_RESTART then (s.setB SEC_STATUS_RESTART false).thimbleRuns else s)) ∧
  (∀ m s, taken m s → exec (.nvmWriteGo m) s =
    .next (if s.nvmGoBad then (s.count NVM_WRREF).evt NVM_EVT_WRREF 0xE8 0xFF
      else
        (s.setB NVM_STATUS_WBUSY true).updNvm (fun _ =>
          ⟨some (s.rdN NVM_WADDR, (upto 8).flatMap (fun i => leBytes (s.rdN (NVM_WDATA i)) 4)), !s.bit NVM_STATUS_HALT⟩))) ∧
  (∀ s, exec .mramLineWritten s =
    .next (match s.nvm.port with
        | some (a, l) =>
          if s.nvm.started then
            (((s.setMemBytes (0x50000000 + a) l).setB NVM_STATUS_WBUSY false).incr NVM_WRLINES).updNvm (fun _ => {})
          else s
        | none => s)) ∧
  (∀ s, exec .timebasePllLock s =
    .next ((s.setTb true).fltEnd 0x00 0xFF)) ∧
  (∀ s, exec .timebasePllLoss s =
    .next (((s.setTb false).setB GLB_CLKSTAT_TBLOSS true).raise 0x00 0xFF)) ∧
  (∀ s, exec .corePllLoss s =
    .next (((s.setB GLB_CLKSTAT_COREPLL false).setB GLB_CLKSTAT_COREPLLLOSS true).raise 0x01 0xFF)) ∧
  (∀ s, exec .corePllLock s =
    .next ((s.setB GLB_CLKSTAT_COREPLL true).fltEnd 0x01 0xFF)) ∧
  (∀ s, exec .pcieRefLoss s =
    .next ((s.setB GLB_CLKSTAT_PCIEREF false).setB GLB_CLKSTAT_PCIELOSS true)) ∧
  (∀ s, exec .pcieRefDetect s =
    .next (s.setB GLB_CLKSTAT_PCIEREF true)) ∧
  (∀ rail s, exec (.supplyMonitorTrip rail) s =
    .next ((if rail.val = 0 ∨ rail.val = 5 then s.setB NVM_STATUS_HALT true else s).raise 0x04 rail.val))

/-- When no long operation runs and the host's write of GLB_LONGOP is taken, one that may not run ends at once with RESULT 2;
else RESULT is 0, BUSY is set and the operation runs with its argument. At its end an image is committed, the lifecycle
advances, a fuse is programmed, an on-demand self-test shows its result or a wipe its success. -/
def Obligations.LongOperationsComplete : Prop :=
  (∀ s, loaderTaken .host s → s.bit GLB_STATUS_BUSY = false → (s.setF GLB_LONGOP_OP 1).longBad 1 (s.rdN GLB_LONGARG) = true →
    exec .mramImageCommit s = .next ((s.setF GLB_LONGOP_OP 1).longEnd 2)) ∧
  (∀ s, loaderTaken .host s → s.bit GLB_STATUS_BUSY = false → (s.setF GLB_LONGOP_OP 1).longBad 1 (s.rdN GLB_LONGARG) = false →
    exec .mramImageCommit s =
      .next ((((((s.setF GLB_LONGOP_OP 1).setF GLB_LONGOP_RESULT 0).setB GLB_STATUS_BUSY true).setB THB_STATUS_LONGOP true).updBst
        (fun b => { b with longop := some (1, s.rdN GLB_LONGARG) })))) ∧
  (∀ s, loaderTaken .host s → s.bit GLB_STATUS_BUSY = false → (s.setF GLB_LONGOP_OP 2).longBad 2 (s.rdN GLB_LONGARG) = true →
    exec .lifecycleAdvance s = .next ((s.setF GLB_LONGOP_OP 2).longEnd 2)) ∧
  (∀ s, loaderTaken .host s → s.bit GLB_STATUS_BUSY = false → (s.setF GLB_LONGOP_OP 2).longBad 2 (s.rdN GLB_LONGARG) = false →
    exec .lifecycleAdvance s =
      .next ((((((s.setF GLB_LONGOP_OP 2).setF GLB_LONGOP_RESULT 0).setB GLB_STATUS_BUSY true).setB THB_STATUS_LONGOP true).updBst
        (fun b => { b with longop := some (2, s.rdN GLB_LONGARG) })))) ∧
  (∀ s, loaderTaken .host s → s.bit GLB_STATUS_BUSY = false → (s.setF GLB_LONGOP_OP 3).longBad 3 (s.rdN GLB_LONGARG) = true →
    exec .fuseProgram s = .next ((s.setF GLB_LONGOP_OP 3).longEnd 2)) ∧
  (∀ s, loaderTaken .host s → s.bit GLB_STATUS_BUSY = false → (s.setF GLB_LONGOP_OP 3).longBad 3 (s.rdN GLB_LONGARG) = false →
    exec .fuseProgram s =
      .next ((((((s.setF GLB_LONGOP_OP 3).setF GLB_LONGOP_RESULT 0).setB GLB_STATUS_BUSY true).setB THB_STATUS_LONGOP true).updBst
        (fun b => { b with longop := some (3, s.rdN GLB_LONGARG) })))) ∧
  (∀ s, loaderTaken .host s → s.bit GLB_STATUS_BUSY = false → (s.setF GLB_LONGOP_OP 4).longBad 4 (s.rdN GLB_LONGARG) = true →
    exec .onDemandBist s = .next ((s.setF GLB_LONGOP_OP 4).longEnd 2)) ∧
  (∀ s, loaderTaken .host s → s.bit GLB_STATUS_BUSY = false → (s.setF GLB_LONGOP_OP 4).longBad 4 (s.rdN GLB_LONGARG) = false →
    exec .onDemandBist s =
      .next ((((((s.setF GLB_LONGOP_OP 4).setF GLB_LONGOP_RESULT 0).setB GLB_STATUS_BUSY true).setB THB_STATUS_LONGOP true).updBst
        (fun b => { b with longop := some (4, s.rdN GLB_LONGARG) })).demandStart)) ∧
  (∀ s, loaderTaken .host s → s.bit GLB_STATUS_BUSY = false → (s.setF GLB_LONGOP_OP 5).longBad 5 (s.rdN GLB_LONGARG) = true →
    exec .secureWipe s = .next ((s.setF GLB_LONGOP_OP 5).longEnd 2)) ∧
  (∀ s, loaderTaken .host s → s.bit GLB_STATUS_BUSY = false → (s.setF GLB_LONGOP_OP 5).longBad 5 (s.rdN GLB_LONGARG) = false →
    exec .secureWipe s =
      .next ((((((s.setF GLB_LONGOP_OP 5).setF GLB_LONGOP_RESULT 0).setB GLB_STATUS_BUSY true).setB THB_STATUS_LONGOP true).updBst
        (fun b => { b with longop := some (5, s.rdN GLB_LONGARG) })).wipeStart 5)) ∧
  (∀ fails s, exec (.longopComplete fails) s =
    .next (match s.bst.longop with
      | none => s
      | some (op, arg) =>
        if op = 1 then (if s.bit NVM_STATUS_HALT then s else s.commitEnd arg)
        else if op = 2 then s.advanceEnd
        else if op = 3 then s.fuseEnd arg
        else if op = 4 then
          let s := s.demandEnd arg fails
          if fails.isEmpty then s.longEnd 1 else (let r := s.free 2; r.2.longEnd (1 + 2 * r.1))
        else if s.bit SEC_STATUS_WIPING || s.bit SEC_STATUS_RESTART then s
        else s.longEnd 1))

/-- Power-on and PERST_N reset the device and begin Thimble's boot, power down resets it and leaves it off. A keyed write of
GLB_RESET with WARM is a warm reset unless control cycles run; a watchdog that is due resets it so. Thimble's boot and READY
act in their place of the sequence. A write that is taken confirms the booted image, selects an image with a sound header
(else it is refused), starts an orderly shutdown, enters Quiet when the device may (else REFUSED is set), or wakes it. The
self-test of a shutdown ends when the ageing unit has saved, and does nothing more once a thermal halt is decided. The pad
hold, the end of the entry to Quiet, a wake by pin or alarm and the end of the wake act while they are due. A test
instruction is taken when the access allows it. A die halt stops the device, and a thermal restart resets it. -/
def Obligations.BootCommandsComplete : Prop :=
  (∀ s, exec .powerOnReset s =
    .next (s.powerReset .power .thimble 1)) ∧
  (∀ s, exec .perstReset s =
    .next (s.powerReset .power .thimble (s.rdN GLB_RSTCAUSE ||| 2))) ∧
  (∀ s, exec .powerDown s =
    .next (s.powerReset .power .off 1)) ∧
  (∀ m w s, loaderTaken m s → exec (.warmReset m w) s =
    .next (if bitsOf w.toNat 16 16 ≠ 0xC0DE ∨ s.bit GLB_STATUS_CTRL_RUN then s.refuse m GLB_RESET
      else if bitOf w.toNat 0 then s.warmReset .warm 4
      else s)) ∧
  (∀ s, exec .thimbleWatchdogReset s =
    .next (if s.flt.wdogDue then s.warmReset .wdog 8 else s)) ∧
  (∀ s, exec .thimbleBoot s =
    .next (if s.bst.at_ = .thimble ∧ s.bit GLB_STATUS_TBLOCK = true then s.thimbleBoot else s)) ∧
  (∀ fails s, exec (.readySet fails) s =
    .next (if s.bst.at_ = .ready then s.readySet fails else s)) ∧
  (∀ s, taken .host s → exec .bootConfirm s = .next (s.writePref (s.bit GLB_STATUS_BOOTIMG) false 0)) ∧
  (∀ m sel s, taken m s → exec (.bootSelect m sel) s =
    .next (if headerOk (s.memBytes (imageBase sel) 32) then s.writePref sel false 0 else s.refuse m BST_BOOTCFG)) ∧
  (∀ s, taken .host s → exec .shutdownStart s =
    .next (if s.shutdownBad then s.refuse .host BST_SDCMD
      else ((s.setB BST_STATUS_SDBUSY true).selvTrip 61 0xFFF true true).sched (us 10) .shutdownPadHold)) ∧
  (∀ s, exec .shutdownPadHold s =
    .next (if s.bit BST_STATUS_SDBUSY && !s.selv.padHold then
          ((s.updSelv (fun v => { v with padHold := true })).linksOff.ageSave).setB BST_STATUS_BISTRUN true
        else s)) ∧
  (∀ fails s, exec (.shutdownBistDone fails) s =
    .next (if s.bit BST_STATUS_SDBUSY && s.selv.padHold && s.age.saving.isNone && !s.thermalDecided then s.shutdownEnd fails else s)) ∧
  (∀ s, taken .host s → exec .quietEnter s =
    .next (if s.awake then (if s.quietBad then (s.setB BST_QSTAT_REFUSED true).refuse .host BST_QCMD else s.quietEnter) else s)) ∧
  (∀ s, taken .host s → exec .quietWakeCmd s = .next (s.wakeEvent 4)) ∧
  (∀ s, exec .quietEntryDone s =
    .next (if s.fld BST_QSTAT_STATE = 1 ∧ (upto 16).all (fun e => !s.bit (BOB_STATUS_BUSY e)) = true then s.quietEntered else s)) ∧
  (∀ s, exec .wakePin s =
    .next (if s.bit BST_QCFG_PINEN then s.wakeEvent 1 else s)) ∧
  (∀ s, exec .quietAwake s =
    .next (if s.fld BST_QSTAT_STATE = 3 then s.quietAwake else s)) ∧
  (∀ s, exec .ntmAlarm s =
    .next (if s.alarmDue then
          let s := (s.setB NTM_ALARM_SECH_ARM false).evtNtm NTM_EVT_ALARM
          if s.bit BST_QCFG_ALARMEN then s.wakeEvent 2 else s
        else s)) ∧
  (∀ ir s, exec (.tapInstruction ir) s =
    .next (if s.fld BST_TAP_ACCESS < tapNeeds ir then s
      else
        let was := s.bst.tap == some .extest
        let s := s.updBst (fun b => { b with tap := some ir })
        let s := if (ir == .extest) == was then s
          else forN 12 (fun n t => (t.tapPins n true (ir == .extest)).tapPins n false (ir == .extest)) s
        if ir = .idcode then s.emit (.tdo 0x19620F3D#32) else s)) ∧
  (∀ s, exec .thermalHalt s =
    .next (if s.thm.decided && !s.thm.halted then s.thermalHalt else s)) ∧
  (∀ s, exec .thermalRestart s =
    .next (if s.thm.halted then s.powerReset .therm .thimble 0x10 else s))

/-- A word write that is taken to a register acts as the register's access type says; a write of another width or off the word
boundary is refused and has no other effect; one to an address that holds no register has no effect. A read puts the value
that the master reads into the read data; a host read that the device does not serve gives all ones. -/
def Obligations.RegisterAccessesComplete : Prop :=
  (∀ m a v s, (if a.toNat = GLB_LONGOP ∨ a.toNat = GLB_LONGARG ∨ a.toNat = GLB_RESET then loaderTaken m s else taken m s) →
    a.toNat % 4 = 0 → (regRow a.toNat).isSome = true → exec (.registerWrite m a 4 v) s = .next (s.regWrite m a.toNat v.toNat)) ∧
  (∀ m a size v s, taken m s → loaderTaken m s → size.val ≠ 4 ∨ a.toNat % 4 ≠ 0 →
    exec (.registerWrite m a size v) s = .next (s.refuse m a.toNat)) ∧
  (∀ m a v s, taken m s → loaderTaken m s → a.toNat % 4 = 0 → (regRow a.toNat).isSome = false →
    exec (.registerWrite m a 4 v) s = .next s) ∧
  (∀ m a size s, exec (.pairLoRead m a size) s =
    .next (if m = .host ∧ s.readServed (a.toNat / 4 * 4) = false then s.setRdata (2 ^ 32 - 1)
      else
        let r := s.busRead m a.toNat size.val
        r.2.setRdata r.1))

/-- For every state with GLB_STATUS.BUSY 1 and every operands, each command that is a host write of a BAR0 register (the keyed
writes, GLB_LONGOP and GLB_RESET among them), a doorbell after READY, and a BAR4 write to what BAR4 opens, answers the same
state with GLB_REJECT counted: no other register, no byte of memory and no internal state changes. -/
def Obligations.BusyRefusesHostWrites : Prop :=
  ∀ s : State, s.bit GLB_STATUS_BUSY = true →
    (∀ hold, exec (.errpinHoldWrite .host hold) s = .next (s.count GLB_REJECT)) ∧
    (∀ key, exec (.fltReleaseSafe .host key) s = .next (s.count GLB_REJECT)) ∧
    (∀ k mask, exec (.cellBypassRelease .host k mask) s = .next (s.count GLB_REJECT)) ∧
    (∀ k mask, exec (.escalationClear .host k mask) s = .next (s.count GLB_REJECT)) ∧
    (∀ w, exec (.faultInject .host w) s = .next (s.count GLB_REJECT)) ∧
    (∀ w, exec (.eccInjectArm .host w) s = .next (s.count GLB_REJECT)) ∧
    (∀ w, exec (.logClear .host w) s = .next (s.count GLB_REJECT)) ∧
    (∀ n, exec (.pwmLegEnable .host n) s = .next (s.count GLB_REJECT)) ∧
    (∀ n, exec (.pwmLegDisable .host n) s = .next (s.count GLB_REJECT)) ∧
    (∀ mask, exec (.pwmGstart .host mask) s = .next (s.count GLB_REJECT)) ∧
    (∀ n, exec (.pwmCtrlCommit .host n) s = .next (s.count GLB_REJECT)) ∧
    (∀ w, exec (.selvForce .host w) s = .next (s.count GLB_REJECT)) ∧
    (∀ w, exec (.selvClr .host w) s = .next (s.count GLB_REJECT)) ∧
    (exec (.h0Enable .host) s = .next (s.count GLB_REJECT)) ∧
    (exec (.h0Disable .host) s = .next (s.count GLB_REJECT)) ∧
    (exec (.h0DcSet .host) s = .next (s.count GLB_REJECT)) ∧
    (exec (.h0DcClear .host) s = .next (s.count GLB_REJECT)) ∧
    (∀ nom, exec (.h0nomWrite .host nom) s = .next (s.count GLB_REJECT)) ∧
    (exec (.primaryReturn .host) s = .next (s.count GLB_REJECT)) ∧
    (∀ v, exec (.h1AngleWrite .host v) s = .next (s.count GLB_REJECT)) ∧
    (exec (.prkEnable .host) s = .next (s.count GLB_REJECT)) ∧
    (exec (.prkDisable .host) s = .next (s.count GLB_REJECT)) ∧
    (∀ page, exec (.prkEditRead .host page) s = .next (s.count GLB_REJECT)) ∧
    (∀ page, exec (.prkEditWrite .host page) s = .next (s.count GLB_REJECT)) ∧
    (∀ page, exec (.prkEditInsert .host page) s = .next (s.count GLB_REJECT)) ∧
    (∀ page, exec (.prkEditDelete .host page) s = .next (s.count GLB_REJECT)) ∧
    (∀ page, exec (.prkEditClear .host page) s = .next (s.count GLB_REJECT)) ∧
    (∀ page, exec (.prkEditCommit .host page) s = .next (s.count GLB_REJECT)) ∧
    (∀ page, exec (.prkSwapRequest .host page) s = .next (s.count GLB_REJECT)) ∧
    (∀ lo, exec (.ntmIncWrite .host lo) s = .next (s.count GLB_REJECT)) ∧
    (∀ v, exec (.ntmAdjStep .host v) s = .next (s.count GLB_REJECT)) ∧
    (∀ v, exec (.ntmAdjSlew .host v) s = .next (s.count GLB_REJECT)) ∧
    (exec (.ntmSet .host) s = .next (s.count GLB_REJECT)) ∧
    (exec (.ntmCmdFree .host) s = .next (s.count GLB_REJECT)) ∧
    (exec (.ntmCmdAcquire .host) s = .next (s.count GLB_REJECT)) ∧
    (exec (.ntmCmdLock .host) s = .next (s.count GLB_REJECT)) ∧
    (exec (.ntmCmdHold .host) s = .next (s.count GLB_REJECT)) ∧
    (∀ reg v, exec (.ntmMasteridWrite .host reg v) s = .next (s.count GLB_REJECT)) ∧
    (∀ e w, exec (.bobWakeWrite .host e w) s = .next (s.count GLB_REJECT)) ∧
    (∀ e slot, exec (.slotEnable .host e slot) s = .next (s.count GLB_REJECT)) ∧
    (∀ e slot, exec (.slotDisable .host e slot) s = .next (s.count GLB_REJECT)) ∧
    (∀ e, exec (.engineEnable .host e) s = .next (s.count GLB_REJECT)) ∧
    (∀ e, exec (.engineDisable .host e) s = .next (s.count GLB_REJECT)) ∧
    (∀ e, exec (.bobWdkick .host e) s = .next (s.count GLB_REJECT)) ∧
    (∀ mask, exec (.stitchPhaseEnable .host mask) s = .next (s.count GLB_REJECT)) ∧
    (∀ mask, exec (.stitchPhaseDisable .host mask) s = .next (s.count GLB_REJECT)) ∧
    (∀ chains, exec (.enumAssign .host chains) s = .next (s.count GLB_REJECT)) ∧
    (∀ chains, exec (.enumFill .host chains) s = .next (s.count GLB_REJECT)) ∧
    (∀ key, exec (.fltReleaseTripclr .host key) s = .next (s.count GLB_REJECT)) ∧
    (exec (.rdnEnable .host) s = .next (s.count GLB_REJECT)) ∧
    (exec (.rdnDisable .host) s = .next (s.count GLB_REJECT)) ∧
    (exec (.rdnClaimgo .host) s = .next (s.count GLB_REJECT)) ∧
    (exec (.rdnHoreq .host) s = .next (s.count GLB_REJECT)) ∧
    (exec (.rdnHoabort .host) s = .next (s.count GLB_REJECT)) ∧
    (exec (.runSet .host) s = .next (s.count GLB_REJECT)) ∧
    (exec (.runClear .host) s = .next (s.count GLB_REJECT)) ∧
    (∀ n, exec (.thmNstepWrite .host n) s = .next (s.count GLB_REJECT)) ∧
    (exec (.thmAck .host) s = .next (s.count GLB_REJECT)) ∧
    (∀ w, exec (.ageCellReset .host w) s = .next (s.count GLB_REJECT)) ∧
    (∀ lane, exec (.laneEnable .host lane) s = .next (s.count GLB_REJECT)) ∧
    (∀ lane, exec (.laneDisable .host lane) s = .next (s.count GLB_REJECT)) ∧
    (∀ lane, exec (.laneRetrain .host lane) s = .next (s.count GLB_REJECT)) ∧
    (∀ lane, exec (.lanePrbsEnable .host lane) s = .next (s.count GLB_REJECT)) ∧
    (∀ lane, exec (.lanePrbsDisable .host lane) s = .next (s.count GLB_REJECT)) ∧
    (∀ lane, exec (.prbsErrinj .host lane) s = .next (s.count GLB_REJECT)) ∧
    (∀ lane, exec (.eyeScanStart .host lane) s = .next (s.count GLB_REJECT)) ∧
    (∀ conv, exec (.sarEnable .host conv) s = .next (s.count GLB_REJECT)) ∧
    (∀ mask, exec (.adcSeqswGo .host mask) s = .next (s.count GLB_REJECT)) ∧
    (∀ conv input, exec (.adcUrgentRequest .host conv input) s = .next (s.count GLB_REJECT)) ∧
    (∀ sel vnom, exec (.refSelect .host sel vnom) s = .next (s.count GLB_REJECT)) ∧
    (∀ w, exec (.adcInject .host w) s = .next (s.count GLB_REJECT)) ∧
    (∀ chen, exec (.fastStreamStart .host chen) s = .next (s.count GLB_REJECT)) ∧
    (exec (.fastStreamStop .host) s = .next (s.count GLB_REJECT)) ∧
    (exec (.phuEnable .host) s = .next (s.count GLB_REJECT)) ∧
    (∀ conv, exec (.sarDisable .host conv) s = .next (s.count GLB_REJECT)) ∧
    (exec (.twLocate .host) s = .next (s.count GLB_REJECT)) ∧
    (∀ n w, exec (.memOwnerWrite .host n w) s = .next (s.count GLB_REJECT)) ∧
    (∀ n w, exec (.bankPowerRequest .host n w) s = .next (s.count GLB_REJECT)) ∧
    (∀ ring, exec (.ringEnable .host ring) s = .next (s.count GLB_REJECT)) ∧
    (∀ ring, exec (.ringDisable .host ring) s = .next (s.count GLB_REJECT)) ∧
    (∀ k, exec (.mailboxPop .host k) s = .next (s.count GLB_REJECT)) ∧
    (∀ k, exec (.mailboxPost .host k) s = .next (s.count GLB_REJECT)) ∧
    (exec (.nvmWriteGo .host) s = .next (s.count GLB_REJECT)) ∧
    (exec .mramImageCommit s = .next (s.count GLB_REJECT)) ∧
    (exec .lifecycleAdvance s = .next (s.count GLB_REJECT)) ∧
    (exec .fuseProgram s = .next (s.count GLB_REJECT)) ∧
    (exec .onDemandBist s = .next (s.count GLB_REJECT)) ∧
    (exec .secureWipe s = .next (s.count GLB_REJECT)) ∧
    (∀ w, exec (.warmReset .host w) s = .next (s.count GLB_REJECT)) ∧
    (exec .bootConfirm s = .next (s.count GLB_REJECT)) ∧
    (∀ sel, exec (.bootSelect .host sel) s = .next (s.count GLB_REJECT)) ∧
    (exec .shutdownStart s = .next (s.count GLB_REJECT)) ∧
    (exec .quietEnter s = .next (s.count GLB_REJECT)) ∧
    (exec .quietWakeCmd s = .next (s.count GLB_REJECT)) ∧
    (∀ a size v, exec (.registerWrite .host a size v) s = .next (s.count GLB_REJECT)) ∧
    (∀ ring v slots, s.bit GLB_STATUS_READY = true → exec (.ringDoorbell ring v slots) s = .next (s.count GLB_REJECT)) ∧
    (∀ off data, s.bar4Open off.toNat data.length = true → exec (.bar4Write off data) s = .next (s.count GLB_REJECT))

/-- For every state and every register of the layout of R41: while COUNT is below 0x7FFFFFFE a count adds one and keeps SAT;
from there on the register reads COUNT 0x7FFFFFFF with SAT 1, and a further count changes nothing. Every other register, all
of memory and what has left the device stay as they were. -/
def Obligations.CountersSaturate : Prop :=
  ∀ (s : State) (a : Nat),
    (bitsOf (s.rdN a) 0 31 < 0x7FFFFFFE →
      bitsOf ((s.count a).rdN a) 0 31 = bitsOf (s.rdN a) 0 31 + 1 ∧ bitsOf ((s.count a).rdN a) 31 1 = bitsOf (s.rdN a) 31 1) ∧
    (0x7FFFFFFE ≤ bitsOf (s.rdN a) 0 31 → (s.count a).rdN a = 0xFFFFFFFF ∧ ((s.count a).count a).rdN a = 0xFFFFFFFF) ∧
    (∀ b, b ≠ a → (s.count a).rd b = s.rd b) ∧ (s.count a).mem = s.mem ∧ (s.count a).out = s.out

/-- For all angle words a, b and c, VA.BTW of a with the arc from b to c gives 1 exactly when a is b plus an offset below the
length of the arc (modulo a turn), and 0 otherwise; the arc may be longer than half a turn. With rs2 = rs3 it gives 0 for
every a, and an angle equal to rs3 is outside. -/
def Obligations.ArcTest : Prop :=
  ∀ a b c : Nat, a < 2 ^ 32 → b < 2 ^ 32 → c < 2 ^ 32 →
    (vaBtw a b c = 1 ↔ ∃ k, k < (c + (2 ^ 32 - b)) % 2 ^ 32 ∧ a = (b + k) % 2 ^ 32) ∧
    (vaBtw a b c = 0 ↔ ¬ ∃ k, k < (c + (2 ^ 32 - b)) % 2 ^ 32 ∧ a = (b + k) % 2 ^ 32) ∧
    vaBtw a b b = 0 ∧ vaBtw c b c = 0

/-- rnd of an exact product by a power of two is within half a unit, and a tie goes away from zero. sat32 and sat16 give the
value where it fits the signed range and the nearer limit where it does not. Each VQ and VS instruction is the saturated sum
of its exact products, rounded where its format says so; a MAC adds to the value that rd holds. VQ.MULQ31 of 0x80000000 by
0x80000000 gives 0x7FFFFFFF. Retiring the result leaves fcsr, so the flags, as they were. -/
def Obligations.FixedPointArithmetic : Prop :=
  (∀ (z : Int) (k : Nat), 0 < k →
    2 * (z - rndDiv z k * (2 ^ k : Nat)).natAbs ≤ 2 ^ k ∧
    (2 * (z - rndDiv z k * (2 ^ k : Nat)).natAbs = 2 ^ k → z.natAbs < (rndDiv z k * (2 ^ k : Nat)).natAbs)) ∧
  (∀ z : Int, toSigned 32 (sat32 z) = max (-(2 ^ 31)) (min (2 ^ 31 - 1) z)) ∧
  (∀ z : Int, sat16 z = max (-(2 ^ 15)) (min (2 ^ 15 - 1) z)) ∧
  (∀ a b, vqMulq31 a b = sat32 (rndDiv (toSigned 32 a * toSigned 32 b) 31)) ∧
  (∀ d a b, vqMacq31 d a b = sat32 (toSigned 32 d + rndDiv (toSigned 32 a * toSigned 32 b) 31)) ∧
  (∀ d a b, vqMacq15 d a b = sat32 (toSigned 32 d + halfLo a * halfLo b)) ∧
  (∀ a, toSigned 32 (vqRndq15 a) = sat16 (rndDiv (toSigned 32 a) 15)) ∧
  (∀ a b, halfHi (vsAdd2 a b) = sat16 (halfHi a + halfHi b) ∧ halfLo (vsAdd2 a b) = sat16 (halfLo a + halfLo b)) ∧
  (∀ a b, halfHi (vsSub2 a b) = sat16 (halfHi a - halfHi b) ∧ halfLo (vsSub2 a b) = sat16 (halfLo a - halfLo b)) ∧
  (∀ d a b, vsMac2 d a b = sat32 (toSigned 32 d + halfHi a * halfHi b + halfLo a * halfLo b)) ∧
  (∀ a b, halfHi (vsMul2 a b) = sat16 (rndDiv (halfHi a * halfHi b) 15) ∧
    halfLo (vsMul2 a b) = sat16 (rndDiv (halfLo a * halfLo b) 15)) ∧
  vqMulq31 0x80000000 0x80000000 = 0x7FFFFFFF ∧
  (∀ (s : State) (e len rd a b : Nat) (g : Xop) (f : Nat → Nat → Nat → Nat),
    s.xvStep e (.xv g rd a b) len f = s.retireXv e len rd (f (s.xr e rd) (s.xr e a) (s.xr e b)) g) ∧
  (∀ (s : State) (e len rd v : Nat) (g : Xop), ((s.retireXv e len rd v g).ctx e).fcsr = (s.ctx e).fcsr)

/-- For every state, engine and value, retiring with a result in x[rd] makes x[rd] read the value (x0 reads 0), moves the PC on
by the instruction's length and counts one retired instruction. Every other x register, every f register, fcsr, every other
slot of the engine, every other engine, the engine's write buffer and fetch buffer, every register of BAR0, all of memory,
the agenda and what has left the device stay as they were. -/
def Obligations.RetireWritesOneRegister : Prop :=
  ∀ (s : State) (e len rd v lat mac issue : Nat),
    let t := s.retireX e len rd v lat mac issue
    t.engSlot e = s.engSlot e ∧ t.xr e rd = (if rd = 0 then 0 else v % 2 ^ 32) ∧
    (∀ r, r ≠ rd → t.xr e r = s.xr e r) ∧ (∀ r, t.fr e r = s.fr e r) ∧ (t.ctx e).fcsr = (s.ctx e).fcsr ∧
    (t.ctx e).pc = ((s.ctx e).pc + len) % 2 ^ 32 ∧ (t.eng e).instret = (s.eng e).instret + 1 ∧
    (∀ k, k ≠ s.engSlot e → t.slot e k = s.slot e k) ∧ (∀ j, j ≠ e → t.eng j = s.eng j) ∧
    (t.eng e).buf = (s.eng e).buf ∧ (t.eng e).fetchBuf = (s.eng e).fetchBuf ∧
    t.regs = s.regs ∧ t.mem = s.mem ∧ t.agenda = s.agenda ∧ t.out = s.out ∧ t.tick = s.tick

/-- For every state and exact value x (times 2^96) from -1 to below 1, the Q1.31 result is within 4 LSB of x and the Q1.15
result within 1 LSB; which value within the bound is a free value (log entry 2), so this holds for every one. The result for
+1 is 0x7FFFFFFF, of VC.SC 0x7FFF. -/
def Obligations.CordicWithinBound : Prop :=
  ∀ (s : State) (x : Int), -(2 ^ 96) ≤ x →
    (x < 2 ^ 96 →
      ((s.cordic 32 4 x).1 * 2 ^ 65 - x).natAbs ≤ 4 * 2 ^ 65 ∧ -(2 ^ 31) ≤ (s.cordic 32 4 x).1 ∧ (s.cordic 32 4 x).1 < 2 ^ 31 ∧
      ((s.cordic 16 1 x).1 * 2 ^ 81 - x).natAbs ≤ 2 ^ 81 ∧ -(2 ^ 15) ≤ (s.cordic 16 1 x).1 ∧ (s.cordic 16 1 x).1 < 2 ^ 15) ∧
    (x = 2 ^ 96 → (s.cordic 32 4 x).1 = 0x7FFFFFFF ∧ (s.cordic 16 1 x).1 = 0x7FFF)

/-- For every state in which no leg has both its gates commanded on, a PWM_TRANSITION, DEAD_TIME_END, GATE_ACK_INPUT or
PICOT_PULSE_END of any leg answers a state in which no leg has. -/
def Obligations.NeverBothSidesOn : Prop :=
  ∀ s : State, s.noShootThrough →
    (∀ n high t, exec (.pwmTransition n high) s = .next t → t.noShootThrough) ∧
    (∀ n t, exec (.deadTimeEnd n) s = .next t → t.noShootThrough) ∧
    (∀ n high level t, exec (.gateAckInput n high level) s = .next t → t.noShootThrough) ∧
    (∀ n t, exec (.picotPulseEnd n) s = .next t → t.noShootThrough)

/-- For every state and leg: if trying to turn on the waiting side leaves a side commanded on that was not, then no dead time of
the leg ran, the opposite side was not commanded on and, with HSK 1, the opposite side's gate-off acknowledge showed 1; and
the side was the one that waited. -/
def Obligations.TurnOnWaits : Prop :=
  ∀ (s : State) (n t : Nat) (high : Bool), n < 12 →
    s.sideOn n high = false → (s.tryTurnOn n t).sideOn n high = true →
      s.bit (PWM_STATUS_DTRUN n) = false ∧ s.sideOn n (!high) = false ∧
      (s.bit (PWM_CFG_HSK n) = true → s.gateFb n (!high) = true) ∧ (s.leg n).want = (if high then .high else .low)

/-- For every state in which a line has begun to be written through the port, MRAM_LINE_WRITTEN answers a state in which the
bytes of the line read as the data and every other byte of memory as before, WBUSY is 0, NVM_WRLINES counted, the port is
free, and every register but NVM_STATUS, NVM_WRLINES and the armed ECC injection reads as before. -/
def Obligations.MramLineReachesMemory : Prop :=
  ∀ (s : State) (a : Nat) (l : List Byte), s.nvm.port = some (a, l) → s.nvm.started = true →
    ∃ t, exec .mramLineWritten s = .next t ∧
      (∀ i, i < l.length → t.memB (0x50000000 + a + i) = l.getD i 0#8) ∧ sameMemBut (0x50000000 + a) l.length s t ∧
      t.bit NVM_STATUS_WBUSY = false ∧ t.rdN NVM_WRLINES = (s.rdN NVM_WRLINES + 1) % 2 ^ 32 ∧ t.nvm.port = none ∧
      sameRegsBut [NVM_STATUS, NVM_WRLINES, FLT_ECCINJ] s t

/-- For every state in which a wipe goes on, SECURE_WIPE_DONE answers a state in which every byte of the secure bank reads 0,
every other byte of memory reads as before, WIPING is 0, RESTART is 1, and every register but SEC_STATUS reads as before.
When no wipe goes on it changes nothing. -/
def Obligations.WipeClearsVault : Prop :=
  ∀ s : State,
    (s.bit SEC_STATUS_WIPING = true →
      ∃ t, exec .secureWipeDone s = .next t ∧
        (∀ i, i < 0x10000 → t.memB (0x70000000 + i) = 0#8) ∧ sameMemBut 0x70000000 0x10000 s t ∧
        t.bit SEC_STATUS_WIPING = false ∧ t.bit SEC_STATUS_RESTART = true ∧ sameRegsBut [SEC_STATUS] s t) ∧
    (s.bit SEC_STATUS_WIPING = false → exec .secureWipeDone s = .next s)

/-- For every state, master and register address below 2^20: the captured word reads back; a capture by another master, or of
another pair, is as before; a held high word takes effect once, and until then is the master's own; and no register, no byte
of memory changes. -/
def Obligations.CapturesAreSeparate : Prop :=
  ∀ (s : State) (m : Master) (a n : Nat), a < 2 ^ 20 → n < 2 ^ 32 →
    ((s.capture m a n).captured m a).toNat = n ∧
    (∀ m' a', a' < 2 ^ 20 → (m' ≠ m ∨ a' ≠ a) →
      (s.capture m a n).captured m' a' = s.captured m' a' ∧ (s.hold m a n).heldN m' a' = s.heldN m' a') ∧
    (s.hold m a n).heldN m a = n ∧ ((s.hold m a n).unhold m a).heldN m a = s.rdN a ∧
    (s.capture m a n).regs = s.regs ∧ (s.capture m a n).mem = s.mem ∧ (s.hold m a n).regs = s.regs ∧ (s.hold m a n).mem = s.mem

/-- For every state, the advance of a tick adds to the exact time the increment and, while a remainder of a slew is left, its
part: at most the slew step in magnitude, in the direction of the remainder, which it shortens by the same amount. The
nanoseconds stay below 10^9, the fraction below 2^32, and no step is counted. -/
def Obligations.NetworkTimeAdvances : Prop :=
  ∀ s : State,
    let t := s.ntmAdvance
    let part : Int := s.ntm.rem - t.ntm.rem
    (0 ≤ (s.ntm.exact : Int) + s.ntmInc + part → (t.ntm.exact : Int) = s.ntm.exact + s.ntmInc + part) ∧
    part.natAbs ≤ s.slewDelta ∧ (0 ≤ s.ntm.rem → 0 ≤ part ∧ part ≤ s.ntm.rem) ∧ (s.ntm.rem ≤ 0 → s.ntm.rem ≤ part ∧ part ≤ 0) ∧
    t.ntm.ns < 1000000000 ∧ t.ntm.frac < 2 ^ 32 ∧ t.rd NTM_STEPCNT = s.rd NTM_STEPCNT

/-- For every list of entries sorted by SRC, then ANGLE, and every entry: the list with the entry inserted is sorted, holds
exactly the old entries and the new one, in their old order around it; the answered index is where the new entry stands,
every entry before it sorts before or with it, and every entry after it sorts strictly after it. -/
def Obligations.InsertKeepsOrder : Prop :=
  ∀ (l : List (BitVec 128)) (e : BitVec 128), l.Pairwise (fun x y => entLe x y = true) →
    (entInsert e l).1.Pairwise (fun x y => entLe x y = true) ∧
    (entInsert e l).1 = l.take (entInsert e l).2 ++ e :: l.drop (entInsert e l).2 ∧ (entInsert e l).2 ≤ l.length ∧
    (∀ x ∈ l.take (entInsert e l).2, entLe x e = true) ∧ (∀ x ∈ l.drop (entInsert e l).2, entLe x e = false)

/-- For every state with MSI-X enabled and every vector: a message of an unmasked vector leaves the device and changes nothing
else; one of a masked vector sets its pending bit, no other, and nothing leaves the device; unmasking a vector that pends
sends its message once and clears the bit. With MSI-X disabled a message changes nothing. -/
def Obligations.MaskedVectorPends : Prop :=
  ∀ (s : State) (v : Fin 64) (addr : BitVec 64) (data : Word),
    (s.bit HIF_STATUS_MSIXEN = false → s.msix v.val = s) ∧
    (s.bit HIF_STATUS_MSIXEN = true → s.hif.msixUnmasked.getLsbD v.val = true → s.msix v.val = s.emit (.msix v.val)) ∧
    (s.bit HIF_STATUS_MSIXEN = true → s.hif.msixUnmasked.getLsbD v.val = false →
      (s.msix v.val).out = s.out ∧ (s.msix v.val).regs = s.regs ∧ (s.msix v.val).mem = s.mem ∧
      (∀ i, i < 64 → (s.msix v.val).hif.msixPend.getLsbD i = (s.hif.msixPend.getLsbD i || i == v.val)) ∧
      ∃ t, exec (.msixUnmask v false addr data) (s.msix v.val) = .next t ∧
        t.out = .msix v.val :: s.out ∧ t.hif.msixPend.getLsbD v.val = false ∧ t.regs = s.regs ∧ t.mem = s.mem)

/-- For every state whose FIFO holds at most 512 records and every record, it still does when the record is pushed. With room
the record is the last in, with the next identifier; without room the FIFO is as before, FLT_LOST counts (unless it is the
episode's own record, which is held aside), and source 0xFE is raised at the start of an episode only. -/
def Obligations.LogFifoHolds512 : Prop :=
  ∀ (s : State) (r : FltRec), s.flt.fifo.length ≤ 512 →
    (s.pushRec r).1.flt.fifo.length ≤ 512 ∧
    (s.flt.fifo.length < 512 → r.update = false →
      (s.pushRec r).1.flt.fifo = s.flt.fifo ++ [{ r with recid := s.rdN FLT_NEXTID }] ∧ (s.pushRec r).2 = []) ∧
    (s.flt.fifo.length = 512 → r.src ≠ 0xFE →
      (s.pushRec r).1.flt.fifo = s.flt.fifo ∧ (s.pushRec r).1.rd FLT_LOST = (s.count FLT_LOST).rd FLT_LOST ∧
      (s.pushRec r).2 = if s.flt.overflow then [] else [{ src := 0xFE, inst := 0xFF, detail := 0 }]) ∧
    (s.pushRec r).1.mem = s.mem

/-- For every state in which the oldest posted store of an engine is a plain one that is due and that its target, a bank,
accepts: when it reaches its target it leaves the write buffer, the stored bytes read as its data, little-endian, and every
other byte of memory reads as before. -/
def Obligations.PostedStoreWritesItsBytes : Prop :=
  ∀ (s : State) (e : Nat) (p : Posted) (rest : List Posted) (b : Nat),
    (s.eng e).buf = p :: rest → p.kind = .plain → p.due ≤ s.tick → regionOf p.addr = .bank b →
    s.engAcc e p.addr p.size true = .ok →
      ((s.acceptStore e).eng e).buf = rest ∧
      (∀ i, i < p.size → (s.acceptStore e).memB (p.addr + i) = BitVec.ofNat 8 (p.data / 256 ^ i)) ∧
      sameMemBut p.addr p.size s (s.acceptStore e)

/-- For every state and slot of an engine that runs and is not held. A DISABLED slot is left as it is. Else the wake is counted
in BOB_SWAKE. A READY or RUNNING slot drops it, counted in BOB_SDROP. An IDLE or WAITING slot with SKIP set consumes it:
SKIP is cleared, the drop counted. One whose wake is deferred counts it in BOB_SDEFER and keeps its state. Else the slot
becomes READY with the wake word in its context, to start fresh from IDLE or resume from WAITING, and its dispatch is
scheduled. -/
def Obligations.WakeTable : Prop :=
  ∀ (s : State) (e k word : Nat), e < 16 → k < 8 → s.bit (BOB_STATUS_RUNNING e) = true → s.bit (BOB_STATUS_HELD e) = false →
    (s.slotState e k = slDisabled → s.wake e k word = s) ∧
    (s.slotState e k = slReady ∨ s.slotState e k = slRunning →
      s.wake e k word = (s.incr (BOB_SWAKE e k)).count (BOB_SDROP e k)) ∧
    (s.slotState e k = slIdle ∨ s.slotState e k = slWaiting → s.bit (BOB_SSTAT_SKIP e k) = true →
      (s.wake e k word).slotState e k = s.slotState e k ∧ (s.wake e k word).bit (BOB_SSTAT_SKIP e k) = false ∧
      (s.wake e k word).rd (BOB_SDROP e k) = (s.count (BOB_SDROP e k)).rd (BOB_SDROP e k) ∧
      (s.wake e k word).rdN (BOB_SWAKE e k) = (s.rdN (BOB_SWAKE e k) + 1) % 2 ^ 32 ∧ (s.wake e k word).agenda = s.agenda) ∧
    (s.slotState e k = slIdle ∨ s.slotState e k = slWaiting → s.bit (BOB_SSTAT_SKIP e k) = false → s.deferred e k = true →
      (s.wake e k word).slotState e k = s.slotState e k ∧
      (s.wake e k word).rd (BOB_SDEFER e k) = (s.count (BOB_SDEFER e k)).rd (BOB_SDEFER e k) ∧
      (s.wake e k word).agenda = s.agenda) ∧
    (s.slotState e k = slIdle ∨ s.slotState e k = slWaiting → s.bit (BOB_SSTAT_SKIP e k) = false → s.deferred e k = false →
      (s.wake e k word).slotState e k = slReady ∧
      (s.wake e k word).slot e k =
        { s.slot e k with wake := BitVec.ofNat 32 word, mode := if s.slotState e k = slWaiting then 1 else 0 } ∧
      (s.wake e k word).agenda = s.agenda ++ [(s.tick + 4, .slotDispatch (engIx e))]) ∧
    (∀ a, a ≠ BOB_SWAKE e k → a ≠ BOB_SDROP e k → a ≠ BOB_SDEFER e k → a ≠ BOB_SSTAT e k → (s.wake e k word).rd a = s.rd a) ∧
    (s.wake e k word).mem = s.mem

/-- For every state after READY without a long operation and every command ring: a doorbell whose value the ring accepts answers
a state in which HOST reads that value, every register but the ring's index register reads as before, and memory and the
agenda are as before; one that it does not accept leaves the index register as it was and is counted in HIF_DBREF. -/
def Obligations.DoorbellMovesHostIndex : Prop :=
  ∀ (s : State) (ring : Fin 32) (v : Word) (slots : List Slot), s.bit GLB_STATUS_READY = true → s.bit GLB_STATUS_BUSY = false →
    ring.val < 8 →
    (s.doorbellOk ring.val v.toNat = true →
      ∃ t, exec (.ringDoorbell ring v slots) s = .next t ∧ t.ringHost ring.val = v.toNat ∧ t.ringDev ring.val = s.ringDev ring.val ∧
        sameRegsBut [HIF_RIDX ring.val] s t ∧ t.mem = s.mem ∧ t.agenda = s.agenda ∧ t.out = s.out) ∧
    (s.doorbellOk ring.val v.toNat = false → exec (.ringDoorbell ring v slots) s = .next ((s.count HIF_DBREF).evtHif HIF_EVT_DBREF))

/-- For every state of a standby unit, the actions TASK_WAKE, CELL_SNAPSHOT, AGE_PROBE, ROTATE_POINT, PWM_COMMIT, GPIO_SET,
GPIO_CLR and HANDOVER_POINT change nothing. (The other actions do not ask for the role.) -/
def Obligations.StandbyActions : Prop :=
  ∀ s : State, s.standby = true →
    (∀ g a, exec (.taskWake g a) s = .next s) ∧ (∀ c k, exec (.cellSnapshot c k) s = .next s) ∧
    (∀ c p, exec (.ageProbe c p) s = .next s) ∧ (∀ p, exec (.rotatePoint p) s = .next s) ∧
    (∀ l, exec (.pwmCommit l) s = .next s) ∧ (∀ p, exec (.gpioSet p) s = .next s) ∧ (∀ p, exec (.gpioClr p) s = .next s) ∧
    exec .handoverPoint s = .next s

/-- For every register that is no counter and whose fields do not overlap, every field in the word and every written word: after
the store an RW field reads the written value (or the value that the register stores in its place), an RWL field so while
the lock is open and its old value once it is locked, a W1C field its old bits less the written ones, a W1S field both, an
RO field its old value; a WO field stores nothing. Bits of no field, every other register and all of memory read as before. -/
def Obligations.FieldTypesAct : Prop :=
  ∀ (s : State) (a w : Nat) (locked : Bool) (r : RegRow), regRow a = some r → r.counter = false →
    r.fields.Pairwise (fun x y => x.lo + x.width ≤ y.lo ∨ y.lo + y.width ≤ x.lo) →
    (∀ f ∈ r.fields, f.lo + f.width ≤ 32) →
      (∀ f ∈ r.fields, (s.regStore a locked w).fld ⟨a, f.lo, f.width⟩ =
        match f.ty with
        | .rw => f.stored (bitsOf w f.lo f.width) % 2 ^ f.width
        | .rwl => if locked then s.fld ⟨a, f.lo, f.width⟩ else f.stored (bitsOf w f.lo f.width) % 2 ^ f.width
        | .w1c => s.fld ⟨a, f.lo, f.width⟩ - (s.fld ⟨a, f.lo, f.width⟩ &&& bitsOf w f.lo f.width)
        | .w1s => s.fld ⟨a, f.lo, f.width⟩ ||| bitsOf w f.lo f.width
        | .ro | .wo => s.fld ⟨a, f.lo, f.width⟩) ∧
      (∀ i, i < 32 → (∀ f ∈ r.fields, i < f.lo ∨ f.lo + f.width ≤ i) → (s.regStore a locked w).rbit a i = s.rbit a i) ∧
      sameRegsBut [a] s (s.regStore a locked w) ∧ (s.regStore a locked w).mem = s.mem

/-- For every state and operands, these commands answer a state in which every register reads as before but the one (or two)
named, every byte of memory reads as before and nothing has left the device, but for the messages that a configuration write
with MSI-X enabled may send and the rising edge of 1PPS_OUT: the link up and configuration writes (HIF_STATUS), the PCIe
reference (GLB_CLKSTAT), the 10 MHz reference (GLB_CLKSTAT, NTM_STATUS), the settled reference (ADC_REFSTAT), an Ethernet
link change (ETH_STATUS of the port), the end of a slew (NTM_STATUS), of a hold-off and of an arming (TWU_STATUS), of the
control lock (RDN_STATUS), the 1PPS output, the expiry of PRP entries and the close of a fault window (none), the heartbeat
(THB_HEART), the PRBS checker's lock (LNK_PRBS of the lane), a recentre (LNK_ESKIP of the lane), a tracking step and the end
of CTLE training (LNK_STATUS of the lane), a handover point, a rotation and a delay exchange that is wanted (none). -/
def Obligations.StatusCommandsFrame : Prop :=
  ∀ s : State,
    (∀ sp w t, exec (.pcieLinkUp sp w) s = .next t → frame [HIF_STATUS] s t) ∧
    (∀ b x d t, exec (.pcieConfigWrite b x d) s = .next t → sameRegsBut [HIF_STATUS] s t ∧ sameMem s t ∧ (x = false → t.out = s.out)) ∧
    (∀ t, exec .pcieRefLoss s = .next t → frame [GLB_CLKSTAT] s t) ∧
    (∀ t, exec .pcieRefDetect s = .next t → frame [GLB_CLKSTAT] s t) ∧
    (∀ t, exec .ref10mDetect s = .next t → frame [GLB_CLKSTAT, NTM_STATUS] s t) ∧
    (∀ b t, exec (.refSettled b) s = .next t → frame [ADC_REFSTAT] s t) ∧
    (∀ p a b c d t, exec (.ethLinkChange p a b c d) s = .next t → frame [ETH_STATUS p.val] s t) ∧
    (∀ t, exec .ntmSlewComplete s = .next t → frame [NTM_STATUS] s t) ∧
    (∀ t, exec .twHoldoffEnd s = .next t → frame [TWU_STATUS] s t) ∧
    (∀ t, exec .twArmExpire s = .next t → frame [TWU_STATUS] s t) ∧
    (∀ t, exec .ctlockTimeout s = .next t → frame [RDN_STATUS] s t) ∧
    (∀ t, exec .ppsOutPulse s = .next t → sameRegsBut [] s t ∧ sameMem s t ∧ (t.out = s.out ∨ t.out = .ppsRise s.ntm.ppsSub :: s.out)) ∧
    (∀ t, exec .ppsOutPulseEnd s = .next t → frame [] s t) ∧
    (∀ t, exec .prpEntryExpire s = .next t → frame [] s t) ∧
    (∀ src t, exec (.faultWindowClose src) s = .next t → frame [] s t) ∧
    (∀ t, exec .thimbleHeartbeat s = .next t → frame [THB_HEART] s t) ∧
    (∀ l t, exec (.prbsCheckerLock l) s = .next t → frame [LNK_PRBS l.val] s t) ∧
    (∀ l t, exec (.elasticRecenter l) s = .next t → frame [LNK_ESKIP l.val] s t) ∧
    (∀ l u t, exec (.ctleTrackStep l u) s = .next t → frame [LNK_STATUS l.val] s t) ∧
    (∀ l b t, exec (.trainCtleDone l b) s = .next t → frame [LNK_STATUS l.val] s t) ∧
    (∀ t, exec .handoverPoint s = .next t → frame [] s t) ∧
    (∀ p t, exec (.rotatePoint p) s = .next t → frame [] s t) ∧
    (∀ c t, exec (.delayExchangePeriod c) s = .next t → frame [] s t)

/-- For every state and master, when the write is taken, these commands answer a state in which every register reads as before
but the one named, every byte of memory reads as before and nothing has left the device: a commit of a leg's pair
(PWM_STATUS of the leg), the enable of a converter (ADC_CTRL), the start of an eye scan (LNK_EYECTL of the lane), of a
location (TWU_LOCSTAT), a mailbox pop (HIF_MBCTL of the mailbox), and an engine's kick (none). -/
def Obligations.WriteCommandsFrame : Prop :=
  ∀ (s : State) (m : Master), taken m s →
    (∀ n t, exec (.pwmCtrlCommit m n) s = .next t → frame [PWM_STATUS n.val] s t) ∧
    (∀ c t, exec (.sarEnable m c) s = .next t → frame [ADC_CTRL] s t) ∧
    (∀ l t, exec (.eyeScanStart m l) s = .next t → frame [LNK_EYECTL l.val] s t) ∧
    (∀ t, exec (.twLocate m) s = .next t → frame [TWU_LOCSTAT] s t) ∧
    (∀ k t, exec (.mailboxPop m k) s = .next t → frame [HIF_MBCTL k.val] s t) ∧
    (∀ e t, exec (.bobWdkick m e) s = .next t → frame [] s t)

/-- For every state whose stream runs with the channels concerned: TW_ARM with a window above 0 answers a state in which the
arming ends at the later of its old end and ARG microseconds from now, with ARG 0 one in which it ends now; ARMED shows
whether the unit is armed after it; every register but TWU_STATUS and every byte of memory reads as before. -/
def Obligations.ArmingExtends : Prop :=
  ∀ (s : State) (mask : BitVec 4) (window : Word), s.twStream mask.toNat = true →
    ∃ t, exec (.twArm mask window) s = .next t ∧
      t.twu.armEnd = (if window.toNat = 0 then s.tick else max s.twu.armEnd (s.tick + us window.toNat)) ∧
      t.bit TWU_STATUS_ARMED = (s.bit TWU_CTRL_EN && (s.bit TWU_CTRL_CONT || decide (s.tick < t.twu.armEnd))) ∧
      frame [TWU_STATUS] s t

/-- For GLB_REJECT and GLB_TLMISS: both fields are 0 after reset; SAT is bit 31 and COUNT bits 30 to 0. A word write that is
taken leaves the register 0 where bit 31 is 1 and unchanged where it is 0, whatever its other bits, so that SAT is W1C and
COUNT is RO. A count adds one to COUNT, up to 0x7FFFFFFF, where SAT is set and where it stays. -/
def Obligations.CounterLayout : Prop :=
  ∀ a : BitVec 20, a = BitVec.ofNat 20 GLB_REJECT ∨ a = BitVec.ofNat 20 GLB_TLMISS →
    GLB_REJECT_SAT = ⟨GLB_REJECT, 31, 1⟩ ∧ GLB_REJECT_COUNT = ⟨GLB_REJECT, 0, 31⟩ ∧
    GLB_TLMISS_SAT = ⟨GLB_TLMISS, 31, 1⟩ ∧ GLB_TLMISS_COUNT = ⟨GLB_TLMISS, 0, 31⟩ ∧
    State.reset.fld ⟨a.toNat, 31, 1⟩ = 0 ∧ State.reset.fld ⟨a.toNat, 0, 31⟩ = 0 ∧
    ∀ s : State,
      (∀ (m : Master) (w : Word), taken m s →
        ∃ t, exec (.registerWrite m a 4 w) s = .next t ∧ frame [a.toNat] s t ∧
          t.rdN a.toNat = (if w.getLsbD 31 = true then 0 else s.rdN a.toNat)) ∧
      (s.count a.toNat).fld ⟨a.toNat, 0, 31⟩ = min 0x7FFFFFFF (s.fld ⟨a.toNat, 0, 31⟩ + 1) ∧
      (s.count a.toNat).bit ⟨a.toNat, 31, 1⟩ = (s.bit ⟨a.toNat, 31, 1⟩ || decide (0x7FFFFFFF ≤ s.fld ⟨a.toNat, 0, 31⟩ + 1))

/-- After reset GLB_ID holds PART 0x9620 in bits 31 to 16, FAMILY 0x56 in bits 15 to 8, MAJOR 1 in bits 7 to 4 and MINOR 0 in
bits 3 to 0. Its fields are RO: a word write that is taken has no effect at all, whoever sends it and whatever the word. -/
def Obligations.IdentityReads : Prop :=
  GLB_ID_PART = ⟨GLB_ID, 16, 16⟩ ∧ GLB_ID_FAMILY = ⟨GLB_ID, 8, 8⟩ ∧ GLB_ID_MAJOR = ⟨GLB_ID, 4, 4⟩ ∧ GLB_ID_MINOR = ⟨GLB_ID, 0, 4⟩ ∧
    State.reset.fld GLB_ID_PART = 0x9620 ∧ State.reset.fld GLB_ID_FAMILY = 0x56 ∧ State.reset.fld GLB_ID_MAJOR = 1 ∧
    State.reset.fld GLB_ID_MINOR = 0 ∧
    ∀ (s : State) (m : Master) (w : Word), taken m s →
      ∃ t, exec (.registerWrite m (BitVec.ofNat 20 GLB_ID) 4 w) s = .next t ∧ frame [] s t

/-- For every state with GLB_STATUS.CTRL_RUN 1, every master whose write is taken and every word, with GLB_LOCK.CFG set or
clear: the word write of GLB_CYCCFG answers the state that the event of fault source 0x07 alone gives, with the register's
block in INST (0xFE through an engine's mirror). That source is of class C after reset. -/
def Obligations.CycleConfigurationHeld : Prop :=
  State.reset.fld (FLT_SCFG_CLASS 0x07) = 0 ∧
    ∀ (s : State) (m : Master) (w : Word), taken m s → s.bit GLB_STATUS_CTRL_RUN = true →
      exec (.registerWrite m (BitVec.ofNat 20 GLB_CYCCFG) 4 w) s =
        .next (s.raise 0x07 (match m with | .eng _ _ => 0xFE | _ => 0x00))

/-- After a power-on reset these registers read as their tables say: GLB_ID 0x96205610, GLB_CYCCFG 0x1B580000, HOOP_H0LOOP
0x3383000A, HOOP_H1CFG 0x00001388, PRK_HORIZON 0x28, NTM_CTRL 0xC, NTM_INC 0x2_00000000, NTM_ADJCTL 0x10A, NTM_PPSCFG
0x27100001, NTM_REF10ERR 0x80000000, ETH_CTRL of each port 2 and ETH_PRPCFG 0x01900000, FLT_SCFG and FLT_SREACT of the
counting source 0x80 0x181003E8 and 0x701, MEM_OWN of engine bank e its own engine's number and mask. -/
def Obligations.ResetValues : Prop :=
  State.reset.rdN GLB_ID = 0x96205610 ∧ State.reset.rdN GLB_CYCCFG = 0x1B580000 ∧ State.reset.rdN HOOP_H0LOOP = 0x3383000A ∧
    State.reset.rdN HOOP_H1CFG = 0x1388 ∧ State.reset.rdN PRK_HORIZON = 0x28 ∧ State.reset.rdN NTM_CTRL = 0xC ∧
    State.reset.rdN NTM_INC_HI = 2 ∧ State.reset.rdN NTM_INC_LO = 0 ∧ State.reset.rdN NTM_ADJCTL = 0x10A ∧
    State.reset.rdN NTM_PPSCFG = 0x27100001 ∧ State.reset.rdN NTM_REF10ERR = 0x80000000 ∧
    (∀ p < 2, State.reset.rdN (ETH_CTRL p) = 2 ∧ State.reset.rdN (ETH_PRPCFG p) = 0x01900000) ∧
    State.reset.rdN (FLT_SCFG 0x80) = 0x181003E8 ∧ State.reset.rdN (FLT_SREACT 0x80) = 0x701 ∧
    (∀ e < 16, State.reset.rdN (MEM_OWN e) = e * 0x1000000 + 2 ^ e)
end

