-- ==== Sys2Proof/Laws/Sparse.lean ====
section
/-!
SUPPORT. The laws of the sparse tables that hold registers, memory and internal state: a read after a write gives the value
written, a write leaves every other key alone, and every operation keeps the canonical form.
-/

namespace Sys2Proof.Machine

variable {α : Type}

/-- Another key's entry is not erased. -/
theorem Sparse.get_erase_other (d : Nat → α) (l : List (Nat × α)) {a b : Nat} (h : b ≠ a) :
    Sparse.get d (Sparse.erase l a) b = Sparse.get d l b := by
  induction l with
  | nil => rfl
  | cons e t ih =>
    obtain ⟨k, v⟩ := e
    by_cases hk : k = a
    · have : k ≠ b := fun h' => h (h'.symm.trans hk)
      simpa [Sparse.erase, hk, Sparse.get, (hk ▸ this : a ≠ b)] using ih
    · have e1 : Sparse.erase ((k, v) :: t) a = (k, v) :: Sparse.erase t a := by simp [Sparse.erase, hk]
      rw [e1]
      simp only [Sparse.get]
      split
      · rfl
      · exact ih

/-- An erased key reads its default. -/
theorem Sparse.get_erase_same (d : Nat → α) (l : List (Nat × α)) (a : Nat) : Sparse.get d (Sparse.erase l a) a = d a := by
  induction l with
  | nil => rfl
  | cons e t ih =>
    obtain ⟨k, v⟩ := e
    by_cases hk : k = a
    · simpa [Sparse.erase, hk] using ih
    · have e1 : Sparse.erase ((k, v) :: t) a = (k, v) :: Sparse.erase t a := by simp [Sparse.erase, hk]
      rw [e1]
      simp only [Sparse.get, hk, if_false]
      exact ih

/-- An inserted key that was not listed reads the value inserted. -/
theorem Sparse.get_insert_same (d : Nat → α) (l : List (Nat × α)) (a : Nat) (v : α) (h : ∀ e ∈ l, e.1 ≠ a) :
    Sparse.get d (Sparse.insert a v l) a = v := by
  induction l with
  | nil => simp [Sparse.insert, Sparse.get]
  | cons e t ih =>
    obtain ⟨k, w⟩ := e
    simp only [Sparse.insert]
    split
    · simp [Sparse.get]
    · have hk : k ≠ a := h (k, w) (by simp)
      simp only [Sparse.get, hk, if_false]
      exact ih (fun e he => h e (by simp [he]))

/-- An insertion leaves other keys alone. -/
theorem Sparse.get_insert_other (d : Nat → α) (l : List (Nat × α)) {a b : Nat} (v : α) (h : b ≠ a) :
    Sparse.get d (Sparse.insert a v l) b = Sparse.get d l b := by
  induction l with
  | nil => simp [Sparse.insert, Sparse.get, Ne.symm h]
  | cons e t ih =>
    obtain ⟨k, w⟩ := e
    simp only [Sparse.insert]
    split
    · simp [Sparse.get, Ne.symm h]
    · simp only [Sparse.get]
      split
      · rfl
      · exact ih

/-- No entry of an erased key is left. -/
theorem Sparse.erase_ne (l : List (Nat × α)) (a : Nat) : ∀ e ∈ Sparse.erase l a, e.1 ≠ a := by
  intro e he
  simp only [Sparse.erase, List.mem_filter] at he
  simpa using he.2

variable [DecidableEq α]

/-- A read after a write gives the value written. -/
@[simp] theorem Sparse.get_put_same (d : Nat → α) (l : List (Nat × α)) (a : Nat) (v : α) :
    Sparse.get d (Sparse.put d l a v) a = v := by
  unfold Sparse.put
  split
  · next h => rw [Sparse.get_erase_same, h]
  · exact Sparse.get_insert_same d _ a v (Sparse.erase_ne l a)

/-- A write leaves every other key alone. -/
theorem Sparse.get_put_other (d : Nat → α) (l : List (Nat × α)) {a b : Nat} (v : α) (h : b ≠ a) :
    Sparse.get d (Sparse.put d l a v) b = Sparse.get d l b := by
  unfold Sparse.put
  split
  · exact Sparse.get_erase_other d l h
  · rw [Sparse.get_insert_other d _ v h, Sparse.get_erase_other d l h]

/-- Both at once. -/
theorem Sparse.get_put (d : Nat → α) (l : List (Nat × α)) (a b : Nat) (v : α) :
    Sparse.get d (Sparse.put d l a v) b = if b = a then v else Sparse.get d l b := by
  split
  · next h => subst h; simp
  · next h => exact Sparse.get_put_other d l v h

/-- The empty table is canonical. -/
theorem Sparse.wf_nil (d : Nat → α) : Sparse.wf d [] := ⟨List.Pairwise.nil, by simp⟩

/-- A part of a canonical table is canonical. -/
theorem Sparse.wf_filter (d : Nat → α) {l : List (Nat × α)} (p : Nat × α → Bool) (h : Sparse.wf d l) :
    Sparse.wf d (l.filter p) :=
  ⟨h.1.sublist List.filter_sublist, fun e he => h.2 e (List.mem_filter.mp he).1⟩

/-- The members of a table with an insertion. -/
theorem Sparse.mem_insert (a : Nat) (v : α) (l : List (Nat × α)) (e : Nat × α) :
    e ∈ Sparse.insert a v l ↔ e = (a, v) ∨ e ∈ l := by
  induction l with
  | nil => simp [Sparse.insert]
  | cons x t ih =>
    obtain ⟨k, w⟩ := x
    simp only [Sparse.insert]
    split
    · simp
    · simp only [List.mem_cons, ih]
      tauto

/-- An insertion of an unlisted key keeps the keys rising. -/
theorem Sparse.insert_rising (a : Nat) (v : α) (l : List (Nat × α)) (h : l.Pairwise (fun x y => x.1 < y.1))
    (hn : ∀ e ∈ l, e.1 ≠ a) : (Sparse.insert a v l).Pairwise (fun x y => x.1 < y.1) := by
  induction l with
  | nil => simp [Sparse.insert]
  | cons x t ih =>
    obtain ⟨k, w⟩ := x
    rw [List.pairwise_cons] at h
    simp only [Sparse.insert]
    split
    · next hk =>
      refine List.pairwise_cons.mpr ⟨?_, List.pairwise_cons.mpr h⟩
      intro e he
      rcases List.mem_cons.mp he with rfl | he
      · exact hk
      · exact Nat.lt_trans hk (h.1 e he)
    · next hk =>
      refine List.pairwise_cons.mpr ⟨?_, ih h.2 (fun e he => hn e (List.mem_cons_of_mem _ he))⟩
      intro e he
      rcases (Sparse.mem_insert a v t e).mp he with rfl | he
      · have : k ≠ a := hn (k, w) (by simp)
        show k < a
        omega
      · exact h.1 e he

/-- A write keeps the canonical form. -/
theorem Sparse.wf_put (d : Nat → α) {l : List (Nat × α)} (a : Nat) (v : α) (h : Sparse.wf d l) :
    Sparse.wf d (Sparse.put d l a v) := by
  have he : Sparse.wf d (Sparse.erase l a) := Sparse.wf_filter d _ h
  unfold Sparse.put
  split
  · exact he
  · next hv =>
    refine ⟨Sparse.insert_rising a v _ he.1 (Sparse.erase_ne l a), ?_⟩
    intro e hm
    rcases (Sparse.mem_insert a v _ e).mp hm with rfl | hm
    · exact hv
    · exact he.2 e hm

end Sys2Proof.Machine
end

