-- ==== Sys2Proof/Laws/State.lean ====
section
/-!
SUPPORT. What the updates of one field leave in the other fields: one lemma per field and update.
-/

namespace Sys2Proof.Machine

@[simp] theorem State.wr_mem (s : State) (a : Nat) (v : Word) : (s.wr a v).mem = s.mem := (rfl)
@[simp] theorem State.wr_tick (s : State) (a : Nat) (v : Word) : (s.wr a v).tick = s.tick := (rfl)
@[simp] theorem State.wr_flt (s : State) (a : Nat) (v : Word) : (s.wr a v).flt = s.flt := (rfl)
@[simp] theorem State.wr_legs (s : State) (a : Nat) (v : Word) : (s.wr a v).legs = s.legs := (rfl)
@[simp] theorem State.wr_selv (s : State) (a : Nat) (v : Word) : (s.wr a v).selv = s.selv := (rfl)
@[simp] theorem State.wr_hif (s : State) (a : Nat) (v : Word) : (s.wr a v).hif = s.hif := (rfl)
@[simp] theorem State.wr_ntm (s : State) (a : Nat) (v : Word) : (s.wr a v).ntm = s.ntm := (rfl)
@[simp] theorem State.wr_eth (s : State) (a : Nat) (v : Word) : (s.wr a v).eth = s.eth := (rfl)
@[simp] theorem State.wr_rdn (s : State) (a : Nat) (v : Word) : (s.wr a v).rdn = s.rdn := (rfl)
@[simp] theorem State.wr_stitch (s : State) (a : Nat) (v : Word) : (s.wr a v).stitch = s.stitch := (rfl)
@[simp] theorem State.wr_tat (s : State) (a : Nat) (v : Word) : (s.wr a v).tat = s.tat := (rfl)
@[simp] theorem State.wr_cel (s : State) (a : Nat) (v : Word) : (s.wr a v).cel = s.cel := (rfl)
@[simp] theorem State.wr_thm (s : State) (a : Nat) (v : Word) : (s.wr a v).thm = s.thm := (rfl)
@[simp] theorem State.wr_age (s : State) (a : Nat) (v : Word) : (s.wr a v).age = s.age := (rfl)
@[simp] theorem State.wr_lnk (s : State) (a : Nat) (v : Word) : (s.wr a v).lnk = s.lnk := (rfl)
@[simp] theorem State.wr_adc (s : State) (a : Nat) (v : Word) : (s.wr a v).adc = s.adc := (rfl)
@[simp] theorem State.wr_phu (s : State) (a : Nat) (v : Word) : (s.wr a v).phu = s.phu := (rfl)
@[simp] theorem State.wr_twu (s : State) (a : Nat) (v : Word) : (s.wr a v).twu = s.twu := (rfl)
@[simp] theorem State.wr_bank (s : State) (a : Nat) (v : Word) : (s.wr a v).bank = s.bank := (rfl)
@[simp] theorem State.wr_nvm (s : State) (a : Nat) (v : Word) : (s.wr a v).nvm = s.nvm := (rfl)
@[simp] theorem State.wr_bst (s : State) (a : Nat) (v : Word) : (s.wr a v).bst = s.bst := (rfl)
@[simp] theorem State.wr_flips (s : State) (a : Nat) (v : Word) : (s.wr a v).flips = s.flips := (rfl)
@[simp] theorem State.wr_hoop (s : State) (a : Nat) (v : Word) : (s.wr a v).hoop = s.hoop := (rfl)
@[simp] theorem State.wr_engs (s : State) (a : Nat) (v : Word) : (s.wr a v).engs = s.engs := (rfl)
@[simp] theorem State.wr_thb (s : State) (a : Nat) (v : Word) : (s.wr a v).thb = s.thb := (rfl)
@[simp] theorem State.wr_prk (s : State) (a : Nat) (v : Word) : (s.wr a v).prk = s.prk := (rfl)
@[simp] theorem State.wr_gpio (s : State) (a : Nat) (v : Word) : (s.wr a v).gpio = s.gpio := (rfl)
@[simp] theorem State.wr_caps (s : State) (a : Nat) (v : Word) : (s.wr a v).caps = s.caps := (rfl)
@[simp] theorem State.wr_held (s : State) (a : Nat) (v : Word) : (s.wr a v).held = s.held := (rfl)
@[simp] theorem State.wr_rdata (s : State) (a : Nat) (v : Word) : (s.wr a v).rdata = s.rdata := (rfl)
@[simp] theorem State.wr_out (s : State) (a : Nat) (v : Word) : (s.wr a v).out = s.out := (rfl)
@[simp] theorem State.wr_agenda (s : State) (a : Nat) (v : Word) : (s.wr a v).agenda = s.agenda := (rfl)
@[simp] theorem State.wr_freeCtr (s : State) (a : Nat) (v : Word) : (s.wr a v).freeCtr = s.freeCtr := (rfl)
@[simp] theorem State.wr_pending (s : State) (a : Nat) (v : Word) : (s.wr a v).pending = s.pending := (rfl)
@[simp] theorem State.wrN_mem (s : State) (a n : Nat) : (s.wrN a n).mem = s.mem := (rfl)
@[simp] theorem State.wrN_tick (s : State) (a n : Nat) : (s.wrN a n).tick = s.tick := (rfl)
@[simp] theorem State.wrN_flt (s : State) (a n : Nat) : (s.wrN a n).flt = s.flt := (rfl)
@[simp] theorem State.wrN_legs (s : State) (a n : Nat) : (s.wrN a n).legs = s.legs := (rfl)
@[simp] theorem State.wrN_selv (s : State) (a n : Nat) : (s.wrN a n).selv = s.selv := (rfl)
@[simp] theorem State.wrN_hif (s : State) (a n : Nat) : (s.wrN a n).hif = s.hif := (rfl)
@[simp] theorem State.wrN_ntm (s : State) (a n : Nat) : (s.wrN a n).ntm = s.ntm := (rfl)
@[simp] theorem State.wrN_eth (s : State) (a n : Nat) : (s.wrN a n).eth = s.eth := (rfl)
@[simp] theorem State.wrN_rdn (s : State) (a n : Nat) : (s.wrN a n).rdn = s.rdn := (rfl)
@[simp] theorem State.wrN_stitch (s : State) (a n : Nat) : (s.wrN a n).stitch = s.stitch := (rfl)
@[simp] theorem State.wrN_tat (s : State) (a n : Nat) : (s.wrN a n).tat = s.tat := (rfl)
@[simp] theorem State.wrN_cel (s : State) (a n : Nat) : (s.wrN a n).cel = s.cel := (rfl)
@[simp] theorem State.wrN_thm (s : State) (a n : Nat) : (s.wrN a n).thm = s.thm := (rfl)
@[simp] theorem State.wrN_age (s : State) (a n : Nat) : (s.wrN a n).age = s.age := (rfl)
@[simp] theorem State.wrN_lnk (s : State) (a n : Nat) : (s.wrN a n).lnk = s.lnk := (rfl)
@[simp] theorem State.wrN_adc (s : State) (a n : Nat) : (s.wrN a n).adc = s.adc := (rfl)
@[simp] theorem State.wrN_phu (s : State) (a n : Nat) : (s.wrN a n).phu = s.phu := (rfl)
@[simp] theorem State.wrN_twu (s : State) (a n : Nat) : (s.wrN a n).twu = s.twu := (rfl)
@[simp] theorem State.wrN_bank (s : State) (a n : Nat) : (s.wrN a n).bank = s.bank := (rfl)
@[simp] theorem State.wrN_nvm (s : State) (a n : Nat) : (s.wrN a n).nvm = s.nvm := (rfl)
@[simp] theorem State.wrN_bst (s : State) (a n : Nat) : (s.wrN a n).bst = s.bst := (rfl)
@[simp] theorem State.wrN_flips (s : State) (a n : Nat) : (s.wrN a n).flips = s.flips := (rfl)
@[simp] theorem State.wrN_hoop (s : State) (a n : Nat) : (s.wrN a n).hoop = s.hoop := (rfl)
@[simp] theorem State.wrN_engs (s : State) (a n : Nat) : (s.wrN a n).engs = s.engs := (rfl)
@[simp] theorem State.wrN_thb (s : State) (a n : Nat) : (s.wrN a n).thb = s.thb := (rfl)
@[simp] theorem State.wrN_prk (s : State) (a n : Nat) : (s.wrN a n).prk = s.prk := (rfl)
@[simp] theorem State.wrN_gpio (s : State) (a n : Nat) : (s.wrN a n).gpio = s.gpio := (rfl)
@[simp] theorem State.wrN_caps (s : State) (a n : Nat) : (s.wrN a n).caps = s.caps := (rfl)
@[simp] theorem State.wrN_held (s : State) (a n : Nat) : (s.wrN a n).held = s.held := (rfl)
@[simp] theorem State.wrN_rdata (s : State) (a n : Nat) : (s.wrN a n).rdata = s.rdata := (rfl)
@[simp] theorem State.wrN_out (s : State) (a n : Nat) : (s.wrN a n).out = s.out := (rfl)
@[simp] theorem State.wrN_agenda (s : State) (a n : Nat) : (s.wrN a n).agenda = s.agenda := (rfl)
@[simp] theorem State.wrN_freeCtr (s : State) (a n : Nat) : (s.wrN a n).freeCtr = s.freeCtr := (rfl)
@[simp] theorem State.wrN_pending (s : State) (a n : Nat) : (s.wrN a n).pending = s.pending := (rfl)
@[simp] theorem State.setF_mem (s : State) (g : Fld) (v : Nat) : (s.setF g v).mem = s.mem := (rfl)
@[simp] theorem State.setF_tick (s : State) (g : Fld) (v : Nat) : (s.setF g v).tick = s.tick := (rfl)
@[simp] theorem State.setF_flt (s : State) (g : Fld) (v : Nat) : (s.setF g v).flt = s.flt := (rfl)
@[simp] theorem State.setF_legs (s : State) (g : Fld) (v : Nat) : (s.setF g v).legs = s.legs := (rfl)
@[simp] theorem State.setF_selv (s : State) (g : Fld) (v : Nat) : (s.setF g v).selv = s.selv := (rfl)
@[simp] theorem State.setF_hif (s : State) (g : Fld) (v : Nat) : (s.setF g v).hif = s.hif := (rfl)
@[simp] theorem State.setF_ntm (s : State) (g : Fld) (v : Nat) : (s.setF g v).ntm = s.ntm := (rfl)
@[simp] theorem State.setF_eth (s : State) (g : Fld) (v : Nat) : (s.setF g v).eth = s.eth := (rfl)
@[simp] theorem State.setF_rdn (s : State) (g : Fld) (v : Nat) : (s.setF g v).rdn = s.rdn := (rfl)
@[simp] theorem State.setF_stitch (s : State) (g : Fld) (v : Nat) : (s.setF g v).stitch = s.stitch := (rfl)
@[simp] theorem State.setF_tat (s : State) (g : Fld) (v : Nat) : (s.setF g v).tat = s.tat := (rfl)
@[simp] theorem State.setF_cel (s : State) (g : Fld) (v : Nat) : (s.setF g v).cel = s.cel := (rfl)
@[simp] theorem State.setF_thm (s : State) (g : Fld) (v : Nat) : (s.setF g v).thm = s.thm := (rfl)
@[simp] theorem State.setF_age (s : State) (g : Fld) (v : Nat) : (s.setF g v).age = s.age := (rfl)
@[simp] theorem State.setF_lnk (s : State) (g : Fld) (v : Nat) : (s.setF g v).lnk = s.lnk := (rfl)
@[simp] theorem State.setF_adc (s : State) (g : Fld) (v : Nat) : (s.setF g v).adc = s.adc := (rfl)
@[simp] theorem State.setF_phu (s : State) (g : Fld) (v : Nat) : (s.setF g v).phu = s.phu := (rfl)
@[simp] theorem State.setF_twu (s : State) (g : Fld) (v : Nat) : (s.setF g v).twu = s.twu := (rfl)
@[simp] theorem State.setF_bank (s : State) (g : Fld) (v : Nat) : (s.setF g v).bank = s.bank := (rfl)
@[simp] theorem State.setF_nvm (s : State) (g : Fld) (v : Nat) : (s.setF g v).nvm = s.nvm := (rfl)
@[simp] theorem State.setF_bst (s : State) (g : Fld) (v : Nat) : (s.setF g v).bst = s.bst := (rfl)
@[simp] theorem State.setF_flips (s : State) (g : Fld) (v : Nat) : (s.setF g v).flips = s.flips := (rfl)
@[simp] theorem State.setF_hoop (s : State) (g : Fld) (v : Nat) : (s.setF g v).hoop = s.hoop := (rfl)
@[simp] theorem State.setF_engs (s : State) (g : Fld) (v : Nat) : (s.setF g v).engs = s.engs := (rfl)
@[simp] theorem State.setF_thb (s : State) (g : Fld) (v : Nat) : (s.setF g v).thb = s.thb := (rfl)
@[simp] theorem State.setF_prk (s : State) (g : Fld) (v : Nat) : (s.setF g v).prk = s.prk := (rfl)
@[simp] theorem State.setF_gpio (s : State) (g : Fld) (v : Nat) : (s.setF g v).gpio = s.gpio := (rfl)
@[simp] theorem State.setF_caps (s : State) (g : Fld) (v : Nat) : (s.setF g v).caps = s.caps := (rfl)
@[simp] theorem State.setF_held (s : State) (g : Fld) (v : Nat) : (s.setF g v).held = s.held := (rfl)
@[simp] theorem State.setF_rdata (s : State) (g : Fld) (v : Nat) : (s.setF g v).rdata = s.rdata := (rfl)
@[simp] theorem State.setF_out (s : State) (g : Fld) (v : Nat) : (s.setF g v).out = s.out := (rfl)
@[simp] theorem State.setF_agenda (s : State) (g : Fld) (v : Nat) : (s.setF g v).agenda = s.agenda := (rfl)
@[simp] theorem State.setF_freeCtr (s : State) (g : Fld) (v : Nat) : (s.setF g v).freeCtr = s.freeCtr := (rfl)
@[simp] theorem State.setF_pending (s : State) (g : Fld) (v : Nat) : (s.setF g v).pending = s.pending := (rfl)
@[simp] theorem State.setB_mem (s : State) (g : Fld) (b : Bool) : (s.setB g b).mem = s.mem := (rfl)
@[simp] theorem State.setB_tick (s : State) (g : Fld) (b : Bool) : (s.setB g b).tick = s.tick := (rfl)
@[simp] theorem State.setB_flt (s : State) (g : Fld) (b : Bool) : (s.setB g b).flt = s.flt := (rfl)
@[simp] theorem State.setB_legs (s : State) (g : Fld) (b : Bool) : (s.setB g b).legs = s.legs := (rfl)
@[simp] theorem State.setB_selv (s : State) (g : Fld) (b : Bool) : (s.setB g b).selv = s.selv := (rfl)
@[simp] theorem State.setB_hif (s : State) (g : Fld) (b : Bool) : (s.setB g b).hif = s.hif := (rfl)
@[simp] theorem State.setB_ntm (s : State) (g : Fld) (b : Bool) : (s.setB g b).ntm = s.ntm := (rfl)
@[simp] theorem State.setB_eth (s : State) (g : Fld) (b : Bool) : (s.setB g b).eth = s.eth := (rfl)
@[simp] theorem State.setB_rdn (s : State) (g : Fld) (b : Bool) : (s.setB g b).rdn = s.rdn := (rfl)
@[simp] theorem State.setB_stitch (s : State) (g : Fld) (b : Bool) : (s.setB g b).stitch = s.stitch := (rfl)
@[simp] theorem State.setB_tat (s : State) (g : Fld) (b : Bool) : (s.setB g b).tat = s.tat := (rfl)
@[simp] theorem State.setB_cel (s : State) (g : Fld) (b : Bool) : (s.setB g b).cel = s.cel := (rfl)
@[simp] theorem State.setB_thm (s : State) (g : Fld) (b : Bool) : (s.setB g b).thm = s.thm := (rfl)
@[simp] theorem State.setB_age (s : State) (g : Fld) (b : Bool) : (s.setB g b).age = s.age := (rfl)
@[simp] theorem State.setB_lnk (s : State) (g : Fld) (b : Bool) : (s.setB g b).lnk = s.lnk := (rfl)
@[simp] theorem State.setB_adc (s : State) (g : Fld) (b : Bool) : (s.setB g b).adc = s.adc := (rfl)
@[simp] theorem State.setB_phu (s : State) (g : Fld) (b : Bool) : (s.setB g b).phu = s.phu := (rfl)
@[simp] theorem State.setB_twu (s : State) (g : Fld) (b : Bool) : (s.setB g b).twu = s.twu := (rfl)
@[simp] theorem State.setB_bank (s : State) (g : Fld) (b : Bool) : (s.setB g b).bank = s.bank := (rfl)
@[simp] theorem State.setB_nvm (s : State) (g : Fld) (b : Bool) : (s.setB g b).nvm = s.nvm := (rfl)
@[simp] theorem State.setB_bst (s : State) (g : Fld) (b : Bool) : (s.setB g b).bst = s.bst := (rfl)
@[simp] theorem State.setB_flips (s : State) (g : Fld) (b : Bool) : (s.setB g b).flips = s.flips := (rfl)
@[simp] theorem State.setB_hoop (s : State) (g : Fld) (b : Bool) : (s.setB g b).hoop = s.hoop := (rfl)
@[simp] theorem State.setB_engs (s : State) (g : Fld) (b : Bool) : (s.setB g b).engs = s.engs := (rfl)
@[simp] theorem State.setB_thb (s : State) (g : Fld) (b : Bool) : (s.setB g b).thb = s.thb := (rfl)
@[simp] theorem State.setB_prk (s : State) (g : Fld) (b : Bool) : (s.setB g b).prk = s.prk := (rfl)
@[simp] theorem State.setB_gpio (s : State) (g : Fld) (b : Bool) : (s.setB g b).gpio = s.gpio := (rfl)
@[simp] theorem State.setB_caps (s : State) (g : Fld) (b : Bool) : (s.setB g b).caps = s.caps := (rfl)
@[simp] theorem State.setB_held (s : State) (g : Fld) (b : Bool) : (s.setB g b).held = s.held := (rfl)
@[simp] theorem State.setB_rdata (s : State) (g : Fld) (b : Bool) : (s.setB g b).rdata = s.rdata := (rfl)
@[simp] theorem State.setB_out (s : State) (g : Fld) (b : Bool) : (s.setB g b).out = s.out := (rfl)
@[simp] theorem State.setB_agenda (s : State) (g : Fld) (b : Bool) : (s.setB g b).agenda = s.agenda := (rfl)
@[simp] theorem State.setB_freeCtr (s : State) (g : Fld) (b : Bool) : (s.setB g b).freeCtr = s.freeCtr := (rfl)
@[simp] theorem State.setB_pending (s : State) (g : Fld) (b : Bool) : (s.setB g b).pending = s.pending := (rfl)
@[simp] theorem State.setBit_mem (s : State) (a i : Nat) (b : Bool) : (s.setBit a i b).mem = s.mem := (rfl)
@[simp] theorem State.setBit_tick (s : State) (a i : Nat) (b : Bool) : (s.setBit a i b).tick = s.tick := (rfl)
@[simp] theorem State.setBit_flt (s : State) (a i : Nat) (b : Bool) : (s.setBit a i b).flt = s.flt := (rfl)
@[simp] theorem State.setBit_legs (s : State) (a i : Nat) (b : Bool) : (s.setBit a i b).legs = s.legs := (rfl)
@[simp] theorem State.setBit_selv (s : State) (a i : Nat) (b : Bool) : (s.setBit a i b).selv = s.selv := (rfl)
@[simp] theorem State.setBit_hif (s : State) (a i : Nat) (b : Bool) : (s.setBit a i b).hif = s.hif := (rfl)
@[simp] theorem State.setBit_ntm (s : State) (a i : Nat) (b : Bool) : (s.setBit a i b).ntm = s.ntm := (rfl)
@[simp] theorem State.setBit_eth (s : State) (a i : Nat) (b : Bool) : (s.setBit a i b).eth = s.eth := (rfl)
@[simp] theorem State.setBit_rdn (s : State) (a i : Nat) (b : Bool) : (s.setBit a i b).rdn = s.rdn := (rfl)
@[simp] theorem State.setBit_stitch (s : State) (a i : Nat) (b : Bool) : (s.setBit a i b).stitch = s.stitch := (rfl)
@[simp] theorem State.setBit_tat (s : State) (a i : Nat) (b : Bool) : (s.setBit a i b).tat = s.tat := (rfl)
@[simp] theorem State.setBit_cel (s : State) (a i : Nat) (b : Bool) : (s.setBit a i b).cel = s.cel := (rfl)
@[simp] theorem State.setBit_thm (s : State) (a i : Nat) (b : Bool) : (s.setBit a i b).thm = s.thm := (rfl)
@[simp] theorem State.setBit_age (s : State) (a i : Nat) (b : Bool) : (s.setBit a i b).age = s.age := (rfl)
@[simp] theorem State.setBit_lnk (s : State) (a i : Nat) (b : Bool) : (s.setBit a i b).lnk = s.lnk := (rfl)
@[simp] theorem State.setBit_adc (s : State) (a i : Nat) (b : Bool) : (s.setBit a i b).adc = s.adc := (rfl)
@[simp] theorem State.setBit_phu (s : State) (a i : Nat) (b : Bool) : (s.setBit a i b).phu = s.phu := (rfl)
@[simp] theorem State.setBit_twu (s : State) (a i : Nat) (b : Bool) : (s.setBit a i b).twu = s.twu := (rfl)
@[simp] theorem State.setBit_bank (s : State) (a i : Nat) (b : Bool) : (s.setBit a i b).bank = s.bank := (rfl)
@[simp] theorem State.setBit_nvm (s : State) (a i : Nat) (b : Bool) : (s.setBit a i b).nvm = s.nvm := (rfl)
@[simp] theorem State.setBit_bst (s : State) (a i : Nat) (b : Bool) : (s.setBit a i b).bst = s.bst := (rfl)
@[simp] theorem State.setBit_flips (s : State) (a i : Nat) (b : Bool) : (s.setBit a i b).flips = s.flips := (rfl)
@[simp] theorem State.setBit_hoop (s : State) (a i : Nat) (b : Bool) : (s.setBit a i b).hoop = s.hoop := (rfl)
@[simp] theorem State.setBit_engs (s : State) (a i : Nat) (b : Bool) : (s.setBit a i b).engs = s.engs := (rfl)
@[simp] theorem State.setBit_thb (s : State) (a i : Nat) (b : Bool) : (s.setBit a i b).thb = s.thb := (rfl)
@[simp] theorem State.setBit_prk (s : State) (a i : Nat) (b : Bool) : (s.setBit a i b).prk = s.prk := (rfl)
@[simp] theorem State.setBit_gpio (s : State) (a i : Nat) (b : Bool) : (s.setBit a i b).gpio = s.gpio := (rfl)
@[simp] theorem State.setBit_caps (s : State) (a i : Nat) (b : Bool) : (s.setBit a i b).caps = s.caps := (rfl)
@[simp] theorem State.setBit_held (s : State) (a i : Nat) (b : Bool) : (s.setBit a i b).held = s.held := (rfl)
@[simp] theorem State.setBit_rdata (s : State) (a i : Nat) (b : Bool) : (s.setBit a i b).rdata = s.rdata := (rfl)
@[simp] theorem State.setBit_out (s : State) (a i : Nat) (b : Bool) : (s.setBit a i b).out = s.out := (rfl)
@[simp] theorem State.setBit_agenda (s : State) (a i : Nat) (b : Bool) : (s.setBit a i b).agenda = s.agenda := (rfl)
@[simp] theorem State.setBit_freeCtr (s : State) (a i : Nat) (b : Bool) : (s.setBit a i b).freeCtr = s.freeCtr := (rfl)
@[simp] theorem State.setBit_pending (s : State) (a i : Nat) (b : Bool) : (s.setBit a i b).pending = s.pending := (rfl)
@[simp] theorem State.incr_mem (s : State) (a : Nat) : (s.incr a).mem = s.mem := (rfl)
@[simp] theorem State.incr_tick (s : State) (a : Nat) : (s.incr a).tick = s.tick := (rfl)
@[simp] theorem State.incr_flt (s : State) (a : Nat) : (s.incr a).flt = s.flt := (rfl)
@[simp] theorem State.incr_legs (s : State) (a : Nat) : (s.incr a).legs = s.legs := (rfl)
@[simp] theorem State.incr_selv (s : State) (a : Nat) : (s.incr a).selv = s.selv := (rfl)
@[simp] theorem State.incr_hif (s : State) (a : Nat) : (s.incr a).hif = s.hif := (rfl)
@[simp] theorem State.incr_ntm (s : State) (a : Nat) : (s.incr a).ntm = s.ntm := (rfl)
@[simp] theorem State.incr_eth (s : State) (a : Nat) : (s.incr a).eth = s.eth := (rfl)
@[simp] theorem State.incr_rdn (s : State) (a : Nat) : (s.incr a).rdn = s.rdn := (rfl)
@[simp] theorem State.incr_stitch (s : State) (a : Nat) : (s.incr a).stitch = s.stitch := (rfl)
@[simp] theorem State.incr_tat (s : State) (a : Nat) : (s.incr a).tat = s.tat := (rfl)
@[simp] theorem State.incr_cel (s : State) (a : Nat) : (s.incr a).cel = s.cel := (rfl)
@[simp] theorem State.incr_thm (s : State) (a : Nat) : (s.incr a).thm = s.thm := (rfl)
@[simp] theorem State.incr_age (s : State) (a : Nat) : (s.incr a).age = s.age := (rfl)
@[simp] theorem State.incr_lnk (s : State) (a : Nat) : (s.incr a).lnk = s.lnk := (rfl)
@[simp] theorem State.incr_adc (s : State) (a : Nat) : (s.incr a).adc = s.adc := (rfl)
@[simp] theorem State.incr_phu (s : State) (a : Nat) : (s.incr a).phu = s.phu := (rfl)
@[simp] theorem State.incr_twu (s : State) (a : Nat) : (s.incr a).twu = s.twu := (rfl)
@[simp] theorem State.incr_bank (s : State) (a : Nat) : (s.incr a).bank = s.bank := (rfl)
@[simp] theorem State.incr_nvm (s : State) (a : Nat) : (s.incr a).nvm = s.nvm := (rfl)
@[simp] theorem State.incr_bst (s : State) (a : Nat) : (s.incr a).bst = s.bst := (rfl)
@[simp] theorem State.incr_flips (s : State) (a : Nat) : (s.incr a).flips = s.flips := (rfl)
@[simp] theorem State.incr_hoop (s : State) (a : Nat) : (s.incr a).hoop = s.hoop := (rfl)
@[simp] theorem State.incr_engs (s : State) (a : Nat) : (s.incr a).engs = s.engs := (rfl)
@[simp] theorem State.incr_thb (s : State) (a : Nat) : (s.incr a).thb = s.thb := (rfl)
@[simp] theorem State.incr_prk (s : State) (a : Nat) : (s.incr a).prk = s.prk := (rfl)
@[simp] theorem State.incr_gpio (s : State) (a : Nat) : (s.incr a).gpio = s.gpio := (rfl)
@[simp] theorem State.incr_caps (s : State) (a : Nat) : (s.incr a).caps = s.caps := (rfl)
@[simp] theorem State.incr_held (s : State) (a : Nat) : (s.incr a).held = s.held := (rfl)
@[simp] theorem State.incr_rdata (s : State) (a : Nat) : (s.incr a).rdata = s.rdata := (rfl)
@[simp] theorem State.incr_out (s : State) (a : Nat) : (s.incr a).out = s.out := (rfl)
@[simp] theorem State.incr_agenda (s : State) (a : Nat) : (s.incr a).agenda = s.agenda := (rfl)
@[simp] theorem State.incr_freeCtr (s : State) (a : Nat) : (s.incr a).freeCtr = s.freeCtr := (rfl)
@[simp] theorem State.incr_pending (s : State) (a : Nat) : (s.incr a).pending = s.pending := (rfl)
@[simp] theorem State.count_mem (s : State) (a : Nat) : (s.count a).mem = s.mem := by
  unfold State.count
  dsimp only
  split <;> rfl
@[simp] theorem State.count_tick (s : State) (a : Nat) : (s.count a).tick = s.tick := by
  unfold State.count
  dsimp only
  split <;> rfl
@[simp] theorem State.count_flt (s : State) (a : Nat) : (s.count a).flt = s.flt := by
  unfold State.count
  dsimp only
  split <;> rfl
@[simp] theorem State.count_legs (s : State) (a : Nat) : (s.count a).legs = s.legs := by
  unfold State.count
  dsimp only
  split <;> rfl
@[simp] theorem State.count_selv (s : State) (a : Nat) : (s.count a).selv = s.selv := by
  unfold State.count
  dsimp only
  split <;> rfl
@[simp] theorem State.count_hif (s : State) (a : Nat) : (s.count a).hif = s.hif := by
  unfold State.count
  dsimp only
  split <;> rfl
@[simp] theorem State.count_ntm (s : State) (a : Nat) : (s.count a).ntm = s.ntm := by
  unfold State.count
  dsimp only
  split <;> rfl
@[simp] theorem State.count_eth (s : State) (a : Nat) : (s.count a).eth = s.eth := by
  unfold State.count
  dsimp only
  split <;> rfl
@[simp] theorem State.count_rdn (s : State) (a : Nat) : (s.count a).rdn = s.rdn := by
  unfold State.count
  dsimp only
  split <;> rfl
@[simp] theorem State.count_stitch (s : State) (a : Nat) : (s.count a).stitch = s.stitch := by
  unfold State.count
  dsimp only
  split <;> rfl
@[simp] theorem State.count_tat (s : State) (a : Nat) : (s.count a).tat = s.tat := by
  unfold State.count
  dsimp only
  split <;> rfl
@[simp] theorem State.count_cel (s : State) (a : Nat) : (s.count a).cel = s.cel := by
  unfold State.count
  dsimp only
  split <;> rfl
@[simp] theorem State.count_thm (s : State) (a : Nat) : (s.count a).thm = s.thm := by
  unfold State.count
  dsimp only
  split <;> rfl
@[simp] theorem State.count_age (s : State) (a : Nat) : (s.count a).age = s.age := by
  unfold State.count
  dsimp only
  split <;> rfl
@[simp] theorem State.count_lnk (s : State) (a : Nat) : (s.count a).lnk = s.lnk := by
  unfold State.count
  dsimp only
  split <;> rfl
@[simp] theorem State.count_adc (s : State) (a : Nat) : (s.count a).adc = s.adc := by
  unfold State.count
  dsimp only
  split <;> rfl
@[simp] theorem State.count_phu (s : State) (a : Nat) : (s.count a).phu = s.phu := by
  unfold State.count
  dsimp only
  split <;> rfl
@[simp] theorem State.count_twu (s : State) (a : Nat) : (s.count a).twu = s.twu := by
  unfold State.count
  dsimp only
  split <;> rfl
@[simp] theorem State.count_bank (s : State) (a : Nat) : (s.count a).bank = s.bank := by
  unfold State.count
  dsimp only
  split <;> rfl
@[simp] theorem State.count_nvm (s : State) (a : Nat) : (s.count a).nvm = s.nvm := by
  unfold State.count
  dsimp only
  split <;> rfl
@[simp] theorem State.count_bst (s : State) (a : Nat) : (s.count a).bst = s.bst := by
  unfold State.count
  dsimp only
  split <;> rfl
@[simp] theorem State.count_flips (s : State) (a : Nat) : (s.count a).flips = s.flips := by
  unfold State.count
  dsimp only
  split <;> rfl
@[simp] theorem State.count_hoop (s : State) (a : Nat) : (s.count a).hoop = s.hoop := by
  unfold State.count
  dsimp only
  split <;> rfl
@[simp] theorem State.count_engs (s : State) (a : Nat) : (s.count a).engs = s.engs := by
  unfold State.count
  dsimp only
  split <;> rfl
@[simp] theorem State.count_thb (s : State) (a : Nat) : (s.count a).thb = s.thb := by
  unfold State.count
  dsimp only
  split <;> rfl
@[simp] theorem State.count_prk (s : State) (a : Nat) : (s.count a).prk = s.prk := by
  unfold State.count
  dsimp only
  split <;> rfl
@[simp] theorem State.count_gpio (s : State) (a : Nat) : (s.count a).gpio = s.gpio := by
  unfold State.count
  dsimp only
  split <;> rfl
@[simp] theorem State.count_caps (s : State) (a : Nat) : (s.count a).caps = s.caps := by
  unfold State.count
  dsimp only
  split <;> rfl
@[simp] theorem State.count_held (s : State) (a : Nat) : (s.count a).held = s.held := by
  unfold State.count
  dsimp only
  split <;> rfl
@[simp] theorem State.count_rdata (s : State) (a : Nat) : (s.count a).rdata = s.rdata := by
  unfold State.count
  dsimp only
  split <;> rfl
@[simp] theorem State.count_out (s : State) (a : Nat) : (s.count a).out = s.out := by
  unfold State.count
  dsimp only
  split <;> rfl
@[simp] theorem State.count_agenda (s : State) (a : Nat) : (s.count a).agenda = s.agenda := by
  unfold State.count
  dsimp only
  split <;> rfl
@[simp] theorem State.count_freeCtr (s : State) (a : Nat) : (s.count a).freeCtr = s.freeCtr := by
  unfold State.count
  dsimp only
  split <;> rfl
@[simp] theorem State.count_pending (s : State) (a : Nat) : (s.count a).pending = s.pending := by
  unfold State.count
  dsimp only
  split <;> rfl
@[simp] theorem State.updFlt_regs (s : State) (f : FltSt → FltSt) : (s.updFlt f).regs = s.regs := (rfl)
@[simp] theorem State.updFlt_mem (s : State) (f : FltSt → FltSt) : (s.updFlt f).mem = s.mem := (rfl)
@[simp] theorem State.updFlt_tick (s : State) (f : FltSt → FltSt) : (s.updFlt f).tick = s.tick := (rfl)
@[simp] theorem State.updFlt_agenda (s : State) (f : FltSt → FltSt) : (s.updFlt f).agenda = s.agenda := (rfl)
@[simp] theorem State.updFlt_pending (s : State) (f : FltSt → FltSt) : (s.updFlt f).pending = s.pending := (rfl)
@[simp] theorem State.updFlt_out (s : State) (f : FltSt → FltSt) : (s.updFlt f).out = s.out := (rfl)
@[simp] theorem State.updFlt_rdata (s : State) (f : FltSt → FltSt) : (s.updFlt f).rdata = s.rdata := (rfl)
@[simp] theorem State.updFlt_freeCtr (s : State) (f : FltSt → FltSt) : (s.updFlt f).freeCtr = s.freeCtr := (rfl)
@[simp] theorem State.updFlt_flt (s : State) (f : FltSt → FltSt) : (s.updFlt f).flt = f s.flt := (rfl)
@[simp] theorem State.updSelv_regs (s : State) (f : SelvSt → SelvSt) : (s.updSelv f).regs = s.regs := (rfl)
@[simp] theorem State.updSelv_mem (s : State) (f : SelvSt → SelvSt) : (s.updSelv f).mem = s.mem := (rfl)
@[simp] theorem State.updSelv_tick (s : State) (f : SelvSt → SelvSt) : (s.updSelv f).tick = s.tick := (rfl)
@[simp] theorem State.updSelv_agenda (s : State) (f : SelvSt → SelvSt) : (s.updSelv f).agenda = s.agenda := (rfl)
@[simp] theorem State.updSelv_pending (s : State) (f : SelvSt → SelvSt) : (s.updSelv f).pending = s.pending := (rfl)
@[simp] theorem State.updSelv_out (s : State) (f : SelvSt → SelvSt) : (s.updSelv f).out = s.out := (rfl)
@[simp] theorem State.updSelv_rdata (s : State) (f : SelvSt → SelvSt) : (s.updSelv f).rdata = s.rdata := (rfl)
@[simp] theorem State.updSelv_freeCtr (s : State) (f : SelvSt → SelvSt) : (s.updSelv f).freeCtr = s.freeCtr := (rfl)
@[simp] theorem State.updSelv_selv (s : State) (f : SelvSt → SelvSt) : (s.updSelv f).selv = f s.selv := (rfl)
@[simp] theorem State.updHif_regs (s : State) (f : HifSt → HifSt) : (s.updHif f).regs = s.regs := (rfl)
@[simp] theorem State.updHif_mem (s : State) (f : HifSt → HifSt) : (s.updHif f).mem = s.mem := (rfl)
@[simp] theorem State.updHif_tick (s : State) (f : HifSt → HifSt) : (s.updHif f).tick = s.tick := (rfl)
@[simp] theorem State.updHif_agenda (s : State) (f : HifSt → HifSt) : (s.updHif f).agenda = s.agenda := (rfl)
@[simp] theorem State.updHif_pending (s : State) (f : HifSt → HifSt) : (s.updHif f).pending = s.pending := (rfl)
@[simp] theorem State.updHif_out (s : State) (f : HifSt → HifSt) : (s.updHif f).out = s.out := (rfl)
@[simp] theorem State.updHif_rdata (s : State) (f : HifSt → HifSt) : (s.updHif f).rdata = s.rdata := (rfl)
@[simp] theorem State.updHif_freeCtr (s : State) (f : HifSt → HifSt) : (s.updHif f).freeCtr = s.freeCtr := (rfl)
@[simp] theorem State.updHif_hif (s : State) (f : HifSt → HifSt) : (s.updHif f).hif = f s.hif := (rfl)
@[simp] theorem State.updRdn_regs (s : State) (f : RdnSt → RdnSt) : (s.updRdn f).regs = s.regs := (rfl)
@[simp] theorem State.updRdn_mem (s : State) (f : RdnSt → RdnSt) : (s.updRdn f).mem = s.mem := (rfl)
@[simp] theorem State.updRdn_tick (s : State) (f : RdnSt → RdnSt) : (s.updRdn f).tick = s.tick := (rfl)
@[simp] theorem State.updRdn_agenda (s : State) (f : RdnSt → RdnSt) : (s.updRdn f).agenda = s.agenda := (rfl)
@[simp] theorem State.updRdn_pending (s : State) (f : RdnSt → RdnSt) : (s.updRdn f).pending = s.pending := (rfl)
@[simp] theorem State.updRdn_out (s : State) (f : RdnSt → RdnSt) : (s.updRdn f).out = s.out := (rfl)
@[simp] theorem State.updRdn_rdata (s : State) (f : RdnSt → RdnSt) : (s.updRdn f).rdata = s.rdata := (rfl)
@[simp] theorem State.updRdn_freeCtr (s : State) (f : RdnSt → RdnSt) : (s.updRdn f).freeCtr = s.freeCtr := (rfl)
@[simp] theorem State.updRdn_rdn (s : State) (f : RdnSt → RdnSt) : (s.updRdn f).rdn = f s.rdn := (rfl)
@[simp] theorem State.updStitch_regs (s : State) (f : StitchSt → StitchSt) : (s.updStitch f).regs = s.regs := (rfl)
@[simp] theorem State.updStitch_mem (s : State) (f : StitchSt → StitchSt) : (s.updStitch f).mem = s.mem := (rfl)
@[simp] theorem State.updStitch_tick (s : State) (f : StitchSt → StitchSt) : (s.updStitch f).tick = s.tick := (rfl)
@[simp] theorem State.updStitch_agenda (s : State) (f : StitchSt → StitchSt) : (s.updStitch f).agenda = s.agenda := (rfl)
@[simp] theorem State.updStitch_pending (s : State) (f : StitchSt → StitchSt) : (s.updStitch f).pending = s.pending := (rfl)
@[simp] theorem State.updStitch_out (s : State) (f : StitchSt → StitchSt) : (s.updStitch f).out = s.out := (rfl)
@[simp] theorem State.updStitch_rdata (s : State) (f : StitchSt → StitchSt) : (s.updStitch f).rdata = s.rdata := (rfl)
@[simp] theorem State.updStitch_freeCtr (s : State) (f : StitchSt → StitchSt) : (s.updStitch f).freeCtr = s.freeCtr := (rfl)
@[simp] theorem State.updStitch_stitch (s : State) (f : StitchSt → StitchSt) : (s.updStitch f).stitch = f s.stitch := (rfl)
@[simp] theorem State.updTat_regs (s : State) (f : TatSt → TatSt) : (s.updTat f).regs = s.regs := (rfl)
@[simp] theorem State.updTat_mem (s : State) (f : TatSt → TatSt) : (s.updTat f).mem = s.mem := (rfl)
@[simp] theorem State.updTat_tick (s : State) (f : TatSt → TatSt) : (s.updTat f).tick = s.tick := (rfl)
@[simp] theorem State.updTat_agenda (s : State) (f : TatSt → TatSt) : (s.updTat f).agenda = s.agenda := (rfl)
@[simp] theorem State.updTat_pending (s : State) (f : TatSt → TatSt) : (s.updTat f).pending = s.pending := (rfl)
@[simp] theorem State.updTat_out (s : State) (f : TatSt → TatSt) : (s.updTat f).out = s.out := (rfl)
@[simp] theorem State.updTat_rdata (s : State) (f : TatSt → TatSt) : (s.updTat f).rdata = s.rdata := (rfl)
@[simp] theorem State.updTat_freeCtr (s : State) (f : TatSt → TatSt) : (s.updTat f).freeCtr = s.freeCtr := (rfl)
@[simp] theorem State.updTat_tat (s : State) (f : TatSt → TatSt) : (s.updTat f).tat = f s.tat := (rfl)
@[simp] theorem State.updCel_regs (s : State) (f : CelSt → CelSt) : (s.updCel f).regs = s.regs := (rfl)
@[simp] theorem State.updCel_mem (s : State) (f : CelSt → CelSt) : (s.updCel f).mem = s.mem := (rfl)
@[simp] theorem State.updCel_tick (s : State) (f : CelSt → CelSt) : (s.updCel f).tick = s.tick := (rfl)
@[simp] theorem State.updCel_agenda (s : State) (f : CelSt → CelSt) : (s.updCel f).agenda = s.agenda := (rfl)
@[simp] theorem State.updCel_pending (s : State) (f : CelSt → CelSt) : (s.updCel f).pending = s.pending := (rfl)
@[simp] theorem State.updCel_out (s : State) (f : CelSt → CelSt) : (s.updCel f).out = s.out := (rfl)
@[simp] theorem State.updCel_rdata (s : State) (f : CelSt → CelSt) : (s.updCel f).rdata = s.rdata := (rfl)
@[simp] theorem State.updCel_freeCtr (s : State) (f : CelSt → CelSt) : (s.updCel f).freeCtr = s.freeCtr := (rfl)
@[simp] theorem State.updCel_cel (s : State) (f : CelSt → CelSt) : (s.updCel f).cel = f s.cel := (rfl)
@[simp] theorem State.updThm_regs (s : State) (f : ThmSt → ThmSt) : (s.updThm f).regs = s.regs := (rfl)
@[simp] theorem State.updThm_mem (s : State) (f : ThmSt → ThmSt) : (s.updThm f).mem = s.mem := (rfl)
@[simp] theorem State.updThm_tick (s : State) (f : ThmSt → ThmSt) : (s.updThm f).tick = s.tick := (rfl)
@[simp] theorem State.updThm_agenda (s : State) (f : ThmSt → ThmSt) : (s.updThm f).agenda = s.agenda := (rfl)
@[simp] theorem State.updThm_pending (s : State) (f : ThmSt → ThmSt) : (s.updThm f).pending = s.pending := (rfl)
@[simp] theorem State.updThm_out (s : State) (f : ThmSt → ThmSt) : (s.updThm f).out = s.out := (rfl)
@[simp] theorem State.updThm_rdata (s : State) (f : ThmSt → ThmSt) : (s.updThm f).rdata = s.rdata := (rfl)
@[simp] theorem State.updThm_freeCtr (s : State) (f : ThmSt → ThmSt) : (s.updThm f).freeCtr = s.freeCtr := (rfl)
@[simp] theorem State.updThm_thm (s : State) (f : ThmSt → ThmSt) : (s.updThm f).thm = f s.thm := (rfl)
@[simp] theorem State.updLnk_regs (s : State) (f : LnkSt → LnkSt) : (s.updLnk f).regs = s.regs := (rfl)
@[simp] theorem State.updLnk_mem (s : State) (f : LnkSt → LnkSt) : (s.updLnk f).mem = s.mem := (rfl)
@[simp] theorem State.updLnk_tick (s : State) (f : LnkSt → LnkSt) : (s.updLnk f).tick = s.tick := (rfl)
@[simp] theorem State.updLnk_agenda (s : State) (f : LnkSt → LnkSt) : (s.updLnk f).agenda = s.agenda := (rfl)
@[simp] theorem State.updLnk_pending (s : State) (f : LnkSt → LnkSt) : (s.updLnk f).pending = s.pending := (rfl)
@[simp] theorem State.updLnk_out (s : State) (f : LnkSt → LnkSt) : (s.updLnk f).out = s.out := (rfl)
@[simp] theorem State.updLnk_rdata (s : State) (f : LnkSt → LnkSt) : (s.updLnk f).rdata = s.rdata := (rfl)
@[simp] theorem State.updLnk_freeCtr (s : State) (f : LnkSt → LnkSt) : (s.updLnk f).freeCtr = s.freeCtr := (rfl)
@[simp] theorem State.updLnk_lnk (s : State) (f : LnkSt → LnkSt) : (s.updLnk f).lnk = f s.lnk := (rfl)
@[simp] theorem State.updAdc_regs (s : State) (f : AdcSt → AdcSt) : (s.updAdc f).regs = s.regs := (rfl)
@[simp] theorem State.updAdc_mem (s : State) (f : AdcSt → AdcSt) : (s.updAdc f).mem = s.mem := (rfl)
@[simp] theorem State.updAdc_tick (s : State) (f : AdcSt → AdcSt) : (s.updAdc f).tick = s.tick := (rfl)
@[simp] theorem State.updAdc_agenda (s : State) (f : AdcSt → AdcSt) : (s.updAdc f).agenda = s.agenda := (rfl)
@[simp] theorem State.updAdc_pending (s : State) (f : AdcSt → AdcSt) : (s.updAdc f).pending = s.pending := (rfl)
@[simp] theorem State.updAdc_out (s : State) (f : AdcSt → AdcSt) : (s.updAdc f).out = s.out := (rfl)
@[simp] theorem State.updAdc_rdata (s : State) (f : AdcSt → AdcSt) : (s.updAdc f).rdata = s.rdata := (rfl)
@[simp] theorem State.updAdc_freeCtr (s : State) (f : AdcSt → AdcSt) : (s.updAdc f).freeCtr = s.freeCtr := (rfl)
@[simp] theorem State.updAdc_adc (s : State) (f : AdcSt → AdcSt) : (s.updAdc f).adc = f s.adc := (rfl)
@[simp] theorem State.updPhu_regs (s : State) (f : PhuSt → PhuSt) : (s.updPhu f).regs = s.regs := (rfl)
@[simp] theorem State.updPhu_mem (s : State) (f : PhuSt → PhuSt) : (s.updPhu f).mem = s.mem := (rfl)
@[simp] theorem State.updPhu_tick (s : State) (f : PhuSt → PhuSt) : (s.updPhu f).tick = s.tick := (rfl)
@[simp] theorem State.updPhu_agenda (s : State) (f : PhuSt → PhuSt) : (s.updPhu f).agenda = s.agenda := (rfl)
@[simp] theorem State.updPhu_pending (s : State) (f : PhuSt → PhuSt) : (s.updPhu f).pending = s.pending := (rfl)
@[simp] theorem State.updPhu_out (s : State) (f : PhuSt → PhuSt) : (s.updPhu f).out = s.out := (rfl)
@[simp] theorem State.updPhu_rdata (s : State) (f : PhuSt → PhuSt) : (s.updPhu f).rdata = s.rdata := (rfl)
@[simp] theorem State.updPhu_freeCtr (s : State) (f : PhuSt → PhuSt) : (s.updPhu f).freeCtr = s.freeCtr := (rfl)
@[simp] theorem State.updPhu_phu (s : State) (f : PhuSt → PhuSt) : (s.updPhu f).phu = f s.phu := (rfl)
@[simp] theorem State.updTwu_regs (s : State) (f : TwuSt → TwuSt) : (s.updTwu f).regs = s.regs := (rfl)
@[simp] theorem State.updTwu_mem (s : State) (f : TwuSt → TwuSt) : (s.updTwu f).mem = s.mem := (rfl)
@[simp] theorem State.updTwu_tick (s : State) (f : TwuSt → TwuSt) : (s.updTwu f).tick = s.tick := (rfl)
@[simp] theorem State.updTwu_agenda (s : State) (f : TwuSt → TwuSt) : (s.updTwu f).agenda = s.agenda := (rfl)
@[simp] theorem State.updTwu_pending (s : State) (f : TwuSt → TwuSt) : (s.updTwu f).pending = s.pending := (rfl)
@[simp] theorem State.updTwu_out (s : State) (f : TwuSt → TwuSt) : (s.updTwu f).out = s.out := (rfl)
@[simp] theorem State.updTwu_rdata (s : State) (f : TwuSt → TwuSt) : (s.updTwu f).rdata = s.rdata := (rfl)
@[simp] theorem State.updTwu_freeCtr (s : State) (f : TwuSt → TwuSt) : (s.updTwu f).freeCtr = s.freeCtr := (rfl)
@[simp] theorem State.updTwu_twu (s : State) (f : TwuSt → TwuSt) : (s.updTwu f).twu = f s.twu := (rfl)
@[simp] theorem State.updBank_regs (s : State) (f : MemSt → MemSt) : (s.updBank f).regs = s.regs := (rfl)
@[simp] theorem State.updBank_mem (s : State) (f : MemSt → MemSt) : (s.updBank f).mem = s.mem := (rfl)
@[simp] theorem State.updBank_tick (s : State) (f : MemSt → MemSt) : (s.updBank f).tick = s.tick := (rfl)
@[simp] theorem State.updBank_agenda (s : State) (f : MemSt → MemSt) : (s.updBank f).agenda = s.agenda := (rfl)
@[simp] theorem State.updBank_pending (s : State) (f : MemSt → MemSt) : (s.updBank f).pending = s.pending := (rfl)
@[simp] theorem State.updBank_out (s : State) (f : MemSt → MemSt) : (s.updBank f).out = s.out := (rfl)
@[simp] theorem State.updBank_rdata (s : State) (f : MemSt → MemSt) : (s.updBank f).rdata = s.rdata := (rfl)
@[simp] theorem State.updBank_freeCtr (s : State) (f : MemSt → MemSt) : (s.updBank f).freeCtr = s.freeCtr := (rfl)
@[simp] theorem State.updBank_bank (s : State) (f : MemSt → MemSt) : (s.updBank f).bank = f s.bank := (rfl)
@[simp] theorem State.updNvm_regs (s : State) (f : NvmSt → NvmSt) : (s.updNvm f).regs = s.regs := (rfl)
@[simp] theorem State.updNvm_mem (s : State) (f : NvmSt → NvmSt) : (s.updNvm f).mem = s.mem := (rfl)
@[simp] theorem State.updNvm_tick (s : State) (f : NvmSt → NvmSt) : (s.updNvm f).tick = s.tick := (rfl)
@[simp] theorem State.updNvm_agenda (s : State) (f : NvmSt → NvmSt) : (s.updNvm f).agenda = s.agenda := (rfl)
@[simp] theorem State.updNvm_pending (s : State) (f : NvmSt → NvmSt) : (s.updNvm f).pending = s.pending := (rfl)
@[simp] theorem State.updNvm_out (s : State) (f : NvmSt → NvmSt) : (s.updNvm f).out = s.out := (rfl)
@[simp] theorem State.updNvm_rdata (s : State) (f : NvmSt → NvmSt) : (s.updNvm f).rdata = s.rdata := (rfl)
@[simp] theorem State.updNvm_freeCtr (s : State) (f : NvmSt → NvmSt) : (s.updNvm f).freeCtr = s.freeCtr := (rfl)
@[simp] theorem State.updNvm_nvm (s : State) (f : NvmSt → NvmSt) : (s.updNvm f).nvm = f s.nvm := (rfl)
@[simp] theorem State.updBst_regs (s : State) (f : BstSt → BstSt) : (s.updBst f).regs = s.regs := (rfl)
@[simp] theorem State.updBst_mem (s : State) (f : BstSt → BstSt) : (s.updBst f).mem = s.mem := (rfl)
@[simp] theorem State.updBst_tick (s : State) (f : BstSt → BstSt) : (s.updBst f).tick = s.tick := (rfl)
@[simp] theorem State.updBst_agenda (s : State) (f : BstSt → BstSt) : (s.updBst f).agenda = s.agenda := (rfl)
@[simp] theorem State.updBst_pending (s : State) (f : BstSt → BstSt) : (s.updBst f).pending = s.pending := (rfl)
@[simp] theorem State.updBst_out (s : State) (f : BstSt → BstSt) : (s.updBst f).out = s.out := (rfl)
@[simp] theorem State.updBst_rdata (s : State) (f : BstSt → BstSt) : (s.updBst f).rdata = s.rdata := (rfl)
@[simp] theorem State.updBst_freeCtr (s : State) (f : BstSt → BstSt) : (s.updBst f).freeCtr = s.freeCtr := (rfl)
@[simp] theorem State.updBst_bst (s : State) (f : BstSt → BstSt) : (s.updBst f).bst = f s.bst := (rfl)
@[simp] theorem State.updAge_regs (s : State) (f : AgeSt → AgeSt) : (s.updAge f).regs = s.regs := (rfl)
@[simp] theorem State.updAge_mem (s : State) (f : AgeSt → AgeSt) : (s.updAge f).mem = s.mem := (rfl)
@[simp] theorem State.updAge_tick (s : State) (f : AgeSt → AgeSt) : (s.updAge f).tick = s.tick := (rfl)
@[simp] theorem State.updAge_agenda (s : State) (f : AgeSt → AgeSt) : (s.updAge f).agenda = s.agenda := (rfl)
@[simp] theorem State.updAge_pending (s : State) (f : AgeSt → AgeSt) : (s.updAge f).pending = s.pending := (rfl)
@[simp] theorem State.updAge_out (s : State) (f : AgeSt → AgeSt) : (s.updAge f).out = s.out := (rfl)
@[simp] theorem State.updAge_rdata (s : State) (f : AgeSt → AgeSt) : (s.updAge f).rdata = s.rdata := (rfl)
@[simp] theorem State.updAge_freeCtr (s : State) (f : AgeSt → AgeSt) : (s.updAge f).freeCtr = s.freeCtr := (rfl)
@[simp] theorem State.updAge_age (s : State) (f : AgeSt → AgeSt) : (s.updAge f).age = f s.age := (rfl)
@[simp] theorem State.updEth_regs (s : State) (f : EthSt → EthSt) : (s.updEth f).regs = s.regs := (rfl)
@[simp] theorem State.updEth_mem (s : State) (f : EthSt → EthSt) : (s.updEth f).mem = s.mem := (rfl)
@[simp] theorem State.updEth_tick (s : State) (f : EthSt → EthSt) : (s.updEth f).tick = s.tick := (rfl)
@[simp] theorem State.updEth_agenda (s : State) (f : EthSt → EthSt) : (s.updEth f).agenda = s.agenda := (rfl)
@[simp] theorem State.updEth_pending (s : State) (f : EthSt → EthSt) : (s.updEth f).pending = s.pending := (rfl)
@[simp] theorem State.updEth_out (s : State) (f : EthSt → EthSt) : (s.updEth f).out = s.out := (rfl)
@[simp] theorem State.updEth_rdata (s : State) (f : EthSt → EthSt) : (s.updEth f).rdata = s.rdata := (rfl)
@[simp] theorem State.updEth_freeCtr (s : State) (f : EthSt → EthSt) : (s.updEth f).freeCtr = s.freeCtr := (rfl)
@[simp] theorem State.updEth_eth (s : State) (f : EthSt → EthSt) : (s.updEth f).eth = f s.eth := (rfl)
@[simp] theorem State.updThb_regs (s : State) (f : ThbSt → ThbSt) : (s.updThb f).regs = s.regs := (rfl)
@[simp] theorem State.updThb_mem (s : State) (f : ThbSt → ThbSt) : (s.updThb f).mem = s.mem := (rfl)
@[simp] theorem State.updThb_tick (s : State) (f : ThbSt → ThbSt) : (s.updThb f).tick = s.tick := (rfl)
@[simp] theorem State.updThb_agenda (s : State) (f : ThbSt → ThbSt) : (s.updThb f).agenda = s.agenda := (rfl)
@[simp] theorem State.updThb_pending (s : State) (f : ThbSt → ThbSt) : (s.updThb f).pending = s.pending := (rfl)
@[simp] theorem State.updThb_out (s : State) (f : ThbSt → ThbSt) : (s.updThb f).out = s.out := (rfl)
@[simp] theorem State.updThb_rdata (s : State) (f : ThbSt → ThbSt) : (s.updThb f).rdata = s.rdata := (rfl)
@[simp] theorem State.updThb_freeCtr (s : State) (f : ThbSt → ThbSt) : (s.updThb f).freeCtr = s.freeCtr := (rfl)
@[simp] theorem State.updThb_thb (s : State) (f : ThbSt → ThbSt) : (s.updThb f).thb = f s.thb := (rfl)
@[simp] theorem State.updHoop_regs (s : State) (f : HoopSt → HoopSt) : (s.updHoop f).regs = s.regs := (rfl)
@[simp] theorem State.updHoop_mem (s : State) (f : HoopSt → HoopSt) : (s.updHoop f).mem = s.mem := (rfl)
@[simp] theorem State.updHoop_tick (s : State) (f : HoopSt → HoopSt) : (s.updHoop f).tick = s.tick := (rfl)
@[simp] theorem State.updHoop_agenda (s : State) (f : HoopSt → HoopSt) : (s.updHoop f).agenda = s.agenda := (rfl)
@[simp] theorem State.updHoop_pending (s : State) (f : HoopSt → HoopSt) : (s.updHoop f).pending = s.pending := (rfl)
@[simp] theorem State.updHoop_out (s : State) (f : HoopSt → HoopSt) : (s.updHoop f).out = s.out := (rfl)
@[simp] theorem State.updHoop_rdata (s : State) (f : HoopSt → HoopSt) : (s.updHoop f).rdata = s.rdata := (rfl)
@[simp] theorem State.updHoop_freeCtr (s : State) (f : HoopSt → HoopSt) : (s.updHoop f).freeCtr = s.freeCtr := (rfl)
@[simp] theorem State.updHoop_hoop (s : State) (f : HoopSt → HoopSt) : (s.updHoop f).hoop = f s.hoop := (rfl)
@[simp] theorem State.updPrk_regs (s : State) (f : PrkSt → PrkSt) : (s.updPrk f).regs = s.regs := (rfl)
@[simp] theorem State.updPrk_mem (s : State) (f : PrkSt → PrkSt) : (s.updPrk f).mem = s.mem := (rfl)
@[simp] theorem State.updPrk_tick (s : State) (f : PrkSt → PrkSt) : (s.updPrk f).tick = s.tick := (rfl)
@[simp] theorem State.updPrk_agenda (s : State) (f : PrkSt → PrkSt) : (s.updPrk f).agenda = s.agenda := (rfl)
@[simp] theorem State.updPrk_pending (s : State) (f : PrkSt → PrkSt) : (s.updPrk f).pending = s.pending := (rfl)
@[simp] theorem State.updPrk_out (s : State) (f : PrkSt → PrkSt) : (s.updPrk f).out = s.out := (rfl)
@[simp] theorem State.updPrk_rdata (s : State) (f : PrkSt → PrkSt) : (s.updPrk f).rdata = s.rdata := (rfl)
@[simp] theorem State.updPrk_freeCtr (s : State) (f : PrkSt → PrkSt) : (s.updPrk f).freeCtr = s.freeCtr := (rfl)
@[simp] theorem State.updPrk_prk (s : State) (f : PrkSt → PrkSt) : (s.updPrk f).prk = f s.prk := (rfl)
@[simp] theorem State.updNtm_regs (s : State) (f : NtmSt → NtmSt) : (s.updNtm f).regs = s.regs := (rfl)
@[simp] theorem State.updNtm_mem (s : State) (f : NtmSt → NtmSt) : (s.updNtm f).mem = s.mem := (rfl)
@[simp] theorem State.updNtm_tick (s : State) (f : NtmSt → NtmSt) : (s.updNtm f).tick = s.tick := (rfl)
@[simp] theorem State.updNtm_agenda (s : State) (f : NtmSt → NtmSt) : (s.updNtm f).agenda = s.agenda := (rfl)
@[simp] theorem State.updNtm_pending (s : State) (f : NtmSt → NtmSt) : (s.updNtm f).pending = s.pending := (rfl)
@[simp] theorem State.updNtm_out (s : State) (f : NtmSt → NtmSt) : (s.updNtm f).out = s.out := (rfl)
@[simp] theorem State.updNtm_rdata (s : State) (f : NtmSt → NtmSt) : (s.updNtm f).rdata = s.rdata := (rfl)
@[simp] theorem State.updNtm_freeCtr (s : State) (f : NtmSt → NtmSt) : (s.updNtm f).freeCtr = s.freeCtr := (rfl)
@[simp] theorem State.updNtm_ntm (s : State) (f : NtmSt → NtmSt) : (s.updNtm f).ntm = f s.ntm := (rfl)
@[simp] theorem State.setMemB_regs (s : State) (a : Nat) (b : Byte) : (s.setMemB a b).regs = s.regs := (rfl)
@[simp] theorem State.setMemB_tick (s : State) (a : Nat) (b : Byte) : (s.setMemB a b).tick = s.tick := (rfl)
@[simp] theorem State.setMemB_agenda (s : State) (a : Nat) (b : Byte) : (s.setMemB a b).agenda = s.agenda := (rfl)
@[simp] theorem State.setMemB_pending (s : State) (a : Nat) (b : Byte) : (s.setMemB a b).pending = s.pending := (rfl)
@[simp] theorem State.setMemB_out (s : State) (a : Nat) (b : Byte) : (s.setMemB a b).out = s.out := (rfl)
@[simp] theorem State.setMemB_rdata (s : State) (a : Nat) (b : Byte) : (s.setMemB a b).rdata = s.rdata := (rfl)
@[simp] theorem State.setMemB_freeCtr (s : State) (a : Nat) (b : Byte) : (s.setMemB a b).freeCtr = s.freeCtr := (rfl)
@[simp] theorem State.emit_regs (s : State) (x : Out) : (s.emit x).regs = s.regs := (rfl)
@[simp] theorem State.emit_mem (s : State) (x : Out) : (s.emit x).mem = s.mem := (rfl)
@[simp] theorem State.emit_tick (s : State) (x : Out) : (s.emit x).tick = s.tick := (rfl)
@[simp] theorem State.emit_agenda (s : State) (x : Out) : (s.emit x).agenda = s.agenda := (rfl)
@[simp] theorem State.emit_pending (s : State) (x : Out) : (s.emit x).pending = s.pending := (rfl)
@[simp] theorem State.emit_rdata (s : State) (x : Out) : (s.emit x).rdata = s.rdata := (rfl)
@[simp] theorem State.emit_freeCtr (s : State) (x : Out) : (s.emit x).freeCtr = s.freeCtr := (rfl)
@[simp] theorem State.schedAt_regs (s : State) (t : Nat) (c : Instr) : (s.schedAt t c).regs = s.regs := (rfl)
@[simp] theorem State.schedAt_mem (s : State) (t : Nat) (c : Instr) : (s.schedAt t c).mem = s.mem := (rfl)
@[simp] theorem State.schedAt_tick (s : State) (t : Nat) (c : Instr) : (s.schedAt t c).tick = s.tick := (rfl)
@[simp] theorem State.schedAt_pending (s : State) (t : Nat) (c : Instr) : (s.schedAt t c).pending = s.pending := (rfl)
@[simp] theorem State.schedAt_out (s : State) (t : Nat) (c : Instr) : (s.schedAt t c).out = s.out := (rfl)
@[simp] theorem State.schedAt_rdata (s : State) (t : Nat) (c : Instr) : (s.schedAt t c).rdata = s.rdata := (rfl)
@[simp] theorem State.schedAt_freeCtr (s : State) (t : Nat) (c : Instr) : (s.schedAt t c).freeCtr = s.freeCtr := (rfl)
@[simp] theorem State.sched_regs (s : State) (d : Nat) (c : Instr) : (s.sched d c).regs = s.regs := (rfl)
@[simp] theorem State.sched_mem (s : State) (d : Nat) (c : Instr) : (s.sched d c).mem = s.mem := (rfl)
@[simp] theorem State.sched_tick (s : State) (d : Nat) (c : Instr) : (s.sched d c).tick = s.tick := (rfl)
@[simp] theorem State.sched_pending (s : State) (d : Nat) (c : Instr) : (s.sched d c).pending = s.pending := (rfl)
@[simp] theorem State.sched_out (s : State) (d : Nat) (c : Instr) : (s.sched d c).out = s.out := (rfl)
@[simp] theorem State.sched_rdata (s : State) (d : Nat) (c : Instr) : (s.sched d c).rdata = s.rdata := (rfl)
@[simp] theorem State.sched_freeCtr (s : State) (d : Nat) (c : Instr) : (s.sched d c).freeCtr = s.freeCtr := (rfl)
@[simp] theorem State.unsched_regs (s : State) (p : Instr → Bool) : (s.unsched p).regs = s.regs := (rfl)
@[simp] theorem State.unsched_mem (s : State) (p : Instr → Bool) : (s.unsched p).mem = s.mem := (rfl)
@[simp] theorem State.unsched_tick (s : State) (p : Instr → Bool) : (s.unsched p).tick = s.tick := (rfl)
@[simp] theorem State.unsched_pending (s : State) (p : Instr → Bool) : (s.unsched p).pending = s.pending := (rfl)
@[simp] theorem State.unsched_out (s : State) (p : Instr → Bool) : (s.unsched p).out = s.out := (rfl)
@[simp] theorem State.unsched_rdata (s : State) (p : Instr → Bool) : (s.unsched p).rdata = s.rdata := (rfl)
@[simp] theorem State.unsched_freeCtr (s : State) (p : Instr → Bool) : (s.unsched p).freeCtr = s.freeCtr := (rfl)
@[simp] theorem State.timer_regs (s : State) (d : Nat) (c : Instr) : (s.timer d c).regs = s.regs := (rfl)
@[simp] theorem State.timer_mem (s : State) (d : Nat) (c : Instr) : (s.timer d c).mem = s.mem := (rfl)
@[simp] theorem State.timer_tick (s : State) (d : Nat) (c : Instr) : (s.timer d c).tick = s.tick := (rfl)
@[simp] theorem State.timer_pending (s : State) (d : Nat) (c : Instr) : (s.timer d c).pending = s.pending := (rfl)
@[simp] theorem State.timer_out (s : State) (d : Nat) (c : Instr) : (s.timer d c).out = s.out := (rfl)
@[simp] theorem State.timer_rdata (s : State) (d : Nat) (c : Instr) : (s.timer d c).rdata = s.rdata := (rfl)
@[simp] theorem State.timer_freeCtr (s : State) (d : Nat) (c : Instr) : (s.timer d c).freeCtr = s.freeCtr := (rfl)
@[simp] theorem State.emit_out (s : State) (x : Out) : (s.emit x).out = x :: s.out := (rfl)
@[simp] theorem State.schedAt_agenda (s : State) (t : Nat) (c : Instr) : (s.schedAt t c).agenda = s.agenda ++ [(t, c)] := (rfl)
@[simp] theorem State.sched_agenda (s : State) (d : Nat) (c : Instr) : (s.sched d c).agenda = s.agenda ++ [(s.tick + d, c)] := (rfl)
@[simp] theorem State.unsched_agenda (s : State) (p : Instr → Bool) : (s.unsched p).agenda = s.agenda.filter (fun e => !p e.2) := (rfl)

end Sys2Proof.Machine
end

