-- ==== Sys2Proof/Laws/Regs.lean ====
section
/-!
SUPPORT. Reading after writing: registers, their fields and counters, and bytes of memory. Nothing but the register file
bears on the reading of a register, and nothing but memory on the reading of a byte.
-/

namespace Sys2Proof

/-! ### Bit fields -/

theorem bitsOf_lt (n lo w : Nat) : bitsOf n lo w < 2 ^ w := Nat.mod_lt _ (Nat.two_pow_pos w)

theorem bitsOf_mul_le (n lo w : Nat) : bitsOf n lo w * 2 ^ lo ≤ n := by
  unfold bitsOf
  calc n / 2 ^ lo % 2 ^ w * 2 ^ lo ≤ n / 2 ^ lo * 2 ^ lo := Nat.mul_le_mul_right _ (Nat.mod_le _ _)
    _ ≤ n := Nat.div_mul_le_self _ _

/-- A number as its part above a field, the field, and the part below. -/
theorem field_split (n lo w : Nat) :
    n = n / 2 ^ (lo + w) * 2 ^ (lo + w) + bitsOf n lo w * 2 ^ lo + n % 2 ^ lo := by
  have h1 := Nat.div_add_mod n (2 ^ lo)
  have h2 := Nat.div_add_mod (n / 2 ^ lo) (2 ^ w)
  have h3 : n / 2 ^ lo / 2 ^ w = n / 2 ^ (lo + w) := by rw [Nat.div_div_eq_div_mul, ← Nat.pow_add]
  unfold bitsOf
  rw [h3] at h2
  calc n = 2 ^ lo * (n / 2 ^ lo) + n % 2 ^ lo := h1.symm
    _ = 2 ^ lo * (2 ^ w * (n / 2 ^ (lo + w)) + n / 2 ^ lo % 2 ^ w) + n % 2 ^ lo := by rw [h2]
    _ = _ := by rw [Nat.pow_add]; ring

theorem putBits_eq (n lo w v : Nat) :
    putBits n lo w v = n / 2 ^ (lo + w) * 2 ^ (lo + w) + v % 2 ^ w * 2 ^ lo + n % 2 ^ lo := by
  have h := field_split n lo w
  have hb := bitsOf_mul_le n lo w
  unfold putBits
  omega

/-- Bit by bit: a field holds what was put into it, and the other bits are kept. -/
theorem testBit_putBits (n lo w v i : Nat) :
    (putBits n lo w v).testBit i = if lo ≤ i ∧ i < lo + w then v.testBit (i - lo) else n.testBit i := by
  have hc : n % 2 ^ lo < 2 ^ lo := Nat.mod_lt _ (Nat.two_pow_pos lo)
  have hb : v % 2 ^ w < 2 ^ w := Nat.mod_lt _ (Nat.two_pow_pos w)
  have h1 : putBits n lo w v = 2 ^ lo * (2 ^ w * (n / 2 ^ (lo + w)) + v % 2 ^ w) + n % 2 ^ lo := by
    rw [putBits_eq, Nat.pow_add]; ring
  rw [h1, Nat.testBit_two_pow_mul_add _ hc]
  by_cases hi : i < lo
  · simp only [hi, if_true, Nat.testBit_mod_two_pow, decide_true, Bool.true_and]
    rw [if_neg (by omega)]
  · simp only [hi, if_false]
    rw [Nat.testBit_two_pow_mul_add _ hb]
    by_cases hw : i - lo < w
    · rw [if_pos hw, if_pos (by omega), Nat.testBit_mod_two_pow]
      simp [hw]
    · rw [if_neg hw, if_neg (by omega), Nat.testBit_div_two_pow]
      congr 1
      omega

theorem testBit_bitsOf (n lo w i : Nat) : (bitsOf n lo w).testBit i = (decide (i < w) && n.testBit (lo + i)) := by
  unfold bitsOf
  rw [Nat.testBit_mod_two_pow, Nat.testBit_div_two_pow, Nat.add_comm]

/-- A field reads as what was put into it. -/
theorem bitsOf_putBits_self (n lo w v : Nat) : bitsOf (putBits n lo w v) lo w = v % 2 ^ w := by
  apply Nat.eq_of_testBit_eq
  intro i
  rw [testBit_bitsOf, testBit_putBits, Nat.testBit_mod_two_pow]
  by_cases h : i < w
  · simp [h]
  · simp [h]

/-- A field apart from the one written is kept. -/
theorem bitsOf_putBits_other (n lo w v lo' w' : Nat) (h : lo + w ≤ lo' ∨ lo' + w' ≤ lo) :
    bitsOf (putBits n lo w v) lo' w' = bitsOf n lo' w' := by
  apply Nat.eq_of_testBit_eq
  intro i
  rw [testBit_bitsOf, testBit_bitsOf, testBit_putBits]
  by_cases hi : i < w'
  · rw [if_neg (by omega)]
  · simp [hi]

/-- A field below bit 32 does not see the truncation to a word. -/
theorem bitsOf_mod (n lo w : Nat) (h : lo + w ≤ 32) : bitsOf (n % 2 ^ 32) lo w = bitsOf n lo w := by
  apply Nat.eq_of_testBit_eq
  intro i
  rw [testBit_bitsOf, testBit_bitsOf, Nat.testBit_mod_two_pow]
  by_cases hi : i < w
  · have : lo + i < 32 := by omega
    simp [this]
  · simp [hi]

theorem bitOf_eq (n i : Nat) : bitOf n i = (bitsOf n i 1 == 1) := by
  unfold bitOf bitsOf
  rw [Nat.pow_one]

namespace Machine

/-! ### Registers -/

@[simp] theorem State.rd_wr_self (s : State) (a : Nat) (v : Word) : (s.wr a v).rd a = v := Sparse.get_put_same _ _ _ _

theorem State.rd_wr_ne (s : State) {a b : Nat} (v : Word) (h : b ≠ a) : (s.wr a v).rd b = s.rd b :=
  Sparse.get_put_other _ _ _ h

/-- A register reads as what was last written to it. -/
theorem State.rd_wr (s : State) (a b : Nat) (v : Word) : (s.wr a v).rd b = if b = a then v else s.rd b := by
  split
  · subst b; simp
  · rename_i h; exact State.rd_wr_ne s v h

@[simp] theorem State.rdN_wrN_self (s : State) (a n : Nat) : (s.wrN a n).rdN a = n % 2 ^ 32 := by
  simp [State.rdN, State.wrN]

theorem State.rd_wrN_ne (s : State) {a b : Nat} (n : Nat) (h : b ≠ a) : (s.wrN a n).rd b = s.rd b := State.rd_wr_ne s _ h

theorem State.rdN_wrN_ne (s : State) {a b : Nat} (n : Nat) (h : b ≠ a) : (s.wrN a n).rdN b = s.rdN b := by
  unfold State.rdN; rw [State.rd_wrN_ne s n h]

theorem State.rd_setF_ne (s : State) (f : Fld) (v : Nat) {b : Nat} (h : b ≠ f.addr) : (s.setF f v).rd b = s.rd b :=
  State.rd_wrN_ne s _ h

theorem State.rd_setB_ne (s : State) (f : Fld) (v : Bool) {b : Nat} (h : b ≠ f.addr) : (s.setB f v).rd b = s.rd b :=
  State.rd_wrN_ne s _ h

theorem State.rd_setBit_ne (s : State) (a i : Nat) (v : Bool) {b : Nat} (h : b ≠ a) : (s.setBit a i v).rd b = s.rd b :=
  State.rd_wrN_ne s _ h

theorem State.rd_count_ne (s : State) (a : Nat) {b : Nat} (h : b ≠ a) : (s.count a).rd b = s.rd b := by
  unfold State.count
  dsimp only
  split <;> exact State.rd_wrN_ne s _ h

theorem State.rd_incr_ne (s : State) (a : Nat) {b : Nat} (h : b ≠ a) : (s.incr a).rd b = s.rd b := State.rd_wrN_ne s _ h

/-- A field reads as what was written to it. -/
theorem State.fld_setF_self (s : State) (f : Fld) (v : Nat) (h : f.lo + f.width ≤ 32) : (s.setF f v).fld f = v % 2 ^ f.width := by
  unfold State.fld State.setF
  rw [State.rdN_wrN_self, bitsOf_mod _ _ _ h, bitsOf_putBits_self]

/-- A field of another register is kept. -/
theorem State.fld_wrN_ne (s : State) (f : Fld) {a : Nat} (n : Nat) (h : f.addr ≠ a) : (s.wrN a n).fld f = s.fld f := by
  unfold State.fld; rw [State.rdN_wrN_ne s n h]

theorem State.fld_setF_ne (s : State) (f g : Fld) (v : Nat) (h : g.addr ≠ f.addr) : (s.setF f v).fld g = s.fld g :=
  State.fld_wrN_ne s g _ h

/-- Another field of the register is kept. -/
theorem State.fld_setF_other (s : State) (f g : Fld) (v : Nat) (ha : g.addr = f.addr) (hg : g.lo + g.width ≤ 32)
    (h : f.lo + f.width ≤ g.lo ∨ g.lo + g.width ≤ f.lo) : (s.setF f v).fld g = s.fld g := by
  unfold State.fld State.setF
  rw [ha, State.rdN_wrN_self, bitsOf_mod _ _ _ hg, bitsOf_putBits_other _ _ _ _ _ _ h]

/-- A flag reads as what was written to it. -/
theorem State.bit_setB_self (s : State) (f : Fld) (b : Bool) (hw : f.width = 1) (hl : f.lo ≤ 31) : (s.setB f b).bit f = b := by
  unfold State.bit State.setB
  rw [State.fld_setF_self s f _ (by omega), hw]
  cases b <;> decide

theorem State.bit_setF_ne (s : State) (f g : Fld) (v : Nat) (h : g.addr ≠ f.addr) : (s.setF f v).bit g = s.bit g := by
  unfold State.bit; rw [State.fld_setF_ne s f g v h]

theorem State.bit_setB_ne (s : State) (f g : Fld) (b : Bool) (h : g.addr ≠ f.addr) : (s.setB f b).bit g = s.bit g :=
  State.bit_setF_ne s f g _ h

theorem State.bit_setB_other (s : State) (f g : Fld) (b : Bool) (ha : g.addr = f.addr) (hg : g.lo + g.width ≤ 32)
    (h : f.lo + f.width ≤ g.lo ∨ g.lo + g.width ≤ f.lo) : (s.setB f b).bit g = s.bit g := by
  unfold State.bit State.setB; rw [State.fld_setF_other s f g _ ha hg h]

theorem State.fld_setB_ne (s : State) (f g : Fld) (b : Bool) (h : g.addr ≠ f.addr) : (s.setB f b).fld g = s.fld g :=
  State.fld_setF_ne s f g _ h

theorem State.fld_setB_other (s : State) (f g : Fld) (b : Bool) (ha : g.addr = f.addr) (hg : g.lo + g.width ≤ 32)
    (h : f.lo + f.width ≤ g.lo ∨ g.lo + g.width ≤ f.lo) : (s.setB f b).fld g = s.fld g := State.fld_setF_other s f g _ ha hg h

theorem State.rbit_eq (s : State) (a i : Nat) : s.rbit a i = s.bit ⟨a, i, 1⟩ := bitOf_eq _ _

theorem State.setBit_eq (s : State) (a i : Nat) (b : Bool) : s.setBit a i b = s.setB ⟨a, i, 1⟩ b := rfl

theorem State.rbit_setBit_self (s : State) (a i : Nat) (b : Bool) (h : i < 32) : (s.setBit a i b).rbit a i = b := by
  rw [State.rbit_eq, State.setBit_eq]
  exact State.bit_setB_self s _ b rfl (by show i ≤ 31; omega)

theorem State.rbit_setBit_other (s : State) (a i j : Nat) (b : Bool) (h : j < 32) (hij : j ≠ i) :
    (s.setBit a i b).rbit a j = s.rbit a j := by
  rw [State.rbit_eq, State.rbit_eq, State.setBit_eq]
  exact State.bit_setB_other s _ _ b rfl (by show j + 1 ≤ 32; omega) (by show i + 1 ≤ j ∨ j + 1 ≤ i; omega)

theorem State.rbit_congr_rd {s t : State} {a : Nat} (h : t.rd a = s.rd a) (i : Nat) : t.rbit a i = s.rbit a i := by
  unfold State.rbit State.rdN; rw [h]

theorem State.fld_congr_rd {s t : State} (f : Fld) (h : t.rd f.addr = s.rd f.addr) : t.fld f = s.fld f := by
  unfold State.fld State.rdN; rw [h]

theorem State.bit_congr_rd {s t : State} (f : Fld) (h : t.rd f.addr = s.rd f.addr) : t.bit f = s.bit f := by
  unfold State.bit; rw [State.fld_congr_rd f h]

/-- What leaves the register file alone leaves every reading alone. -/
theorem State.rd_congr {s t : State} (h : t.regs = s.regs) (a : Nat) : t.rd a = s.rd a := by
  unfold State.rd; rw [h]

theorem State.fld_congr {s t : State} (h : t.regs = s.regs) (f : Fld) : t.fld f = s.fld f := by
  unfold State.fld State.rdN; rw [State.rd_congr h]

theorem State.bit_congr {s t : State} (h : t.regs = s.regs) (f : Fld) : t.bit f = s.bit f := by
  unfold State.bit; rw [State.fld_congr h]

/-- R41. A counter below its end counts by one and keeps SAT. -/
theorem State.count_below (s : State) (a : Nat) (h : bitsOf (s.rdN a) 0 31 + 1 < 0x7FFFFFFF) :
    bitsOf ((s.count a).rdN a) 0 31 = bitsOf (s.rdN a) 0 31 + 1 ∧ bitsOf ((s.count a).rdN a) 31 1 = bitsOf (s.rdN a) 31 1 := by
  have e : s.count a = s.wrN a (putBits (s.rdN a) 0 31 (bitsOf (s.rdN a) 0 31 + 1)) := by
    unfold State.count
    dsimp only
    rw [if_pos h]
  rw [e, State.rdN_wrN_self, bitsOf_mod _ _ _ (by omega), bitsOf_mod _ _ _ (by omega), bitsOf_putBits_self,
    bitsOf_putBits_other _ _ _ _ _ _ (by omega)]
  exact ⟨Nat.mod_eq_of_lt (by omega), rfl⟩

/-- R41. A counter at its end saturates, with SAT set. -/
theorem State.count_end (s : State) (a : Nat) (h : ¬ bitsOf (s.rdN a) 0 31 + 1 < 0x7FFFFFFF) : (s.count a).rdN a = 0xFFFFFFFF := by
  have e : s.count a = s.wrN a 0xFFFFFFFF := by
    unfold State.count
    dsimp only
    rw [if_neg h]
  rw [e, State.rdN_wrN_self]
  norm_num

/-! ### Memory -/

@[simp] theorem State.memB_setMemB_self (s : State) (a : Nat) (b : Byte) : (s.setMemB a b).memB a = b := Sparse.get_put_same _ _ _ _

theorem State.memB_setMemB_ne (s : State) {a x : Nat} (b : Byte) (h : x ≠ a) : (s.setMemB a b).memB x = s.memB x :=
  Sparse.get_put_other _ _ _ h

/-- What leaves memory alone leaves every byte alone. -/
theorem State.memB_congr {s t : State} (h : t.mem = s.mem) (a : Nat) : t.memB a = s.memB a := by
  unfold State.memB; rw [h]

/-- Bytes put from an address on: each reads as put, every other byte as before. -/
theorem State.memB_pokeBytes (bs : List Byte) (s : State) (a x : Nat) :
    (s.pokeBytes a bs).memB x = if a ≤ x ∧ x < a + bs.length then bs.getD (x - a) 0#8 else s.memB x := by
  induction bs generalizing s a with
  | nil => rw [if_neg (by simp)]; rfl
  | cons b t ih =>
    unfold State.pokeBytes
    rw [ih]
    by_cases h1 : a + 1 ≤ x ∧ x < a + 1 + t.length
    · rw [if_pos h1, if_pos (by simp; omega)]
      have : x - a = (x - (a + 1)) + 1 := by omega
      rw [this]; rfl
    · rw [if_neg h1]
      by_cases h2 : x = a
      · subst h2; rw [State.memB_setMemB_self, if_pos (by simp)]; simp
      · rw [State.memB_setMemB_ne _ _ h2, if_neg (by simp; omega)]

@[simp] theorem State.setWrong_mem (s : State) (a k : Nat) : (s.setWrong a k).mem = s.mem := rfl

theorem State.wrongIf_mem (s : State) (c : Prop) [Decidable c] (a k : Nat) :
    (if c then (s.setWrong a k).setB FLT_ECCINJ_ARM false else s).mem = s.mem := by
  split
  · exact (State.setB_mem _ _ _).trans (State.setWrong_mem _ _ _)
  · rfl

theorem State.eccStore_mem (s : State) (a n : Nat) : (s.eccStore a n).mem = s.mem := by
  unfold State.eccStore
  by_cases h0 : n = 0
  · rw [if_pos h0]
  · rw [if_neg h0]
    by_cases h1 : s.flips.isEmpty
    · simp only [h1, if_true]
      exact State.wrongIf_mem _ _ _ _
    · simp only [h1, if_false, Bool.false_eq_true]
      exact (State.wrongIf_mem _ _ _ _).trans rfl

/-- R9, R25. Stored bytes read back; every other byte of memory is unchanged. -/
theorem State.memB_setMemBytes (s : State) (a : Nat) (bs : List Byte) (x : Nat) :
    (s.setMemBytes a bs).memB x = if a ≤ x ∧ x < a + bs.length then bs.getD (x - a) 0#8 else s.memB x := by
  unfold State.setMemBytes
  rw [State.memB_congr (State.eccStore_mem _ _ _), State.memB_pokeBytes]

@[simp] theorem State.pokeBytes_regs (bs : List Byte) (s : State) (a : Nat) : (s.pokeBytes a bs).regs = s.regs := by
  induction bs generalizing s a with
  | nil => rfl
  | cons b t ih => exact ih _ _

/-- A store of bytes touches no register but the armed ECC injection. -/
theorem State.rd_setMemBytes (s : State) (a : Nat) (bs : List Byte) {r : Nat} (h : r ≠ FLT_ECCINJ) :
    (s.setMemBytes a bs).rd r = s.rd r := by
  have hf : ∀ (u : State) (c : Prop) [Decidable c] (k : Nat),
      (if c then (u.setWrong a k).setB FLT_ECCINJ_ARM false else u).rd r = u.rd r := by
    intro u c _ k
    split
    · exact (State.rd_setB_ne _ _ _ h).trans rfl
    · rfl
  unfold State.setMemBytes State.eccStore
  split
  · exact State.rd_congr (State.pokeBytes_regs _ _ _) r
  · dsimp only
    rw [hf]
    split
    · exact State.rd_congr (State.pokeBytes_regs _ _ _) r
    · exact State.rd_congr (State.pokeBytes_regs _ _ _) r

@[simp] theorem State.pokeBytes_engs (bs : List Byte) (s : State) (a : Nat) : (s.pokeBytes a bs).engs = s.engs := by
  induction bs generalizing s a with
  | nil => rfl
  | cons b t ih => exact ih _ _

/-- A store of bytes touches no engine. -/
@[simp] theorem State.setMemBytes_engs (s : State) (a : Nat) (bs : List Byte) : (s.setMemBytes a bs).engs = s.engs := by
  have hf : ∀ (u : State) (c : Prop) [Decidable c] (k : Nat),
      (if c then (u.setWrong a k).setB FLT_ECCINJ_ARM false else u).engs = u.engs := by
    intro u c _ k
    split
    · exact (State.setB_engs _ _ _).trans rfl
    · rfl
  unfold State.setMemBytes State.eccStore
  split
  · exact State.pokeBytes_engs _ _ _
  · dsimp only
    rw [hf]
    split
    · exact State.pokeBytes_engs _ _ _
    · exact State.pokeBytes_engs _ _ _

end Machine

end Sys2Proof
end

