-- ==== Sys2Proof/Laws/Ops.lean ====
section
/-!
SUPPORT. What the shared operations can do: the gates that a register write passes, an event through FLT, and loops.
-/

namespace Sys2Proof.Machine

/-! ### Gates -/

/-- A write that is taken has its effect. -/
theorem State.gate_taken {s : State} {m : Master} (op : State → State) (h : taken m s) : s.gate m op = op s := by
  unfold State.gate
  split
  · rename_i hm; rw [if_pos (h hm)]
  · rfl

/-- R37, R39. A host write while a long operation runs is counted and has no other effect. -/
theorem State.gate_busy {s : State} (op : State → State) (h : s.bit GLB_STATUS_BUSY = true) :
    s.gate .host op = s.count GLB_REJECT := by
  unfold State.gate State.hostWriteOk
  simp [h]

/-- R518, R525. A host write that is neither taken nor counted has no effect. -/
theorem State.gate_closed {s : State} (op : State → State) (h : s.hostWriteOk = false) (hb : s.bit GLB_STATUS_BUSY = false) :
    s.gate .host op = s := by
  unfold State.gate
  simp [h, hb]

theorem State.loaderGate_taken {s : State} {m : Master} (op : State → State) (h : loaderTaken m s) :
    s.loaderGate m op = op s := by
  unfold State.loaderGate
  split
  · rename_i hm; rw [if_pos (h hm)]
  · rfl

theorem State.startGate_awake {s : State} (m : Master) (a : Nat) (op : State → State) (h : s.awake = true) :
    s.startGate m a op = op s := by
  unfold State.startGate
  rw [if_pos h]

/-! ### Events -/

/-- R374. A source that the table does not list raises nothing. -/
theorem State.raiseEv_unlisted (s : State) (e : Ev) (h : fltListed e.src = false) : State.raiseEv e s = s := by
  unfold State.raiseEv
  rw [if_pos (by simp [h])]

/-- R374. A source that the table does not list raises nothing. -/
theorem State.raiseD_unlisted (s : State) (src inst detail : Nat) (h : fltListed src = false) :
    s.raiseD src inst detail = s := State.raiseEv_unlisted s _ h

/-- R378. An event of a listed source at an edge of the fault clock is sampled at once. -/
theorem State.raiseEv_even {s : State} {e : Ev} (h : fltListed e.src = true) (ht : s.tick % 2 = 0) :
    State.raiseEv e s = State.fltSample e s := by
  unfold State.raiseEv
  rw [if_neg (by simp [h]), if_pos ht]

/-- R15. An event of a listed source between two edges of the fault clock waits for the next. -/
theorem State.raiseEv_odd {s : State} {e : Ev} (h : fltListed e.src = true) (ht : s.tick % 2 ≠ 0) :
    State.raiseEv e s = State.fltLater 1 e s := by
  unfold State.raiseEv
  rw [if_neg (by simp [h]), if_neg ht]

/-- R383. The end of a condition at an edge of the fault clock is sampled at once. -/
theorem State.fltEnd_even {s : State} {src inst : Nat} (ht : s.tick % 2 = 0) : s.fltEnd src inst = s.fltEndNow src inst := by
  unfold State.fltEnd
  rw [if_pos ht]

/-! ### The issue of an instruction -/

/-- An instruction that goes on an engine is what the command of its kind does. -/
theorem State.issue_goes {s : State} {e : Fin 16} {i : Ins} {len : Nat} (act : Ins → Nat → State → State) (h : s.goes e i len)
    {row : Instr} (hr : s.insRow e i = row) : s.issue e row act = act i len (s.fetched e len) := by
  obtain ⟨h0, h1, h2, h3, h4⟩ := h
  have hrow : s.engRow e = some row := by
    unfold State.engRow
    rw [if_neg (by simp [h0]), if_pos h1, h2, ← hr]
  unfold State.issue
  rw [if_pos hrow, h2]
  simp only [h3]
  rw [if_neg (by omega)]
  rfl

/-- What an engine cannot fetch, or is no legal instruction, ends the run. -/
theorem State.issue_bad {s : State} {e : Fin 16} {cause addr : Nat} {off : Option Nat} (act : Ins → Nat → State → State)
    (ho : s.overBudget e.val = false) (hd : s.engDue e.val = true) (h : s.engFetch e.val = .bad cause addr off) :
    s.issue e (.illegalInstruction e) act = (s.pwrAcc off).insFault e.val cause addr := by
  have hrow : s.engRow e = some (.illegalInstruction e) := by
    unfold State.engRow
    rw [if_neg (by simp [ho]), if_pos hd, h]
  unfold State.issue
  rw [if_pos hrow, h]

/-! ### Loops -/

@[simp] theorem forL_nil {α : Type} (f : α → State → State) (s : State) : forL [] f s = s := rfl

@[simp] theorem forL_cons {α : Type} (x : α) (l : List α) (f : α → State → State) (s : State) :
    forL (x :: l) f s = forL l f (f x s) := rfl

/-- A loop of operations that keep something keeps it. -/
theorem forL_keeps {α β : Type} (g : State → β) (l : List α) (f : α → State → State) (h : ∀ x t, g (f x t) = g t) (s : State) :
    g (forL l f s) = g s := by
  induction l generalizing s with
  | nil => rfl
  | cons x l ih => rw [forL_cons, ih, h]

end Sys2Proof.Machine
end

