-- ==== Sys2Proof/Laws/Engine.lean ====
section
/-!
SUPPORT. Internal tables, and the context of the running slot: what is read after an update of an engine, of a slot, of a
register of the running slot.
-/

namespace Sys2Proof.Machine

/-! ### Internal tables -/

@[simp] theorem tget_tput_self {α : Type} [DecidableEq α] (d : α) (l : List (Nat × α)) (i : Nat) (v : α) :
    tget d (tput d l i v) i = v := Sparse.get_put_same _ _ _ _

theorem tget_tput_ne {α : Type} [DecidableEq α] (d : α) (l : List (Nat × α)) {i j : Nat} (v : α) (h : j ≠ i) :
    tget d (tput d l i v) j = tget d l j := Sparse.get_put_other _ _ _ h

/-! ### Engines and slots -/

@[simp] theorem State.eng_updEng_self (s : State) (e : Nat) (f : EngSt → EngSt) : (s.updEng e f).eng e = f (s.eng e) :=
  tget_tput_self _ _ _ _

theorem State.eng_updEng_ne (s : State) {e k : Nat} (f : EngSt → EngSt) (h : k ≠ e) : (s.updEng e f).eng k = s.eng k :=
  tget_tput_ne _ _ _ h

@[simp] theorem State.updEng_bit (s : State) (e : Nat) (f : EngSt → EngSt) (g : Fld) : (s.updEng e f).bit g = s.bit g :=
  State.bit_congr (t := s.updEng e f) (s := s) rfl g

@[simp] theorem State.updEng_fld (s : State) (e : Nat) (f : EngSt → EngSt) (g : Fld) : (s.updEng e f).fld g = s.fld g :=
  State.fld_congr (t := s.updEng e f) (s := s) rfl g

@[simp] theorem State.engSlot_updEng (s : State) (e : Nat) (f : EngSt → EngSt) (k : Nat) : (s.updEng e f).engSlot k = s.engSlot k :=
  State.updEng_fld s e f _

@[simp] theorem State.slot_updSlot_self (s : State) (e k : Nat) (f : SlotSt → SlotSt) : (s.updSlot e k f).slot e k = f (s.slot e k) := by
  unfold State.slot State.updSlot
  rw [State.eng_updEng_self]
  exact tget_tput_self _ _ _ _

theorem State.slot_updSlot_ne (s : State) (e : Nat) {k j : Nat} (f : SlotSt → SlotSt) (h : j ≠ k) :
    (s.updSlot e k f).slot e j = s.slot e j := by
  unfold State.slot State.updSlot
  rw [State.eng_updEng_self]
  exact tget_tput_ne _ _ _ h

theorem State.eng_updSlot_ne (s : State) {e j : Nat} (k : Nat) (f : SlotSt → SlotSt) (h : j ≠ e) :
    (s.updSlot e k f).eng j = s.eng j := State.eng_updEng_ne s _ h

/-- An update of an engine that leaves its contexts alone leaves every slot alone. -/
theorem State.slot_updEng (s : State) (e : Nat) (f : EngSt → EngSt) (hf : ∀ g, (f g).slots = g.slots) (k : Nat) :
    (s.updEng e f).slot e k = s.slot e k := by
  unfold State.slot
  rw [State.eng_updEng_self, hf]

@[simp] theorem State.engSlot_updCtx (s : State) (e : Nat) (f : SlotSt → SlotSt) (k : Nat) : (s.updCtx e f).engSlot k = s.engSlot k :=
  State.engSlot_updEng s e _ k

@[simp] theorem State.ctx_updCtx (s : State) (e : Nat) (f : SlotSt → SlotSt) : (s.updCtx e f).ctx e = f (s.ctx e) := by
  have h : (s.updCtx e f).engSlot e = s.engSlot e := State.engSlot_updCtx s e f e
  unfold State.ctx
  rw [h]
  exact State.slot_updSlot_self s e _ f

theorem State.ctx_updEng (s : State) (e : Nat) (f : EngSt → EngSt) (hf : ∀ g, (f g).slots = g.slots) :
    (s.updEng e f).ctx e = s.ctx e := by
  unfold State.ctx
  rw [State.engSlot_updEng]
  exact State.slot_updEng s e f hf _

/-! ### Retiring an instruction -/

@[simp] theorem State.ctx_occupy (s : State) (e n : Nat) : (s.occupy e n).ctx e = s.ctx e := s.ctx_updEng e _ (fun _ => rfl)

@[simp] theorem State.ctx_avail (s : State) (e r lat mac : Nat) : (s.avail e r lat mac).ctx e = s.ctx e := by
  unfold State.avail
  dsimp only
  split
  · rfl
  · exact s.ctx_updEng e _ (fun _ => rfl)

/-- What `setX` does to the context of the running slot: x0 is not written. -/
theorem State.ctx_setX (s : State) (e r v : Nat) :
    (s.setX e r v).ctx e = if r = 0 then s.ctx e else { s.ctx e with xs := tput 0#32 (s.ctx e).xs r (BitVec.ofNat 32 v) } := by
  unfold State.setX
  split
  · rfl
  · exact State.ctx_updCtx _ _ _

/-- What retiring does to the context of the running slot: the PC moves. -/
theorem State.ctx_retire (s : State) (e pc issue : Nat) : (s.retire e pc issue).ctx e = { s.ctx e with pc := pc % 2 ^ 32 } := by
  unfold State.retire
  rw [State.ctx_occupy]
  refine (State.ctx_updEng _ e _ ?_).trans (State.ctx_updCtx s e _)
  exact fun _ => rfl

/-- What an instruction with a result in x[rd] does to the context of its slot. -/
theorem State.ctx_retireX (s : State) (e len rd v lat mac issue : Nat) :
    (s.retireX e len rd v lat mac issue).ctx e =
      { s.ctx e with
        pc := ((s.ctx e).pc + len) % 2 ^ 32
        xs := if rd = 0 then (s.ctx e).xs else tput 0#32 (s.ctx e).xs rd (BitVec.ofNat 32 v) } := by
  unfold State.retireX State.nextPc
  rw [State.ctx_retire, State.ctx_avail, State.ctx_setX]
  split <;> rfl

/-! ### What retiring leaves alone -/

@[simp] theorem State.setX_regs (s : State) (e r v : Nat) : (s.setX e r v).regs = s.regs := by unfold State.setX; split <;> rfl
@[simp] theorem State.setX_mem (s : State) (e r v : Nat) : (s.setX e r v).mem = s.mem := by unfold State.setX; split <;> rfl
@[simp] theorem State.setX_agenda (s : State) (e r v : Nat) : (s.setX e r v).agenda = s.agenda := by unfold State.setX; split <;> rfl
@[simp] theorem State.setX_out (s : State) (e r v : Nat) : (s.setX e r v).out = s.out := by unfold State.setX; split <;> rfl
@[simp] theorem State.setX_tick (s : State) (e r v : Nat) : (s.setX e r v).tick = s.tick := by unfold State.setX; split <;> rfl

@[simp] theorem State.avail_regs (s : State) (e r lat mac : Nat) : (s.avail e r lat mac).regs = s.regs := by unfold State.avail; dsimp only; split <;> rfl
@[simp] theorem State.avail_mem (s : State) (e r lat mac : Nat) : (s.avail e r lat mac).mem = s.mem := by unfold State.avail; dsimp only; split <;> rfl
@[simp] theorem State.avail_agenda (s : State) (e r lat mac : Nat) : (s.avail e r lat mac).agenda = s.agenda := by unfold State.avail; dsimp only; split <;> rfl
@[simp] theorem State.avail_out (s : State) (e r lat mac : Nat) : (s.avail e r lat mac).out = s.out := by unfold State.avail; dsimp only; split <;> rfl
@[simp] theorem State.avail_tick (s : State) (e r lat mac : Nat) : (s.avail e r lat mac).tick = s.tick := by unfold State.avail; dsimp only; split <;> rfl

@[simp] theorem State.retire_regs (s : State) (e pc issue : Nat) : (s.retire e pc issue).regs = s.regs := by unfold State.retire State.occupy State.updCtx State.updSlot State.updEng; dsimp only
@[simp] theorem State.retire_mem (s : State) (e pc issue : Nat) : (s.retire e pc issue).mem = s.mem := by unfold State.retire State.occupy State.updCtx State.updSlot State.updEng; dsimp only
@[simp] theorem State.retire_agenda (s : State) (e pc issue : Nat) : (s.retire e pc issue).agenda = s.agenda := by unfold State.retire State.occupy State.updCtx State.updSlot State.updEng; dsimp only
@[simp] theorem State.retire_out (s : State) (e pc issue : Nat) : (s.retire e pc issue).out = s.out := by unfold State.retire State.occupy State.updCtx State.updSlot State.updEng; dsimp only
@[simp] theorem State.retire_tick (s : State) (e pc issue : Nat) : (s.retire e pc issue).tick = s.tick := by unfold State.retire State.occupy State.updCtx State.updSlot State.updEng; dsimp only

@[simp] theorem State.retireX_regs (s : State) (e len rd v lat mac issue : Nat) : (s.retireX e len rd v lat mac issue).regs = s.regs := by
  unfold State.retireX; rw [State.retire_regs, State.avail_regs, State.setX_regs]
@[simp] theorem State.retireX_mem (s : State) (e len rd v lat mac issue : Nat) : (s.retireX e len rd v lat mac issue).mem = s.mem := by
  unfold State.retireX; rw [State.retire_mem, State.avail_mem, State.setX_mem]
@[simp] theorem State.retireX_agenda (s : State) (e len rd v lat mac issue : Nat) : (s.retireX e len rd v lat mac issue).agenda = s.agenda := by
  unfold State.retireX; rw [State.retire_agenda, State.avail_agenda, State.setX_agenda]
@[simp] theorem State.retireX_out (s : State) (e len rd v lat mac issue : Nat) : (s.retireX e len rd v lat mac issue).out = s.out := by
  unfold State.retireX; rw [State.retire_out, State.avail_out, State.setX_out]
@[simp] theorem State.retireX_tick (s : State) (e len rd v lat mac issue : Nat) : (s.retireX e len rd v lat mac issue).tick = s.tick := by
  unfold State.retireX; rw [State.retire_tick, State.avail_tick, State.setX_tick]

end Sys2Proof.Machine
end

