-- ==== Sys2Proof/Laws/Fields.lean ====
section
/-!
SUPPORT. What a write of a word does to one field of a register (R5), and that fields do not act on each other.
-/

namespace Sys2Proof.Machine

/-- Writing back what a field holds changes nothing. -/
theorem putBits_same (n lo w : Nat) : putBits n lo w (bitsOf n lo w) = n := by
  apply Nat.eq_of_testBit_eq
  intro i
  rw [testBit_putBits]
  split
  · rename_i h
    rw [testBit_bitsOf, show lo + (i - lo) = i by omega, decide_eq_true (show i - lo < w by omega), Bool.true_and]
  · rfl

/-- R5. The value of a field after a write: `o` the old value, `v` the written one. -/
def FRow.after (f : FRow) (locked : Bool) (v o : Nat) : Nat :=
  match f.ty with
  | .rw => f.stored v % 2 ^ f.width
  | .rwl => if locked then o else f.stored v % 2 ^ f.width
  | .w1c => o - (o &&& v)
  | .w1s => o ||| v
  | .ro | .wo => o

/-- A field's merge acts on that field as its type says. -/
theorem FRow.merge_self (f : FRow) (locked : Bool) (w old : Nat) :
    bitsOf (f.merge locked w old) f.lo f.width = f.after locked (bitsOf w f.lo f.width) (bitsOf old f.lo f.width) := by
  unfold FRow.merge FRow.after
  dsimp only
  have ho := bitsOf_lt old f.lo f.width
  have hv := bitsOf_lt w f.lo f.width
  cases f.ty with
  | rw => exact bitsOf_putBits_self _ _ _ _
  | ro => rfl
  | w1c => exact (bitsOf_putBits_self _ _ _ _).trans (Nat.mod_eq_of_lt (by omega))
  | w1s => exact (bitsOf_putBits_self _ _ _ _).trans (Nat.mod_eq_of_lt (Nat.or_lt_two_pow ho hv))
  | wo => rfl
  | rwl =>
    cases locked with
    | true => rfl
    | false => exact bitsOf_putBits_self _ _ _ _

/-- A field's merge is the old word with other bits in that field's place. -/
theorem FRow.merge_eq (f : FRow) (locked : Bool) (w old : Nat) :
    f.merge locked w old = old ∨ ∃ v, f.merge locked w old = putBits old f.lo f.width v := by
  unfold FRow.merge
  dsimp only
  cases f.ty with
  | rw => exact .inr ⟨_, rfl⟩
  | ro => exact .inl rfl
  | w1c => exact .inr ⟨_, rfl⟩
  | w1s => exact .inr ⟨_, rfl⟩
  | wo => exact .inl rfl
  | rwl =>
    cases locked with
    | true => exact .inl rfl
    | false => exact .inr ⟨_, rfl⟩

/-- It keeps the bits of every place beside it. -/
theorem FRow.merge_other (f : FRow) (locked : Bool) (w old lo width : Nat)
    (h : f.lo + f.width ≤ lo ∨ lo + width ≤ f.lo) : bitsOf (f.merge locked w old) lo width = bitsOf old lo width := by
  rcases f.merge_eq locked w old with he | ⟨v, he⟩
  · rw [he]
  · rw [he, bitsOf_putBits_other _ _ _ _ _ _ h]

/-- Places beside every field of a list are kept. -/
theorem merges_other (l : List FRow) (locked : Bool) (w old lo width : Nat)
    (h : ∀ f ∈ l, f.lo + f.width ≤ lo ∨ lo + width ≤ f.lo) :
    bitsOf (l.foldl (fun acc f => f.merge locked w acc) old) lo width = bitsOf old lo width := by
  induction l generalizing old with
  | nil => rfl
  | cons g t ih =>
    rw [List.foldl_cons, ih _ (fun f hf => h f (.tail _ hf)), g.merge_other _ _ _ _ _ (h g (.head _))]

/-- Every field of a list without overlaps ends as its type says. -/
theorem merges_self (l : List FRow) (locked : Bool) (w old : Nat)
    (hp : l.Pairwise (fun x y => x.lo + x.width ≤ y.lo ∨ y.lo + y.width ≤ x.lo)) (f : FRow) (hf : f ∈ l) :
    bitsOf (l.foldl (fun acc f => f.merge locked w acc) old) f.lo f.width =
      f.after locked (bitsOf w f.lo f.width) (bitsOf old f.lo f.width) := by
  induction l generalizing old with
  | nil => cases hf
  | cons g t ih =>
    rw [List.pairwise_cons] at hp
    rw [List.foldl_cons]
    rcases List.mem_cons.1 hf with rfl | ht
    · rw [merges_other t locked w _ _ _ (fun x hx => (hp.1 x hx).symm), f.merge_self]
    · rw [ih _ hp.2 ht, g.merge_other _ _ _ _ _ (hp.1 f ht)]

end Sys2Proof.Machine
end

