-- ==== Sys2Proof/Laws/Frame.lean ====
section
/-!
SUPPORT. Frames compose: what each register update adds to the frame of the state that it starts from.
-/

namespace Sys2Proof.Machine

/-- A state that agrees with `s` on the register file, memory and what left the device is in every frame of it. -/
theorem frame_of_eq {as : List Nat} {s t : State} (hr : t.regs = s.regs) (hm : t.mem = s.mem) (ho : t.out = s.out) : frame as s t :=
  ⟨fun a _ => State.rd_congr hr a, fun x => State.memB_congr hm x, ho⟩

theorem frame_refl (as : List Nat) (s : State) : frame as s s := frame_of_eq rfl rfl rfl

theorem frame_trans {as : List Nat} {s t u : State} (h : frame as s t) (k : frame as t u) : frame as s u :=
  ⟨fun a ha => (k.1 a ha).trans (h.1 a ha), fun x => (k.2.1 x).trans (h.2.1 x), k.2.2.trans h.2.2⟩

/-- A write of a register whose address is named. -/
theorem frame_wrN {as : List Nat} {s t : State} (h : frame as s t) {a : Nat} (n : Nat) (ha : a ∈ as) : frame as s (t.wrN a n) :=
  frame_trans h ⟨fun _ hb => State.rd_wrN_ne t n (fun e => hb (e ▸ ha)), fun _ => rfl, rfl⟩

theorem frame_setF {as : List Nat} {s t : State} (h : frame as s t) {f : Fld} (v : Nat) (ha : f.addr ∈ as) :
    frame as s (t.setF f v) :=
  frame_trans h ⟨fun _ hb => State.rd_setF_ne t f v (fun e => hb (e ▸ ha)), fun x => State.memB_congr (State.setF_mem t f v) x,
    State.setF_out t f v⟩

theorem frame_setB {as : List Nat} {s t : State} (h : frame as s t) {f : Fld} (b : Bool) (ha : f.addr ∈ as) :
    frame as s (t.setB f b) :=
  frame_trans h ⟨fun _ hb => State.rd_setB_ne t f b (fun e => hb (e ▸ ha)), fun x => State.memB_congr (State.setB_mem t f b) x,
    State.setB_out t f b⟩

theorem frame_incr {as : List Nat} {s t : State} (h : frame as s t) {a : Nat} (ha : a ∈ as) : frame as s (t.incr a) :=
  frame_wrN h _ ha

theorem frame_count {as : List Nat} {s t : State} (h : frame as s t) {a : Nat} (ha : a ∈ as) : frame as s (t.count a) := by
  unfold State.count
  dsimp only
  split
  · exact frame_wrN h _ ha
  · exact frame_wrN h _ ha

/-- An update of state that is no register, no memory and nothing sent. -/
theorem frame_side {as : List Nat} {s t u : State} (h : frame as s t) (hr : u.regs = t.regs) (hm : u.mem = t.mem)
    (ho : u.out = t.out) : frame as s u :=
  frame_trans h (frame_of_eq hr hm ho)

theorem frame_updFlt {as : List Nat} {s t : State} (h : frame as s t) (f : FltSt → FltSt) : frame as s (t.updFlt f) :=
  frame_side h (State.updFlt_regs t f) (State.updFlt_mem t f) (State.updFlt_out t f)

theorem frame_updSelv {as : List Nat} {s t : State} (h : frame as s t) (f : SelvSt → SelvSt) : frame as s (t.updSelv f) :=
  frame_side h (State.updSelv_regs t f) (State.updSelv_mem t f) (State.updSelv_out t f)

theorem frame_updHif {as : List Nat} {s t : State} (h : frame as s t) (f : HifSt → HifSt) : frame as s (t.updHif f) :=
  frame_side h (State.updHif_regs t f) (State.updHif_mem t f) (State.updHif_out t f)

theorem frame_updRdn {as : List Nat} {s t : State} (h : frame as s t) (f : RdnSt → RdnSt) : frame as s (t.updRdn f) :=
  frame_side h (State.updRdn_regs t f) (State.updRdn_mem t f) (State.updRdn_out t f)

theorem frame_updStitch {as : List Nat} {s t : State} (h : frame as s t) (f : StitchSt → StitchSt) : frame as s (t.updStitch f) :=
  frame_side h (State.updStitch_regs t f) (State.updStitch_mem t f) (State.updStitch_out t f)

theorem frame_updTat {as : List Nat} {s t : State} (h : frame as s t) (f : TatSt → TatSt) : frame as s (t.updTat f) :=
  frame_side h (State.updTat_regs t f) (State.updTat_mem t f) (State.updTat_out t f)

theorem frame_updCel {as : List Nat} {s t : State} (h : frame as s t) (f : CelSt → CelSt) : frame as s (t.updCel f) :=
  frame_side h (State.updCel_regs t f) (State.updCel_mem t f) (State.updCel_out t f)

theorem frame_updThm {as : List Nat} {s t : State} (h : frame as s t) (f : ThmSt → ThmSt) : frame as s (t.updThm f) :=
  frame_side h (State.updThm_regs t f) (State.updThm_mem t f) (State.updThm_out t f)

theorem frame_updLnk {as : List Nat} {s t : State} (h : frame as s t) (f : LnkSt → LnkSt) : frame as s (t.updLnk f) :=
  frame_side h (State.updLnk_regs t f) (State.updLnk_mem t f) (State.updLnk_out t f)

theorem frame_updAdc {as : List Nat} {s t : State} (h : frame as s t) (f : AdcSt → AdcSt) : frame as s (t.updAdc f) :=
  frame_side h (State.updAdc_regs t f) (State.updAdc_mem t f) (State.updAdc_out t f)

theorem frame_updPhu {as : List Nat} {s t : State} (h : frame as s t) (f : PhuSt → PhuSt) : frame as s (t.updPhu f) :=
  frame_side h (State.updPhu_regs t f) (State.updPhu_mem t f) (State.updPhu_out t f)

theorem frame_updTwu {as : List Nat} {s t : State} (h : frame as s t) (f : TwuSt → TwuSt) : frame as s (t.updTwu f) :=
  frame_side h (State.updTwu_regs t f) (State.updTwu_mem t f) (State.updTwu_out t f)

theorem frame_updBank {as : List Nat} {s t : State} (h : frame as s t) (f : MemSt → MemSt) : frame as s (t.updBank f) :=
  frame_side h (State.updBank_regs t f) (State.updBank_mem t f) (State.updBank_out t f)

theorem frame_updNvm {as : List Nat} {s t : State} (h : frame as s t) (f : NvmSt → NvmSt) : frame as s (t.updNvm f) :=
  frame_side h (State.updNvm_regs t f) (State.updNvm_mem t f) (State.updNvm_out t f)

theorem frame_updBst {as : List Nat} {s t : State} (h : frame as s t) (f : BstSt → BstSt) : frame as s (t.updBst f) :=
  frame_side h (State.updBst_regs t f) (State.updBst_mem t f) (State.updBst_out t f)

theorem frame_updAge {as : List Nat} {s t : State} (h : frame as s t) (f : AgeSt → AgeSt) : frame as s (t.updAge f) :=
  frame_side h (State.updAge_regs t f) (State.updAge_mem t f) (State.updAge_out t f)

theorem frame_updEth {as : List Nat} {s t : State} (h : frame as s t) (f : EthSt → EthSt) : frame as s (t.updEth f) :=
  frame_side h (State.updEth_regs t f) (State.updEth_mem t f) (State.updEth_out t f)

theorem frame_updThb {as : List Nat} {s t : State} (h : frame as s t) (f : ThbSt → ThbSt) : frame as s (t.updThb f) :=
  frame_side h (State.updThb_regs t f) (State.updThb_mem t f) (State.updThb_out t f)

theorem frame_updHoop {as : List Nat} {s t : State} (h : frame as s t) (f : HoopSt → HoopSt) : frame as s (t.updHoop f) :=
  frame_side h (State.updHoop_regs t f) (State.updHoop_mem t f) (State.updHoop_out t f)

theorem frame_updPrk {as : List Nat} {s t : State} (h : frame as s t) (f : PrkSt → PrkSt) : frame as s (t.updPrk f) :=
  frame_side h (State.updPrk_regs t f) (State.updPrk_mem t f) (State.updPrk_out t f)

theorem frame_updNtm {as : List Nat} {s t : State} (h : frame as s t) (f : NtmSt → NtmSt) : frame as s (t.updNtm f) :=
  frame_side h (State.updNtm_regs t f) (State.updNtm_mem t f) (State.updNtm_out t f)

theorem frame_updLane {as : List Nat} {s t : State} (h : frame as s t) (l : Nat) (f : LaneSt → LaneSt) :
    frame as s (t.updLane l f) := frame_updLnk h _

theorem frame_sched {as : List Nat} {s t : State} (h : frame as s t) (d : Nat) (c : Instr) : frame as s (t.sched d c) :=
  frame_side h rfl rfl rfl

theorem frame_unsched {as : List Nat} {s t : State} (h : frame as s t) (p : Instr → Bool) : frame as s (t.unsched p) :=
  frame_side h rfl rfl rfl

theorem frame_timer {as : List Nat} {s t : State} (h : frame as s t) (d : Nat) (c : Instr) : frame as s (t.timer d c) :=
  frame_side h rfl rfl rfl

end Sys2Proof.Machine
end

