-- ==== Sys2Proof/Laws/Inv.lean ====
section
/-!
SUPPORT. The invariant of the canonical forms (State.Inv) for the shared operations: what the primitive operations over
registers, memory, fields and lists do with it. The files Laws/Inv*.lean go on with one lemma per operation.
-/

namespace Sys2Proof.Machine

theorem regs_wf {s : State} (h : s.Inv) : Sparse.wf regReset s.regs := h.1
theorem mem_wf {s : State} (h : s.Inv) : Sparse.wf memReset s.mem := h.2

theorem reset_inv : State.reset.Inv := ⟨by decide, by decide⟩

/-- The invariant speaks of registers and memory only. -/
theorem inv_mk {regs} {mem} {tick} {flt} {legs} {selv} {hif} {ntm} {eth} {rdn} {stitch} {tat} {cel} {thm} {age} {lnk} {adc} {phu} {twu} {bank} {nvm} {bst} {flips} {hoop} {engs} {thb} {prk} {gpio} {caps} {held} {rdata} {out} {agenda} {freeCtr} {pending} :
    State.Inv (State.mk regs mem tick flt legs selv hif ntm eth rdn stitch tat cel thm age lnk adc phu twu bank nvm bst flips hoop engs thb prk gpio caps held rdata out agenda freeCtr pending) ↔
      Sparse.wf regReset regs ∧ Sparse.wf memReset mem := Iff.rfl

theorem ite_inv {c : Prop} [Decidable c] {s t : State} (hs : s.Inv) (ht : t.Inv) : (if c then s else t).Inv := by
  split
  · exact hs
  · exact ht

theorem ite_inv_fst {α : Type} {c : Prop} [Decidable c] {x y : State × α} (hx : x.1.Inv) (hy : y.1.Inv) :
    (if c then x else y).1.Inv := by
  split
  · exact hx
  · exact hy

theorem ite_inv_snd {α : Type} {c : Prop} [Decidable c] {x y : α × State} (hx : x.2.Inv) (hy : y.2.Inv) :
    (if c then x else y).2.Inv := by
  split
  · exact hx
  · exact hy

/-- A fold of operations that keep the invariant keeps it. -/
theorem foldl_inv {α : Type} (f : State → α → State) (hf : ∀ s x, s.Inv → (f s x).Inv) (l : List α) {s : State} (h : s.Inv) :
    (l.foldl f s).Inv := by
  induction l generalizing s with
  | nil => exact h
  | cons x t ih => exact ih (hf s x h)

theorem foldl_inv_fst {α β : Type} (f : State × β → α → State × β) (hf : ∀ p x, p.1.Inv → (f p x).1.Inv) (l : List α)
    {p : State × β} (h : p.1.Inv) : (l.foldl f p).1.Inv := by
  induction l generalizing p with
  | nil => exact h
  | cons x t ih => exact ih (hf p x h)

theorem foldl_inv_snd {α β : Type} (f : β × State → α → β × State) (hf : ∀ p x, p.2.Inv → (f p x).2.Inv) (l : List α)
    {p : β × State} (h : p.2.Inv) : (l.foldl f p).2.Inv := by
  induction l generalizing p with
  | nil => exact h
  | cons x t ih => exact ih (hf p x h)

theorem forL_inv {α : Type} (l : List α) (f : α → State → State) {s : State} (hf : ∀ x t, t.Inv → (f x t).Inv) (h : s.Inv) :
    (forL l f s).Inv := foldl_inv _ (fun t x ht => hf x t ht) l h

theorem forN_inv (n : Nat) (f : Nat → State → State) {s : State} (hf : ∀ x t, t.Inv → (f x t).Inv) (h : s.Inv) :
    (forN n f s).Inv := foldl_inv _ (fun t x ht => hf x t ht) (upto n) h

/-- What a command answers keeps the invariant. -/
def nextInv (o : Host.Outcome State Fault Refusal) : Prop := ∀ t, o = .next t → t.Inv

theorem nextInv_next {s : State} (h : s.Inv) : nextInv (.next s) := by
  intro t ht
  cases ht
  exact h

end Sys2Proof.Machine
end

