-- ==== Sys2Proof/Laws/InvState.lean ====
section
/-!
SUPPORT. The canonical forms (State.Inv): each operation and meaning of Machine/State.lean keeps them.
-/

namespace Sys2Proof.Machine

theorem State.updFlt_inv (s : State) (f : FltSt → FltSt)
    (hI : s.Inv) : (State.updFlt s f).Inv := by
  unfold State.updFlt
  simp (maxDischargeDepth := 60) +contextual only [inv_mk, regs_wf, mem_wf, and_self, hI]

theorem State.updSelv_inv (s : State) (f : SelvSt → SelvSt)
    (hI : s.Inv) : (State.updSelv s f).Inv := by
  unfold State.updSelv
  simp (maxDischargeDepth := 60) +contextual only [inv_mk, regs_wf, mem_wf, and_self, hI]

theorem State.updHif_inv (s : State) (f : HifSt → HifSt)
    (hI : s.Inv) : (State.updHif s f).Inv := by
  unfold State.updHif
  simp (maxDischargeDepth := 60) +contextual only [inv_mk, regs_wf, mem_wf, and_self, hI]

theorem State.updRdn_inv (s : State) (f : RdnSt → RdnSt)
    (hI : s.Inv) : (State.updRdn s f).Inv := by
  unfold State.updRdn
  simp (maxDischargeDepth := 60) +contextual only [inv_mk, regs_wf, mem_wf, and_self, hI]

theorem State.updStitch_inv (s : State) (f : StitchSt → StitchSt)
    (hI : s.Inv) : (State.updStitch s f).Inv := by
  unfold State.updStitch
  simp (maxDischargeDepth := 60) +contextual only [inv_mk, regs_wf, mem_wf, and_self, hI]

theorem State.updTat_inv (s : State) (f : TatSt → TatSt)
    (hI : s.Inv) : (State.updTat s f).Inv := by
  unfold State.updTat
  simp (maxDischargeDepth := 60) +contextual only [inv_mk, regs_wf, mem_wf, and_self, hI]

theorem State.updCel_inv (s : State) (f : CelSt → CelSt)
    (hI : s.Inv) : (State.updCel s f).Inv := by
  unfold State.updCel
  simp (maxDischargeDepth := 60) +contextual only [inv_mk, regs_wf, mem_wf, and_self, hI]

theorem State.updThm_inv (s : State) (f : ThmSt → ThmSt)
    (hI : s.Inv) : (State.updThm s f).Inv := by
  unfold State.updThm
  simp (maxDischargeDepth := 60) +contextual only [inv_mk, regs_wf, mem_wf, and_self, hI]

theorem State.updLnk_inv (s : State) (f : LnkSt → LnkSt)
    (hI : s.Inv) : (State.updLnk s f).Inv := by
  unfold State.updLnk
  simp (maxDischargeDepth := 60) +contextual only [inv_mk, regs_wf, mem_wf, and_self, hI]

theorem State.updAdc_inv (s : State) (f : AdcSt → AdcSt)
    (hI : s.Inv) : (State.updAdc s f).Inv := by
  unfold State.updAdc
  simp (maxDischargeDepth := 60) +contextual only [inv_mk, regs_wf, mem_wf, and_self, hI]

theorem State.updPhu_inv (s : State) (f : PhuSt → PhuSt)
    (hI : s.Inv) : (State.updPhu s f).Inv := by
  unfold State.updPhu
  simp (maxDischargeDepth := 60) +contextual only [inv_mk, regs_wf, mem_wf, and_self, hI]

theorem State.updTwu_inv (s : State) (f : TwuSt → TwuSt)
    (hI : s.Inv) : (State.updTwu s f).Inv := by
  unfold State.updTwu
  simp (maxDischargeDepth := 60) +contextual only [inv_mk, regs_wf, mem_wf, and_self, hI]

theorem State.updBank_inv (s : State) (f : MemSt → MemSt)
    (hI : s.Inv) : (State.updBank s f).Inv := by
  unfold State.updBank
  simp (maxDischargeDepth := 60) +contextual only [inv_mk, regs_wf, mem_wf, and_self, hI]

theorem State.updNvm_inv (s : State) (f : NvmSt → NvmSt)
    (hI : s.Inv) : (State.updNvm s f).Inv := by
  unfold State.updNvm
  simp (maxDischargeDepth := 60) +contextual only [inv_mk, regs_wf, mem_wf, and_self, hI]

theorem State.updBst_inv (s : State) (f : BstSt → BstSt)
    (hI : s.Inv) : (State.updBst s f).Inv := by
  unfold State.updBst
  simp (maxDischargeDepth := 60) +contextual only [inv_mk, regs_wf, mem_wf, and_self, hI]

theorem State.updAge_inv (s : State) (f : AgeSt → AgeSt)
    (hI : s.Inv) : (State.updAge s f).Inv := by
  unfold State.updAge
  simp (maxDischargeDepth := 60) +contextual only [inv_mk, regs_wf, mem_wf, and_self, hI]

theorem State.updEth_inv (s : State) (f : EthSt → EthSt)
    (hI : s.Inv) : (State.updEth s f).Inv := by
  unfold State.updEth
  simp (maxDischargeDepth := 60) +contextual only [inv_mk, regs_wf, mem_wf, and_self, hI]

theorem State.updThb_inv (s : State) (f : ThbSt → ThbSt)
    (hI : s.Inv) : (State.updThb s f).Inv := by
  unfold State.updThb
  simp (maxDischargeDepth := 60) +contextual only [inv_mk, regs_wf, mem_wf, and_self, hI]

theorem State.updHoop_inv (s : State) (f : HoopSt → HoopSt)
    (hI : s.Inv) : (State.updHoop s f).Inv := by
  unfold State.updHoop
  simp (maxDischargeDepth := 60) +contextual only [inv_mk, regs_wf, mem_wf, and_self, hI]

theorem State.updPrk_inv (s : State) (f : PrkSt → PrkSt)
    (hI : s.Inv) : (State.updPrk s f).Inv := by
  unfold State.updPrk
  simp (maxDischargeDepth := 60) +contextual only [inv_mk, regs_wf, mem_wf, and_self, hI]

theorem State.updNtm_inv (s : State) (f : NtmSt → NtmSt)
    (hI : s.Inv) : (State.updNtm s f).Inv := by
  unfold State.updNtm
  simp (maxDischargeDepth := 60) +contextual only [inv_mk, regs_wf, mem_wf, and_self, hI]

end Sys2Proof.Machine
end

