-- ==== Sys2Proof/Laws/InvOps.lean ====
section
/-!
SUPPORT. The canonical forms (State.Inv): each operation and meaning of Machine/Ops.lean keeps them.
-/

namespace Sys2Proof.Machine

theorem State.wr_inv (s : State) (a : Nat) (v : Word)
    (hI : s.Inv) : (State.wr s a v).Inv := by
  unfold State.wr
  simp (maxDischargeDepth := 60) +contextual only [inv_mk, regs_wf, mem_wf, Sparse.wf_put, and_self, hI]

theorem State.wrN_inv (s : State) (a n : Nat)
    (hI : s.Inv) : (State.wrN s a n).Inv := by
  unfold State.wrN
  simp (maxDischargeDepth := 60) +contextual only [State.wr_inv, hI]

theorem State.setF_inv (s : State) (f : Fld) (v : Nat)
    (hI : s.Inv) : (State.setF s f v).Inv := by
  unfold State.setF
  simp (maxDischargeDepth := 60) +contextual only [State.wrN_inv, hI]

theorem State.setB_inv (s : State) (f : Fld) (b : Bool)
    (hI : s.Inv) : (State.setB s f b).Inv := by
  unfold State.setB
  simp (maxDischargeDepth := 60) +contextual only [State.setF_inv, hI]

theorem State.setBit_inv (s : State) (a i : Nat) (b : Bool)
    (hI : s.Inv) : (State.setBit s a i b).Inv := by
  unfold State.setBit
  simp (maxDischargeDepth := 60) +contextual only [State.wrN_inv, hI]

theorem State.count_inv (s : State) (a : Nat)
    (hI : s.Inv) : (State.count s a).Inv := by
  unfold State.count
  simp (maxDischargeDepth := 60) +contextual only [State.wrN_inv, ite_inv, hI]

theorem State.countN_inv (s : State) (a n : Nat)
    (hI : s.Inv) : (State.countN s a n).Inv := by
  unfold State.countN
  simp (maxDischargeDepth := 60) +contextual only [State.wrN_inv, ite_inv, hI]

theorem State.incr_inv (s : State) (a : Nat)
    (hI : s.Inv) : (State.incr s a).Inv := by
  unfold State.incr
  simp (maxDischargeDepth := 60) +contextual only [State.wrN_inv, hI]

theorem State.setMemB_inv (s : State) (a : Nat) (b : Byte)
    (hI : s.Inv) : (State.setMemB s a b).Inv := by
  unfold State.setMemB
  simp (maxDischargeDepth := 60) +contextual only [inv_mk, regs_wf, mem_wf, Sparse.wf_put, and_self, hI]

theorem State.pokeBytes_inv (s : State) (a : Nat) (bs : List Byte) (h : s.Inv) : (s.pokeBytes a bs).Inv := by
  induction bs generalizing s a with
  | nil => exact h
  | cons b t ih => exact ih _ _ (State.setMemB_inv s a b h)

theorem State.setWrong_inv (s : State) (a k : Nat)
    (hI : s.Inv) : (State.setWrong s a k).Inv := by
  unfold State.setWrong
  simp (maxDischargeDepth := 60) +contextual only [inv_mk, regs_wf, mem_wf, and_self, hI]

theorem State.eccMeet_inv (s : State) (target unit : Nat)
    (hI : s.Inv) : (State.eccMeet s target unit).Inv := by
  unfold State.eccMeet
  simp (maxDischargeDepth := 60) +contextual only [State.setB_inv, ite_inv, hI]

theorem State.eccStore_inv (s : State) (a n : Nat)
    (hI : s.Inv) : (State.eccStore s a n).Inv := by
  unfold State.eccStore
  simp (maxDischargeDepth := 60) +contextual only [State.setWrong_inv, State.setB_inv, inv_mk, ite_inv, regs_wf, mem_wf,
    and_self, hI]

theorem State.setMemBytes_inv (s : State) (a : Nat) (bs : List Byte)
    (hI : s.Inv) : (State.setMemBytes s a bs).Inv := by
  unfold State.setMemBytes
  simp (maxDischargeDepth := 60) +contextual only [State.pokeBytes_inv, State.eccStore_inv, hI]

theorem State.setMemN_inv (s : State) (a k v : Nat)
    (hI : s.Inv) : (State.setMemN s a k v).Inv := by
  unfold State.setMemN
  simp (maxDischargeDepth := 60) +contextual only [State.setMemBytes_inv, hI]

theorem State.emit_inv (s : State) (o : Out)
    (hI : s.Inv) : (State.emit s o).Inv := by
  unfold State.emit
  simp (maxDischargeDepth := 60) +contextual only [inv_mk, regs_wf, mem_wf, and_self, hI]

theorem State.free_inv (s : State) (n : Nat)
    (hI : s.Inv) : (State.free s n).2.Inv := by
  unfold State.free
  simp (maxDischargeDepth := 60) +contextual only [inv_mk, regs_wf, mem_wf, and_self, hI]

theorem State.schedAt_inv (s : State) (t : Nat) (c : Instr)
    (hI : s.Inv) : (State.schedAt s t c).Inv := by
  unfold State.schedAt
  simp (maxDischargeDepth := 60) +contextual only [inv_mk, regs_wf, mem_wf, and_self, hI]

theorem State.sched_inv (s : State) (d : Nat) (c : Instr)
    (hI : s.Inv) : (State.sched s d c).Inv := by
  unfold State.sched
  simp (maxDischargeDepth := 60) +contextual only [State.schedAt_inv, hI]

theorem State.unsched_inv (s : State) (p : Instr → Bool)
    (hI : s.Inv) : (State.unsched s p).Inv := by
  unfold State.unsched
  simp (maxDischargeDepth := 60) +contextual only [inv_mk, regs_wf, mem_wf, and_self, hI]

theorem State.timer_inv (s : State) (d : Nat) (c : Instr)
    (hI : s.Inv) : (State.timer s d c).Inv := by
  unfold State.timer
  simp (maxDischargeDepth := 60) +contextual only [State.unsched_inv, State.sched_inv, hI]

end Sys2Proof.Machine
end

