-- ==== Sys2Proof/Laws/InvLegs.lean ====
section
/-!
SUPPORT. The canonical forms (State.Inv): each operation and meaning of Machine/Legs.lean keeps them.
-/

namespace Sys2Proof.Machine

theorem State.updLeg_inv (s : State) (n : Nat) (f : LegSt → LegSt)
    (hI : s.Inv) : (State.updLeg s n f).Inv := by
  unfold State.updLeg
  simp (maxDischargeDepth := 60) +contextual only [inv_mk, regs_wf, mem_wf, and_self, hI]

theorem State.setPin_inv (s : State) (n : Nat) (high level : Bool) (t : Nat)
    (hI : s.Inv) : (State.setPin s n high level t).Inv := by
  unfold State.setPin
  simp (maxDischargeDepth := 60) +contextual only [State.setBit_inv, State.emit_inv, ite_inv, hI]

theorem State.setSide_inv (s : State) (n : Nat) (high level : Bool) (t : Nat)
    (hI : s.Inv) : (State.setSide s n high level t).Inv := by
  unfold State.setSide
  simp (maxDischargeDepth := 60) +contextual only [State.setB_inv, State.setPin_inv, ite_inv, hI]

theorem State.startAck_inv (s : State) (n : Nat) (high : Bool)
    (hI : s.Inv) : (State.startAck s n high).Inv := by
  unfold State.startAck
  simp (maxDischargeDepth := 60) +contextual only [State.unsched_inv, State.sched_inv, hI]

theorem State.turnOff_inv (s : State) (n : Nat) (high : Bool) (t : Nat)
    (hI : s.Inv) : (State.turnOff s n high t).Inv := by
  unfold State.turnOff
  simp (maxDischargeDepth := 60) +contextual only [State.setSide_inv, State.updLeg_inv, State.setB_inv, State.unsched_inv,
    State.sched_inv, State.startAck_inv, ite_inv, hI]

theorem State.startBlank_inv (s : State) (n : Nat)
    (hI : s.Inv) : (State.startBlank s n).Inv := by
  unfold State.startBlank
  simp (maxDischargeDepth := 60) +contextual only [State.updLeg_inv, State.unsched_inv, State.sched_inv, hI]

theorem State.tryTurnOn_inv (s : State) (n : Nat) (t : Nat)
    (hI : s.Inv) : (State.tryTurnOn s n t).Inv := by
  unfold State.tryTurnOn
  (repeat' split) <;> simp (maxDischargeDepth := 60) +contextual only [State.updLeg_inv, State.setSide_inv,
    State.startBlank_inv, ite_inv, hI]

theorem State.legSafe_inv (s : State) (n : Nat)
    (hI : s.Inv) : (State.legSafe s n).Inv := by
  unfold State.legSafe
  simp (maxDischargeDepth := 60) +contextual only [State.unsched_inv, State.setB_inv, State.updLeg_inv, State.turnOff_inv,
    State.startAck_inv, State.tryTurnOn_inv, ite_inv, hI]

theorem State.ackLiveUpdate_inv (s : State) (n : Nat)
    (hI : s.Inv) : (State.ackLiveUpdate s n).Inv := by
  unfold State.ackLiveUpdate
  simp (maxDischargeDepth := 60) +contextual only [State.setBit_inv, ite_inv, hI]

theorem State.legHalt_inv (s : State) (n : Nat)
    (hI : s.Inv) : (State.legHalt s n).Inv := by
  unfold State.legHalt
  simp (maxDischargeDepth := 60) +contextual only [State.unsched_inv, State.updLeg_inv, hI]

end Sys2Proof.Machine
end

