-- ==== Sys2Proof/Laws/InvFaults.lean ====
section
/-!
SUPPORT. The canonical forms (State.Inv): each operation and meaning of Machine/Faults.lean keeps them.
-/

namespace Sys2Proof.Machine

theorem State.updEnerg_inv (s : State)
    (hI : s.Inv) : (State.updEnerg s).Inv := by
  unfold State.updEnerg
  simp (maxDischargeDepth := 60) +contextual only [State.setB_inv, hI]

theorem State.updSafe_inv (s : State)
    (hI : s.Inv) : (State.updSafe s).Inv := by
  unfold State.updSafe
  simp (maxDischargeDepth := 60) +contextual only [State.setB_inv, State.updEnerg_inv, hI]

theorem State.msix_inv (s : State) (vec : Nat)
    (hI : s.Inv) : (State.msix s vec).Inv := by
  unfold State.msix
  simp (maxDischargeDepth := 60) +contextual only [State.emit_inv, State.updHif_inv, ite_inv, hI]

theorem State.updLane_inv (s : State) (l : Nat) (f : LaneSt → LaneSt)
    (hI : s.Inv) : (State.updLane s l f).Inv := by
  unfold State.updLane
  simp (maxDischargeDepth := 60) +contextual only [State.updLnk_inv, hI]

theorem State.tripOn_inv (s : State) (l : Nat)
    (hI : s.Inv) : (State.tripOn s l).Inv := by
  unfold State.tripOn
  simp (maxDischargeDepth := 60) +contextual only [State.updLane_inv, State.emit_inv, hI]

theorem State.sendFastTrip_inv (s : State)
    (hI : s.Inv) : (State.sendFastTrip s).Inv := by
  unfold State.sendFastTrip
  simp (maxDischargeDepth := 60) +contextual only [State.tripOn_inv, forL_inv, implies_true, hI]

theorem State.setSelvCause_inv (s : State) (src : Nat)
    (hI : s.Inv) : (State.setSelvCause s src).Inv := by
  unfold State.setSelvCause
  simp (maxDischargeDepth := 60) +contextual only [State.setBit_inv, hI]

theorem State.setSelvLive_inv (s : State) (src : Nat) (b : Bool)
    (hI : s.Inv) : (State.setSelvLive s src b).Inv := by
  unfold State.setSelvLive
  simp (maxDischargeDepth := 60) +contextual only [State.setBit_inv, hI]

theorem State.selvFirst_inv (s : State) (src : Nat)
    (hI : s.Inv) : (State.selvFirst s src).Inv := by
  unfold State.selvFirst
  simp (maxDischargeDepth := 60) +contextual only [State.wrN_inv, State.setB_inv, State.updSelv_inv, ite_inv, hI]

theorem State.latchLeg_inv (s : State) (n : Nat)
    (hI : s.Inv) : (State.latchLeg s n).Inv := by
  unfold State.latchLeg
  simp (maxDischargeDepth := 60) +contextual only [State.setBit_inv, State.wrN_inv, State.setB_inv, State.setF_inv,
    State.legHalt_inv, State.legSafe_inv, hI]

theorem State.latchBrk_inv (s : State)
    (hI : s.Inv) : (State.latchBrk s).Inv := by
  unfold State.latchBrk
  simp (maxDischargeDepth := 60) +contextual only [State.setB_inv, State.updSelv_inv, State.timer_inv, hI]

theorem State.selvLatch_inv (s : State) (src legs : Nat) (stack brk : Bool)
    (hI : s.Inv) : (State.selvLatch s src legs stack brk).1.Inv := by
  unfold State.selvLatch
  simp (maxDischargeDepth := 60) +contextual only [State.setSelvCause_inv, State.selvFirst_inv, State.updLeg_inv,
    State.latchLeg_inv, State.legSafe_inv, State.setB_inv, State.count_inv, State.sendFastTrip_inv, State.latchBrk_inv,
    State.updSafe_inv, State.setBit_inv, ite_inv, ite_inv_fst, forL_inv, and_self, implies_true, hI]

theorem State.setSrcBit_inv (s : State) (reg : Nat → Nat) (src : Nat) (b : Bool)
    (hI : s.Inv) : (State.setSrcBit s reg src b).Inv := by
  unfold State.setSrcBit
  simp (maxDischargeDepth := 60) +contextual only [State.setBit_inv, hI]

theorem State.updFifo_inv (s : State)
    (hI : s.Inv) : (State.updFifo s).Inv := by
  unfold State.updFifo
  simp (maxDischargeDepth := 60) +contextual only [State.setF_inv, State.setB_inv, hI]

theorem State.setErrPin_inv (s : State) (b : Bool)
    (hI : s.Inv) : (State.setErrPin s b).Inv := by
  unfold State.setErrPin
  simp (maxDischargeDepth := 60) +contextual only [State.setB_inv, ite_inv, hI]

theorem State.assertErr_inv (s : State)
    (hI : s.Inv) : (State.assertErr s).Inv := by
  unfold State.assertErr
  simp (maxDischargeDepth := 60) +contextual only [State.setErrPin_inv, State.updFlt_inv, State.unsched_inv, State.sched_inv,
    hI]

theorem State.pushRec_inv (s : State) (r : FltRec)
    (hI : s.Inv) : (State.pushRec s r).1.Inv := by
  unfold State.pushRec
  simp (maxDischargeDepth := 60) +contextual only [State.incr_inv, State.updFlt_inv, State.updFifo_inv, State.count_inv,
    ite_inv, ite_inv_fst, hI]

theorem State.fltWindow_inv (s : State) (src : Nat) (k : Classified)
    (hI : s.Inv) : (State.fltWindow s src k).Inv := by
  unfold State.fltWindow
  simp (maxDischargeDepth := 60) +contextual only [State.schedAt_inv, State.updFlt_inv, State.setSrcBit_inv, ite_inv, hI]

theorem State.recCofirst_inv (s : State) (edge src : Nat)
    (hI : s.Inv) : (State.recCofirst s edge src).Inv := by
  unfold State.recCofirst
  simp (maxDischargeDepth := 60) +contextual only [State.updFlt_inv, hI]

theorem State.fltFirst_inv (s : State) (edge : Nat) (e : Ev) (cls : Nat)
    (hI : s.Inv) : (State.fltFirst s edge e cls).1.Inv := by
  unfold State.fltFirst
  simp (maxDischargeDepth := 60) +contextual only [State.wrN_inv, State.setSrcBit_inv, State.setB_inv,
    State.recCofirst_inv, ite_inv_fst, hI]

theorem State.takeover_inv (s : State)
    (hI : s.Inv) : (State.takeover s).1.Inv := by
  unfold State.takeover
  simp (maxDischargeDepth := 60) +contextual only [State.updFlt_inv, State.updRdn_inv, State.setB_inv,
    ite_inv_fst, hI]

theorem State.cbypMove_inv (s : State) (e : Ev)
    (hI : s.Inv) : (State.cbypMove s e).Inv := by
  unfold State.cbypMove
  (repeat' split) <;> simp (maxDischargeDepth := 60) +contextual only [State.setBit_inv, State.updFlt_inv, ite_inv, hI]

theorem State.fltMerge_inv (s : State) (edge : Nat) (e : Ev)
    (hI : s.Inv) : (State.fltMerge s edge e).Inv := by
  unfold State.fltMerge
  simp (maxDischargeDepth := 60) +contextual only [State.cbypMove_inv, State.updFlt_inv, State.setF_inv, ite_inv, hI]

theorem State.fltLive_inv (s : State) (e : Ev) (react cell : Nat) (r : FltRec) (logged : Bool)
    (hI : s.Inv) : (State.fltLive s e react cell r logged).Inv := by
  unfold State.fltLive
  simp (maxDischargeDepth := 60) +contextual only [State.setSrcBit_inv, State.updFlt_inv, ite_inv, hI]

theorem State.fltSafe_inv (s : State) (src react : Nat)
    (hI : s.Inv) : (State.fltSafe s src react).1.Inv := by
  unfold State.fltSafe
  simp (maxDischargeDepth := 60) +contextual only [State.setF_inv, State.setB_inv, State.setSelvLive_inv,
    State.selvLatch_inv, ite_inv, ite_inv_fst, hI]

theorem State.fltErr_inv (s : State) (cls react : Nat)
    (hI : s.Inv) : (State.fltErr s cls react).Inv := by
  unfold State.fltErr
  simp (maxDischargeDepth := 60) +contextual only [State.assertErr_inv, State.setB_inv, State.setErrPin_inv, ite_inv, hI]

theorem State.fltIrq_inv (s : State) (cls react : Nat)
    (hI : s.Inv) : (State.fltIrq s cls react).Inv := by
  unfold State.fltIrq
  simp (maxDischargeDepth := 60) +contextual only [State.msix_inv, State.updFlt_inv, ite_inv, hI]

theorem State.fltMark_inv (s : State) (src cls : Nat)
    (hI : s.Inv) : (State.fltMark s src cls).Inv := by
  unfold State.fltMark
  simp (maxDischargeDepth := 60) +contextual only [State.count_inv, State.setSrcBit_inv, State.updFlt_inv, State.setB_inv,
    ite_inv, hI]

theorem State.fltAct_inv (s : State) (e : Ev) (cls react : Nat) (r : FltRec) (logged : Bool)
    (hI : s.Inv) : (State.fltAct s e cls react r logged).1.Inv := by
  unfold State.fltAct
  simp (maxDischargeDepth := 60) +contextual only [State.fltSafe_inv, State.fltErr_inv, State.takeover_inv, State.fltIrq_inv,
    State.pushRec_inv, State.updFlt_inv, State.sched_inv, ite_inv, ite_inv_fst, hI]

theorem State.fltNew_inv (s : State) (edge : Nat) (e : Ev)
    (hI : s.Inv) : (State.fltNew s edge e).1.Inv := by
  unfold State.fltNew
  simp (maxDischargeDepth := 60) +contextual only [State.fltWindow_inv, State.fltMark_inv, State.fltFirst_inv,
    State.updFlt_inv, State.setBit_inv, State.fltLive_inv, State.fltAct_inv, ite_inv, hI]

theorem State.fltStep_inv (e : Ev) (s : State)
    (hI : s.Inv) : (State.fltStep e s).1.Inv := by
  unfold State.fltStep
  simp (maxDischargeDepth := 60) +contextual only [State.updFlt_inv, State.fltMerge_inv, State.fltLive_inv, State.fltNew_inv,
    ite_inv, ite_inv_fst, hI]

theorem State.fltLater_inv (d : Nat) (e : Ev) (s : State)
    (hI : s.Inv) : (State.fltLater d e s).Inv := by
  unfold State.fltLater
  simp (maxDischargeDepth := 60) +contextual only [State.updFlt_inv, State.sched_inv, ite_inv, hI]

theorem State.fltSample_inv (e : Ev) (s : State)
    (hI : s.Inv) : (State.fltSample e s).Inv := by
  unfold State.fltSample
  simp (maxDischargeDepth := 60) +contextual only [State.fltStep_inv, State.fltLater_inv, forL_inv, implies_true, hI]

theorem State.raiseEv_inv (e : Ev) (s : State)
    (hI : s.Inv) : (State.raiseEv e s).Inv := by
  unfold State.raiseEv
  simp (maxDischargeDepth := 60) +contextual only [State.fltSample_inv, State.fltLater_inv, ite_inv, hI]

theorem State.raiseD_inv (s : State) (src inst detail : Nat)
    (hI : s.Inv) : (State.raiseD s src inst detail).Inv := by
  unfold State.raiseD
  simp (maxDischargeDepth := 60) +contextual only [State.raiseEv_inv, hI]

theorem State.raise_inv (s : State) (src inst : Nat)
    (hI : s.Inv) : (State.raise s src inst).Inv := by
  unfold State.raise
  simp (maxDischargeDepth := 60) +contextual only [State.raiseD_inv, hI]

theorem State.evt_inv (s : State) (f : Fld) (base inst : Nat)
    (hI : s.Inv) : (State.evt s f base inst).Inv := by
  unfold State.evt
  simp (maxDischargeDepth := 60) +contextual only [State.setB_inv, State.raise_inv, hI]

theorem State.refuse_inv (s : State) (m : Master) (a : Nat)
    (hI : s.Inv) : (State.refuse s m a).Inv := by
  unfold State.refuse
  simp (maxDischargeDepth := 60) +contextual only [State.raise_inv, hI]

theorem State.selvTrip_inv (s : State) (src legs : Nat) (stack brk : Bool)
    (hI : s.Inv) : (State.selvTrip s src legs stack brk).Inv := by
  unfold State.selvTrip
  simp (maxDischargeDepth := 60) +contextual only [State.selvLatch_inv, State.raiseEv_inv, forL_inv, implies_true,
    hI]

theorem State.selvDecide_inv (s : State) (src : Nat)
    (hI : s.Inv) : (State.selvDecide s src).Inv := by
  unfold State.selvDecide
  simp (maxDischargeDepth := 60) +contextual only [State.selvTrip_inv, ite_inv, hI]

theorem State.fltEndNow_inv (s : State) (src inst : Nat)
    (hI : s.Inv) : (State.fltEndNow s src inst).Inv := by
  unfold State.fltEndNow
  (repeat' split) <;> simp (maxDischargeDepth := 60) +contextual only [State.updFlt_inv, State.setSrcBit_inv,
    State.pushRec_inv, State.fltLater_inv, forL_inv, implies_true, ite_inv, hI]

theorem State.fltEnd_inv (s : State) (src inst : Nat)
    (hI : s.Inv) : (State.fltEnd s src inst).Inv := by
  unfold State.fltEnd
  simp (maxDischargeDepth := 60) +contextual only [State.fltEndNow_inv, State.sched_inv, ite_inv, hI]

end Sys2Proof.Machine
end

