-- ==== Sys2Proof/Laws/InvRings.lean ====
section
/-!
SUPPORT. The canonical forms (State.Inv): each operation and meaning of Machine/Rings.lean keeps them.
-/

namespace Sys2Proof.Machine

theorem State.gate_inv (s : State) (m : Master) (op : State → State)
    (h_op : ∀ t, t.Inv → (op t).Inv) (hI : s.Inv) : (State.gate s m op).Inv := by
  unfold State.gate
  simp (maxDischargeDepth := 60) +contextual only [State.count_inv, ite_inv, hI, h_op]

theorem State.loaderGate_inv (s : State) (m : Master) (op : State → State)
    (h_op : ∀ t, t.Inv → (op t).Inv) (hI : s.Inv) : (State.loaderGate s m op).Inv := by
  unfold State.loaderGate
  simp (maxDischargeDepth := 60) +contextual only [State.count_inv, ite_inv, hI, h_op]

theorem State.startGate_inv (s : State) (m : Master) (a : Nat) (op : State → State)
    (h_op : ∀ t, t.Inv → (op t).Inv) (hI : s.Inv) : (State.startGate s m a op).Inv := by
  unfold State.startGate
  simp (maxDischargeDepth := 60) +contextual only [State.refuse_inv, ite_inv, hI, h_op]

theorem State.updRing_inv (s : State) (r : Nat) (f : RingSt → RingSt)
    (hI : s.Inv) : (State.updRing s r f).Inv := by
  unfold State.updRing
  simp (maxDischargeDepth := 60) +contextual only [State.updHif_inv, hI]

theorem State.ringAdvance_inv (s : State) (r : Nat)
    (hI : s.Inv) : (State.ringAdvance s r).Inv := by
  unfold State.ringAdvance
  simp (maxDischargeDepth := 60) +contextual only [State.setF_inv, hI]

theorem State.ringSignal_inv (s : State) (r : Nat)
    (hI : s.Inv) : (State.ringSignal s r).Inv := by
  unfold State.ringSignal
  simp (maxDischargeDepth := 60) +contextual only [State.msix_inv, State.updRing_inv, State.sched_inv, ite_inv, hI]

theorem State.ringSlot_inv (s : State) (r : Nat) (b : Slot) (data info : List Byte) (status : Nat) (sop eop : Bool)
    (hI : s.Inv) : (State.ringSlot s r b data info status sop eop).Inv := by
  unfold State.ringSlot
  simp (maxDischargeDepth := 60) +contextual only [State.emit_inv, State.ringAdvance_inv, State.updRing_inv,
    State.ringSignal_inv, hI]

theorem State.ringChunks_inv (r : Nat) (info : List Byte) (bs : List Slot) (data : List Byte) (sop : Bool) (s : State)
    (h : s.Inv) : (State.ringChunks r info bs data sop s).1.Inv := by
  induction bs generalizing data sop s with
  | nil => exact h
  | cons b t ih =>
    unfold State.ringChunks
    simp (maxDischargeDepth := 60) +contextual only [ite_inv_fst, ih, State.evt_inv, State.ringSlot_inv, h]

theorem State.ringRecord_inv (s : State) (r : Nat) (data info : List Byte)
    (hI : s.Inv) : (State.ringRecord s r data info).1.Inv := by
  unfold State.ringRecord
  simp (maxDischargeDepth := 60) +contextual only [State.ringChunks_inv, State.count_inv, ite_inv_fst, hI]

theorem State.ringPut_inv (s : State) (r : Nat) (data : List Byte)
    (hI : s.Inv) : (State.ringPut s r data).Inv := by
  unfold State.ringPut
  simp (maxDischargeDepth := 60) +contextual only [State.ringRecord_inv, hI]

theorem State.ringEntry_inv (s : State) (r : Nat) (e : List Byte)
    (hI : s.Inv) : (State.ringEntry s r e).Inv := by
  unfold State.ringEntry
  simp (maxDischargeDepth := 60) +contextual only [State.emit_inv, State.ringAdvance_inv, State.ringSignal_inv, hI]

theorem State.ringStopCheck_inv (s : State) (r : Nat)
    (hI : s.Inv) : (State.ringStopCheck s r).Inv := by
  unfold State.ringStopCheck
  simp (maxDischargeDepth := 60) +contextual only [State.setF_inv, ite_inv, hI]

theorem State.completeOne_inv (s : State) (cq : Nat)
    (hI : s.Inv) : (State.completeOne s cq).Inv := by
  unfold State.completeOne
  (repeat' split) <;> simp (maxDischargeDepth := 60) +contextual only [State.updHif_inv, State.ringEntry_inv, State.setF_inv,
    State.ringStopCheck_inv, hI]

theorem State.finish_inv (s : State) (d : Done)
    (hI : s.Inv) : (State.finish s d).Inv := by
  unfold State.finish
  simp (maxDischargeDepth := 60) +contextual only [State.updHif_inv, State.completeOne_inv, hI]

theorem State.cmdFetch_inv (s : State) (ring : Nat)
    (hI : s.Inv) : (State.cmdFetch s ring).Inv := by
  unfold State.cmdFetch
  simp (maxDischargeDepth := 60) +contextual only [State.ringAdvance_inv, State.setF_inv, hI]

theorem State.cmdLater_inv (s : State) (ring : Nat) (c : Instr)
    (hI : s.Inv) : (State.cmdLater s ring c).Inv := by
  unfold State.cmdLater
  simp (maxDischargeDepth := 60) +contextual only [State.sched_inv, ite_inv, hI]

theorem State.runCmd_inv (s : State) (ring : Nat) (d : Desc) (c : Instr) (op : State → State × Nat × Nat)
    (h_op : ∀ t, t.Inv → (op t).1.Inv) (hI : s.Inv) : (State.runCmd s ring d c op).Inv := by
  unfold State.runCmd
  simp (maxDischargeDepth := 60) +contextual only [State.cmdFetch_inv, State.finish_inv, State.cmdLater_inv, ite_inv, hI, h_op]

end Sys2Proof.Machine
end

