-- ==== Sys2Proof/Laws/InvFltCmds.lean ====
section
/-!
SUPPORT. The canonical forms (State.Inv): each operation and meaning of Machine/FltCmds.lean keeps them.
-/

namespace Sys2Proof.Machine

theorem State.fltRefuse_inv (s : State) (m : Master)
    (hI : s.Inv) : (State.fltRefuse s m).Inv := by
  unfold State.fltRefuse
  simp (maxDischargeDepth := 60) +contextual only [State.count_inv, State.refuse_inv, hI]

theorem State.faultArrive_inv (s : State) (src inst detail : Nat)
    (hI : s.Inv) : (State.faultArrive s src inst detail).Inv := by
  unfold State.faultArrive
  simp (maxDischargeDepth := 60) +contextual only [State.updFlt_inv, State.raiseEv_inv, ite_inv, hI]

theorem execFaultEvent_inv (src inst : Fin 256) (detail : Byte) (s : State)
    (hI : s.Inv) : nextInv (execFaultEvent src inst detail s) := by
  exact nextInv_next (by simp (maxDischargeDepth := 60) +contextual only [State.faultArrive_inv, hI])

theorem State.closeWindow_inv (s : State) (src : Nat)
    (hI : s.Inv) : (State.closeWindow s src).Inv := by
  unfold State.closeWindow
  simp (maxDischargeDepth := 60) +contextual only [State.updFlt_inv, hI]

theorem execFaultWindowClose_inv (src : Fin 256) (s : State)
    (hI : s.Inv) : nextInv (execFaultWindowClose src s) := by
  exact nextInv_next (by simp (maxDischargeDepth := 60) +contextual only [State.closeWindow_inv, hI])

theorem State.haltUpdate_inv (s : State)
    (hI : s.Inv) : (State.haltUpdate s).Inv := by
  unfold State.haltUpdate
  simp (maxDischargeDepth := 60) +contextual only [State.setB_inv, State.updNvm_inv, ite_inv, hI]

theorem execFaultConditionEnd_inv (src inst : Fin 256) (s : State)
    (hI : s.Inv) : nextInv (execFaultConditionEnd src inst s) := by
  exact nextInv_next (by simp (maxDischargeDepth := 60) +contextual only [State.fltEnd_inv, State.haltUpdate_inv, ite_inv, hI])

theorem State.logSlot_inv (s : State)
    (hI : s.Inv) : (State.logSlot s).1.Inv := by
  unfold State.logSlot
  simp (maxDischargeDepth := 60) +contextual only [State.setF_inv, State.updFlt_inv, State.count_inv, ite_inv_fst, hI]

theorem State.streamRec_inv (s : State) (b : List Byte)
    (hI : s.Inv) : (State.streamRec s b).Inv := by
  unfold State.streamRec
  simp (maxDischargeDepth := 60) +contextual only [State.ringRecord_inv, State.count_inv, ite_inv, hI]

theorem State.commitRec_inv (s : State) (r : FltRec)
    (hI : s.Inv) : (State.commitRec s r).Inv := by
  unfold State.commitRec
  (repeat' split) <;> simp (maxDischargeDepth := 60) +contextual only [State.setMemBytes_inv, State.incr_inv,
    State.streamRec_inv, State.logSlot_inv, State.updFlt_inv, hI]

theorem State.fifoAfter_inv (s : State)
    (hI : s.Inv) : (State.fifoAfter s).Inv := by
  unfold State.fifoAfter
  (repeat' split) <;> simp (maxDischargeDepth := 60) +contextual only [State.incr_inv, State.updFlt_inv, State.updFifo_inv, hI]

theorem execLogRecordCommit_inv (s : State)
    (hI : s.Inv) : nextInv (execLogRecordCommit s) := by
  unfold execLogRecordCommit
  refine nextInv_next ?_
  (repeat' split) <;> simp (maxDischargeDepth := 60) +contextual only [State.updFlt_inv, State.commitRec_inv,
    State.fifoAfter_inv, hI]

theorem execErrpinMinwExpire_inv (s : State)
    (hI : s.Inv) : nextInv (execErrpinMinwExpire s) := by
  exact nextInv_next (by simp (maxDischargeDepth := 60) +contextual only [State.updFlt_inv, State.setErrPin_inv, hI])

theorem State.writeHold_inv (s : State) (b : Bool)
    (hI : s.Inv) : (State.writeHold s b).Inv := by
  unfold State.writeHold
  simp (maxDischargeDepth := 60) +contextual only [State.setB_inv, State.setErrPin_inv, ite_inv, hI]

theorem execErrpinHoldWrite_inv (m : Master) (hold : Bool) (s : State)
    (hI : s.Inv) : nextInv (execErrpinHoldWrite m hold s) := by
  exact nextInv_next (by simp (maxDischargeDepth := 60) +contextual only [State.gate_inv, State.writeHold_inv, implies_true,
    hI])

theorem State.releaseSafe_inv (s : State) (m : Master) (key : Nat)
    (hI : s.Inv) : (State.releaseSafe s m key).Inv := by
  unfold State.releaseSafe
  simp (maxDischargeDepth := 60) +contextual only [State.fltRefuse_inv, State.wrN_inv, State.setSelvLive_inv, ite_inv, hI]

theorem execFltReleaseSafe_inv (m : Master) (key : BitVec 16) (s : State)
    (hI : s.Inv) : nextInv (execFltReleaseSafe m key s) := by
  exact nextInv_next (by simp (maxDischargeDepth := 60) +contextual only [State.gate_inv, State.releaseSafe_inv,
    implies_true, hI])

theorem State.releaseCell_inv (s : State) (m : Master) (k mask : Nat)
    (hI : s.Inv) : (State.releaseCell s m k mask).Inv := by
  unfold State.releaseCell
  simp (maxDischargeDepth := 60) +contextual only [State.setBit_inv, State.fltRefuse_inv, ite_inv, forL_inv, implies_true, hI]

theorem execCellBypassRelease_inv (m : Master) (k : Fin 6) (mask : Word) (s : State)
    (hI : s.Inv) : nextInv (execCellBypassRelease m k mask s) := by
  exact nextInv_next (by simp (maxDischargeDepth := 60) +contextual only [State.gate_inv, State.releaseCell_inv,
    implies_true, hI])

theorem State.clearEsc_inv (s : State) (k mask : Nat)
    (hI : s.Inv) : (State.clearEsc s k mask).Inv := by
  unfold State.clearEsc
  simp (maxDischargeDepth := 60) +contextual only [State.setBit_inv, State.closeWindow_inv, State.unsched_inv, forL_inv,
    implies_true, hI]

theorem execEscalationClear_inv (m : Master) (k : Fin 8) (mask : Word) (s : State)
    (hI : s.Inv) : nextInv (execEscalationClear m k mask s) := by
  exact nextInv_next (by simp (maxDischargeDepth := 60) +contextual only [State.gate_inv, State.clearEsc_inv, implies_true, hI])

theorem State.inject_inv (s : State) (m : Master) (w : Nat)
    (hI : s.Inv) : (State.inject s m w).Inv := by
  unfold State.inject
  simp (maxDischargeDepth := 60) +contextual only [State.fltRefuse_inv, State.raiseEv_inv, State.fltEnd_inv, State.sched_inv,
    ite_inv, hI]

theorem execFaultInject_inv (m : Master) (w : Word) (s : State)
    (hI : s.Inv) : nextInv (execFaultInject m w s) := by
  exact nextInv_next (by simp (maxDischargeDepth := 60) +contextual only [State.gate_inv, State.inject_inv, implies_true, hI])

theorem execInjectConditionEnd_inv (src inst : Fin 256) (s : State)
    (hI : s.Inv) : nextInv (execInjectConditionEnd src inst s) := by
  exact nextInv_next (by simp (maxDischargeDepth := 60) +contextual only [State.fltEnd_inv, ite_inv, hI])

theorem State.armEcc_inv (s : State) (m : Master) (w : Nat)
    (hI : s.Inv) : (State.armEcc s m w).Inv := by
  unfold State.armEcc
  simp (maxDischargeDepth := 60) +contextual only [State.fltRefuse_inv, State.wrN_inv, ite_inv, hI]

theorem execEccInjectArm_inv (m : Master) (w : Word) (s : State)
    (hI : s.Inv) : nextInv (execEccInjectArm m w s) := by
  exact nextInv_next (by simp (maxDischargeDepth := 60) +contextual only [State.gate_inv, State.armEcc_inv, implies_true, hI])

theorem State.logClear_inv (s : State) (m : Master) (w : Nat)
    (hI : s.Inv) : (State.logClear s m w).Inv := by
  unfold State.logClear
  simp (maxDischargeDepth := 60) +contextual only [State.fltRefuse_inv, State.setF_inv, ite_inv, hI]

theorem execLogClear_inv (m : Master) (w : Word) (s : State)
    (hI : s.Inv) : nextInv (execLogClear m w s) := by
  exact nextInv_next (by simp (maxDischargeDepth := 60) +contextual only [State.gate_inv, State.logClear_inv, implies_true, hI])

end Sys2Proof.Machine
end

