-- ==== Sys2Proof/Laws/InvPwmCmds.lean ====
section
/-!
SUPPORT. The canonical forms (State.Inv): each operation and meaning of Machine/PwmCmds.lean keeps them.
-/

namespace Sys2Proof.Machine

theorem State.evtLeg_inv (s : State) (f : Nat → Fld) (n : Nat)
    (hI : s.Inv) : (State.evtLeg s f n).Inv := by
  unfold State.evtLeg
  simp (maxDischargeDepth := 60) +contextual only [State.evt_inv, hI]

theorem State.transition_inv (s : State) (n : Nat) (high : Bool) (t : Nat)
    (hI : s.Inv) : (State.transition s n high t).Inv := by
  unfold State.transition
  simp (maxDischargeDepth := 60) +contextual only [State.unsched_inv, State.setB_inv, State.updLeg_inv, State.turnOff_inv,
    State.tryTurnOn_inv, ite_inv, hI]

theorem State.loadPair_inv (s : State) (n : Nat)
    (hI : s.Inv) : (State.loadPair s n).Inv := by
  unfold State.loadPair
  simp (maxDischargeDepth := 60) +contextual only [State.wr_inv, State.setF_inv, State.setB_inv, hI]

theorem State.splitPair_inv (s : State) (n : Nat)
    (hI : s.Inv) : (State.splitPair s n).Inv := by
  unfold State.splitPair
  simp (maxDischargeDepth := 60) +contextual only [State.evtLeg_inv, State.count_inv, hI]

theorem State.stopEnd_inv (s : State) (n : Nat)
    (hI : s.Inv) : (State.stopEnd s n).Inv := by
  unfold State.stopEnd
  simp (maxDischargeDepth := 60) +contextual only [State.setF_inv, State.legSafe_inv, hI]

theorem State.legEnable_inv (s : State) (n : Nat)
    (hI : s.Inv) : (State.legEnable s n).Inv := by
  unfold State.legEnable
  simp (maxDischargeDepth := 60) +contextual only [State.evtLeg_inv, State.setB_inv, State.setF_inv, ite_inv, hI]

theorem State.legDisable_inv (s : State) (n : Nat)
    (hI : s.Inv) : (State.legDisable s n).Inv := by
  unfold State.legDisable
  simp (maxDischargeDepth := 60) +contextual only [State.setB_inv, State.setF_inv, State.legHalt_inv, State.stopEnd_inv,
    ite_inv, hI]

theorem execPwmLegEnable_inv (m : Master) (n : Fin 12) (s : State)
    (hI : s.Inv) : nextInv (execPwmLegEnable m n s) := by
  exact nextInv_next (by simp (maxDischargeDepth := 60) +contextual only [State.gate_inv, State.startGate_inv,
    State.legEnable_inv, implies_true, hI])

theorem execPwmLegDisable_inv (m : Master) (n : Fin 12) (s : State)
    (hI : s.Inv) : nextInv (execPwmLegDisable m n s) := by
  exact nextInv_next (by simp (maxDischargeDepth := 60) +contextual only [State.gate_inv, State.legDisable_inv, implies_true,
    hI])

theorem State.startLeg_inv (s : State) (n : Nat)
    (hI : s.Inv) : (State.startLeg s n).Inv := by
  unfold State.startLeg
  simp (maxDischargeDepth := 60) +contextual only [State.loadPair_inv, State.setF_inv, State.wrN_inv, State.updLeg_inv,
    State.schedAt_inv, State.splitPair_inv, ite_inv, hI]

theorem State.gstart_inv (s : State) (mask : Nat)
    (hI : s.Inv) : (State.gstart s mask).Inv := by
  unfold State.gstart
  simp (maxDischargeDepth := 60) +contextual only [State.startLeg_inv, forL_inv, implies_true, hI]

theorem execPwmGstart_inv (m : Master) (mask : BitVec 12) (s : State)
    (hI : s.Inv) : nextInv (execPwmGstart m mask s) := by
  exact nextInv_next (by simp (maxDischargeDepth := 60) +contextual only [State.gate_inv, State.gstart_inv, implies_true, hI])

theorem State.commitPair_inv (s : State) (n : Nat)
    (hI : s.Inv) : (State.commitPair s n).Inv := by
  unfold State.commitPair
  simp (maxDischargeDepth := 60) +contextual only [State.setB_inv, hI]

theorem execPwmCtrlCommit_inv (m : Master) (n : Fin 12) (s : State)
    (hI : s.Inv) : nextInv (execPwmCtrlCommit m n s) := by
  exact nextInv_next (by simp (maxDischargeDepth := 60) +contextual only [State.gate_inv, State.commitPair_inv, implies_true,
    hI])

theorem execPwmCommit_inv (legs : BitVec 12) (s : State)
    (hI : s.Inv) : nextInv (execPwmCommit legs s) := by
  exact nextInv_next (by simp (maxDischargeDepth := 60) +contextual only [State.commitPair_inv, ite_inv, forL_inv,
    implies_true, hI])

theorem State.picotInsert_inv (s : State) (n : Nat) (t : Nat)
    (hI : s.Inv) : (State.picotInsert s n t).Inv := by
  unfold State.picotInsert
  simp (maxDischargeDepth := 60) +contextual only [State.evtLeg_inv, State.count_inv, State.setB_inv, State.turnOff_inv,
    State.updLeg_inv, State.tryTurnOn_inv, State.sched_inv, ite_inv, hI]

theorem State.planPeriod_inv (s : State) (n b : Nat) (refresh : Bool)
    (hI : s.Inv) : (State.planPeriod s n b refresh).Inv := by
  unfold State.planPeriod
  simp (maxDischargeDepth := 60) +contextual only [State.transition_inv, State.schedAt_inv, ite_inv, hI]

theorem State.periodBoundary_inv (s : State) (n : Nat)
    (hI : s.Inv) : (State.periodBoundary s n).Inv := by
  unfold State.periodBoundary
  simp (maxDischargeDepth := 60) +contextual only [State.unsched_inv, State.incr_inv, State.setF_inv, State.updLeg_inv,
    State.loadPair_inv, State.splitPair_inv, State.picotInsert_inv, State.planPeriod_inv, ite_inv, hI]

theorem execPwmPeriodBoundary_inv (n : Fin 12) (s : State)
    (hI : s.Inv) : nextInv (execPwmPeriodBoundary n s) := by
  exact nextInv_next (by simp (maxDischargeDepth := 60) +contextual only [State.periodBoundary_inv, hI])

theorem execPwmTransition_inv (n : Fin 12) (high : Bool) (s : State)
    (hI : s.Inv) : nextInv (execPwmTransition n high s) := by
  exact nextInv_next (by simp (maxDischargeDepth := 60) +contextual only [State.transition_inv, ite_inv, hI])

theorem State.picotPulse_inv (s : State) (n : Nat) (wasLow : Bool)
    (hI : s.Inv) : (State.picotPulse s n wasLow).Inv := by
  unfold State.picotPulse
  simp (maxDischargeDepth := 60) +contextual only [State.sched_inv, ite_inv, hI]

theorem State.picotOver_inv (s : State) (n : Nat)
    (hI : s.Inv) : (State.picotOver s n).Inv := by
  unfold State.picotOver
  simp (maxDischargeDepth := 60) +contextual only [State.setB_inv, ite_inv, hI]

theorem State.turnOnAt_inv (s : State) (n t : Nat)
    (hI : s.Inv) : (State.turnOnAt s n t).Inv := by
  unfold State.turnOnAt
  simp (maxDischargeDepth := 60) +contextual only [State.tryTurnOn_inv, State.picotPulse_inv, State.picotOver_inv, hI]

theorem State.turnOnStep_inv (s : State) (n : Nat)
    (hI : s.Inv) : (State.turnOnStep s n).Inv := by
  unfold State.turnOnStep
  simp (maxDischargeDepth := 60) +contextual only [State.turnOnAt_inv, hI]

theorem State.deadTimeOver_inv (s : State) (n : Nat)
    (hI : s.Inv) : (State.deadTimeOver s n).Inv := by
  unfold State.deadTimeOver
  simp (maxDischargeDepth := 60) +contextual only [State.setB_inv, State.stopEnd_inv, State.turnOnAt_inv, ite_inv, hI]

theorem execDeadTimeEnd_inv (n : Fin 12) (s : State)
    (hI : s.Inv) : nextInv (execDeadTimeEnd n s) := by
  exact nextInv_next (by simp (maxDischargeDepth := 60) +contextual only [State.deadTimeOver_inv, hI])

theorem State.gateAck_inv (s : State) (n : Nat) (high level : Bool)
    (hI : s.Inv) : (State.gateAck s n high level).Inv := by
  unfold State.gateAck
  simp (maxDischargeDepth := 60) +contextual only [State.setBit_inv, State.unsched_inv, State.turnOnStep_inv,
    State.ackLiveUpdate_inv, State.startAck_inv, ite_inv, hI]

theorem execGateAckInput_inv (n : Fin 12) (high level : Bool) (s : State)
    (hI : s.Inv) : nextInv (execGateAckInput n high level s) := by
  exact nextInv_next (by simp (maxDischargeDepth := 60) +contextual only [State.gateAck_inv, hI])

theorem State.ackTimeoutStep_inv (s : State) (n : Nat) (high : Bool)
    (hI : s.Inv) : (State.ackTimeoutStep s n high).Inv := by
  unfold State.ackTimeoutStep
  simp (maxDischargeDepth := 60) +contextual only [State.setSelvLive_inv, State.selvDecide_inv, ite_inv, hI]

theorem execAckTimeout_inv (n : Fin 12) (high : Bool) (s : State)
    (hI : s.Inv) : nextInv (execAckTimeout n high s) := by
  exact nextInv_next (by simp (maxDischargeDepth := 60) +contextual only [State.ackTimeoutStep_inv, hI])

theorem State.bsuvInput_inv (s : State) (n : Nat) (asserted : Bool)
    (hI : s.Inv) : (State.bsuvInput s n asserted).Inv := by
  unfold State.bsuvInput
  simp (maxDischargeDepth := 60) +contextual only [State.updLeg_inv, State.setSelvLive_inv, State.selvDecide_inv,
    State.turnOnStep_inv, ite_inv, hI]

theorem execBsuvInput_inv (n : Fin 12) (asserted : Bool) (s : State)
    (hI : s.Inv) : nextInv (execBsuvInput n asserted s) := by
  exact nextInv_next (by simp (maxDischargeDepth := 60) +contextual only [State.bsuvInput_inv, hI])

theorem State.supplyCheck_inv (s : State) (n : Nat)
    (hI : s.Inv) : (State.supplyCheck s n).Inv := by
  unfold State.supplyCheck
  simp (maxDischargeDepth := 60) +contextual only [State.updLeg_inv, State.setB_inv, State.setSelvLive_inv,
    State.selvDecide_inv, ite_inv, hI]

theorem execPicotSupplyCheck_inv (n : Fin 12) (s : State)
    (hI : s.Inv) : nextInv (execPicotSupplyCheck n s) := by
  exact nextInv_next (by simp (maxDischargeDepth := 60) +contextual only [State.supplyCheck_inv, hI])

theorem State.picotPulseOver_inv (s : State) (n : Nat)
    (hI : s.Inv) : (State.picotPulseOver s n).Inv := by
  unfold State.picotPulseOver
  simp (maxDischargeDepth := 60) +contextual only [State.turnOff_inv, State.updLeg_inv, State.sched_inv,
    State.turnOnStep_inv, ite_inv, hI]

theorem execPicotPulseEnd_inv (n : Fin 12) (s : State)
    (hI : s.Inv) : nextInv (execPicotPulseEnd n s) := by
  exact nextInv_next (by simp (maxDischargeDepth := 60) +contextual only [State.picotPulseOver_inv, hI])

theorem State.dsatBlankOver_inv (s : State) (n : Nat)
    (hI : s.Inv) : (State.dsatBlankOver s n).Inv := by
  unfold State.dsatBlankOver
  simp (maxDischargeDepth := 60) +contextual only [State.updLeg_inv, State.unsched_inv, State.sched_inv, ite_inv, hI]

theorem execDsatBlankEnd_inv (n : Fin 12) (s : State)
    (hI : s.Inv) : nextInv (execDsatBlankEnd n s) := by
  exact nextInv_next (by simp (maxDischargeDepth := 60) +contextual only [State.dsatBlankOver_inv, hI])

theorem State.selvCondition_inv (s : State) (src : Nat)
    (hI : s.Inv) : (State.selvCondition s src).Inv := by
  unfold State.selvCondition
  simp (maxDischargeDepth := 60) +contextual only [State.selvDecide_inv, State.setSelvLive_inv, ite_inv, hI]

theorem execSelvageDecision_inv (src : Fin 64) (s : State)
    (hI : s.Inv) : nextInv (execSelvageDecision src s) := by
  exact nextInv_next (by simp (maxDischargeDepth := 60) +contextual only [State.selvCondition_inv, hI])

theorem State.pinAssert_inv (s : State) (src : Nat)
    (hI : s.Inv) : (State.pinAssert s src).Inv := by
  unfold State.pinAssert
  simp (maxDischargeDepth := 60) +contextual only [State.unsched_inv, State.selvCondition_inv, State.sched_inv, ite_inv, hI]

theorem State.selvInput_inv (s : State) (src : Nat) (level : Bool)
    (hI : s.Inv) : (State.selvInput s src level).Inv := by
  unfold State.selvInput
  simp (maxDischargeDepth := 60) +contextual only [State.bsuvInput_inv, State.updSelv_inv, State.pinAssert_inv,
    State.unsched_inv, State.setSelvLive_inv, ite_inv, hI]

theorem execSelvageInputChange_inv (src : Fin 60) (level : Bool) (s : State)
    (hI : s.Inv) : nextInv (execSelvageInputChange src level s) := by
  exact nextInv_next (by simp (maxDischargeDepth := 60) +contextual only [State.selvInput_inv, hI])

theorem State.selvRecheck_inv (s old : State)
    (hI : s.Inv) : (State.selvRecheck s old).Inv := by
  unfold State.selvRecheck
  simp (maxDischargeDepth := 60) +contextual only [State.selvDecide_inv, ite_inv, forN_inv, implies_true, hI]

theorem State.selvCfgRef_inv (s : State)
    (hI : s.Inv) : (State.selvCfgRef s).Inv := by
  unfold State.selvCfgRef
  simp (maxDischargeDepth := 60) +contextual only [State.evt_inv, hI]

theorem State.selvForce_inv (s : State) (w : Nat)
    (hI : s.Inv) : (State.selvForce s w).Inv := by
  unfold State.selvForce
  simp (maxDischargeDepth := 60) +contextual only [State.selvCfgRef_inv, State.selvTrip_inv, ite_inv, hI]

theorem execSelvForce_inv (m : Master) (w : Word) (s : State)
    (hI : s.Inv) : nextInv (execSelvForce m w s) := by
  exact nextInv_next (by simp (maxDischargeDepth := 60) +contextual only [State.gate_inv, State.selvForce_inv, implies_true,
    hI])

theorem State.selvRelease_inv (s : State) (latch : Nat)
    (hI : s.Inv) : (State.selvRelease s latch).Inv := by
  unfold State.selvRelease
  simp (maxDischargeDepth := 60) +contextual only [State.setBit_inv, State.setF_inv, State.updLeg_inv, State.legSafe_inv,
    State.setB_inv, ite_inv, hI]

theorem State.selvClear_inv (s : State) (w : Nat)
    (hI : s.Inv) : (State.selvClear s w).Inv := by
  unfold State.selvClear
  simp (maxDischargeDepth := 60) +contextual only [State.selvCfgRef_inv, State.selvRelease_inv, State.updSafe_inv,
    State.count_inv, State.evt_inv, ite_inv, forL_inv, implies_true, hI]

theorem execSelvClr_inv (m : Master) (w : Word) (s : State)
    (hI : s.Inv) : nextInv (execSelvClr m w s) := by
  exact nextInv_next (by simp (maxDischargeDepth := 60) +contextual only [State.gate_inv, State.selvClear_inv, implies_true,
    hI])

theorem execBrkMinExpire_inv (s : State)
    (hI : s.Inv) : nextInv (execBrkMinExpire s) := by
  exact nextInv_next (by simp (maxDischargeDepth := 60) +contextual only [State.updSelv_inv, State.setB_inv, hI])

end Sys2Proof.Machine
end

