-- ==== Sys2Proof/Laws/InvThm.lean ====
section
/-!
SUPPORT. The canonical forms (State.Inv): each operation and meaning of Machine/Thm.lean keeps them.
-/

namespace Sys2Proof.Machine

theorem State.evtThm_inv (s : State) (f : Fld) (inst : Nat)
    (hI : s.Inv) : (State.evtThm s f inst).Inv := by
  unfold State.evtThm
  simp (maxDischargeDepth := 60) +contextual only [State.evt_inv, hI]

theorem State.thmRecord_inv (s : State) (ty sensor : Nat)
    (hI : s.Inv) : (State.thmRecord s ty sensor).Inv := by
  unfold State.thmRecord
  simp (maxDischargeDepth := 60) +contextual only [State.ringPut_inv, State.updThm_inv, hI]

theorem State.thmLimit_inv (s : State)
    (hI : s.Inv) : (State.thmLimit s).Inv := by
  unfold State.thmLimit
  simp (maxDischargeDepth := 60) +contextual only [State.setF_inv, hI]

theorem State.setStep_inv (s : State) (k : Nat)
    (hI : s.Inv) : (State.setStep s k).Inv := by
  unfold State.setStep
  simp (maxDischargeDepth := 60) +contextual only [State.setF_inv, State.updThm_inv, State.thmLimit_inv, State.thmRecord_inv,
    forN_inv, implies_true, hI]

theorem State.thmFreeze_inv (s : State) (i : Nat)
    (hI : s.Inv) : (State.thmFreeze s i).Inv := by
  unfold State.thmFreeze
  simp (maxDischargeDepth := 60) +contextual only [State.setB_inv, State.evtThm_inv, State.thmRecord_inv, hI]

theorem State.thmTc_inv (s : State)
    (hI : s.Inv) : (State.thmTc s).Inv := by
  unfold State.thmTc
  (repeat' split) <;> simp (maxDischargeDepth := 60) +contextual only [State.thmFreeze_inv, State.setF_inv, State.setB_inv, hI]

theorem State.hotGone_inv (s : State)
    (hI : s.Inv) : (State.hotGone s).Inv := by
  unfold State.hotGone
  simp (maxDischargeDepth := 60) +contextual only [State.thmFreeze_inv, ite_inv, hI]

theorem State.thmEvaluate_inv (s : State)
    (hI : s.Inv) : (State.thmEvaluate s).Inv := by
  unfold State.thmEvaluate
  simp (maxDischargeDepth := 60) +contextual only [State.hotGone_inv, State.thmTc_inv, State.setStep_inv, State.evtThm_inv,
    State.thmLimit_inv, ite_inv, hI]

theorem State.thmNstep_inv (s : State) (n : Nat)
    (hI : s.Inv) : (State.thmNstep s n).Inv := by
  unfold State.thmNstep
  simp (maxDischargeDepth := 60) +contextual only [State.setF_inv, State.setStep_inv, State.evtThm_inv, ite_inv, hI]

theorem State.thmCtrl_inv (s : State) (w : Nat)
    (hI : s.Inv) : (State.thmCtrl s w).Inv := by
  unfold State.thmCtrl
  simp (maxDischargeDepth := 60) +contextual only [State.updThm_inv, State.setB_inv, State.thmNstep_inv, ite_inv, hI]

theorem State.thmAck_inv (s : State)
    (hI : s.Inv) : (State.thmAck s).Inv := by
  unfold State.thmAck
  simp (maxDischargeDepth := 60) +contextual only [State.setB_inv, State.thmTc_inv, State.thmRecord_inv, ite_inv, hI]

theorem State.hotCheck_inv (s : State) (i : Nat)
    (hI : s.Inv) : (State.hotCheck s i).Inv := by
  unfold State.hotCheck
  simp (maxDischargeDepth := 60) +contextual only [State.thmFreeze_inv, State.thmTc_inv, ite_inv, hI]

theorem State.thmScfg_inv (s : State) (i w : Nat)
    (hI : s.Inv) : (State.thmScfg s i w).Inv := by
  unfold State.thmScfg
  simp (maxDischargeDepth := 60) +contextual only [State.wrN_inv, State.hotCheck_inv, ite_inv, hI]

theorem State.thmBad_inv (s : State) (i : Nat)
    (hI : s.Inv) : (State.thmBad s i).Inv := by
  unfold State.thmBad
  simp (maxDischargeDepth := 60) +contextual only [State.updThm_inv, State.setBit_inv, State.setB_inv, State.evtThm_inv,
    State.thmRecord_inv, State.hotCheck_inv, ite_inv, hI]

theorem State.thmGood_inv (s : State) (i : Nat) (t : Int)
    (hI : s.Inv) : (State.thmGood s i t).Inv := by
  unfold State.thmGood
  simp (maxDischargeDepth := 60) +contextual only [State.updThm_inv, State.setF_inv, State.setB_inv, ite_inv, hI]

theorem State.thmReading_inv (s : State) (i : Nat) (bad : Bool) (t : Int)
    (hI : s.Inv) : (State.thmReading s i bad t).Inv := by
  unfold State.thmReading
  simp (maxDischargeDepth := 60) +contextual only [State.updThm_inv, State.thmBad_inv, State.thmGood_inv, ite_inv, hI]

theorem State.thmNtc_inv (s : State) (k code : Nat) (flagged : Bool)
    (hI : s.Inv) : (State.thmNtc s k code flagged).Inv := by
  unfold State.thmNtc
  dsimp only
  (repeat' split) <;> simp (maxDischargeDepth := 60) +contextual only [State.updThm_inv, State.thmReading_inv, hI]

theorem State.thmHkPeriod_inv (s : State) (mask : Nat)
    (hI : s.Inv) : (State.thmHkPeriod s mask).Inv := by
  unfold State.thmHkPeriod
  simp (maxDischargeDepth := 60) +contextual only [State.updThm_inv, State.evtThm_inv, State.thmBad_inv, ite_inv, forL_inv,
    implies_true, hI]

theorem State.orderlyStop_inv (s : State)
    (hI : s.Inv) : (State.orderlyStop s).Inv := by
  unfold State.orderlyStop
  simp (maxDischargeDepth := 60) +contextual only [State.setB_inv, State.thmLimit_inv, State.selvTrip_inv, State.evtThm_inv,
    State.thmRecord_inv, State.sched_inv, ite_inv, hI]

theorem State.thmImmediate_inv (s : State)
    (hI : s.Inv) : (State.thmImmediate s).Inv := by
  unfold State.thmImmediate
  simp (maxDischargeDepth := 60) +contextual only [State.setB_inv, State.setSelvLive_inv, State.selvDecide_inv,
    State.evtThm_inv, State.thmRecord_inv, hI]

theorem State.thmTest_inv (s : State)
    (hI : s.Inv) : (State.thmTest s).Inv := by
  unfold State.thmTest
  simp (maxDischargeDepth := 60) +contextual only [State.thmImmediate_inv, State.takeover_inv, State.evtThm_inv,
    State.thmRecord_inv, State.orderlyStop_inv, ite_inv, hI]

theorem State.dieLevel_inv (s : State)
    (hI : s.Inv) : (State.dieLevel s).Inv := by
  unfold State.dieLevel
  (repeat' split) <;> simp (maxDischargeDepth := 60) +contextual only [State.updThm_inv, State.setF_inv, State.setB_inv,
    State.evtThm_inv, State.thmRecord_inv, State.thmTest_inv, State.setSelvLive_inv, ite_inv, hI]

theorem State.dieSample_inv (s : State) (rs : List Int)
    (hI : s.Inv) : (State.dieSample s rs).Inv := by
  unfold State.dieSample
  simp (maxDischargeDepth := 60) +contextual only [State.thmBad_inv, State.thmGood_inv, State.dieLevel_inv, ite_inv,
    forN_inv, implies_true, hI]

end Sys2Proof.Machine
end

