-- ==== Sys2Proof/Laws/InvHoop.lean ====
section
/-!
SUPPORT. The canonical forms (State.Inv): each operation and meaning of Machine/Hoop.lean keeps them.
-/

namespace Sys2Proof.Machine

theorem State.evtHoop_inv (s : State) (f : Fld)
    (hI : s.Inv) : (State.evtHoop s f).Inv := by
  unfold State.evtHoop
  simp (maxDischargeDepth := 60) +contextual only [State.evt_inv, hI]

theorem State.updH0_inv (s : State) (f : LoopSt → LoopSt)
    (hI : s.Inv) : (State.updH0 s f).Inv := by
  unfold State.updH0
  simp (maxDischargeDepth := 60) +contextual only [State.updHoop_inv, hI]

theorem State.updH1_inv (s : State) (f : LoopSt → LoopSt)
    (hI : s.Inv) : (State.updH1 s f).Inv := by
  unfold State.updH1
  simp (maxDischargeDepth := 60) +contextual only [State.updHoop_inv, hI]

theorem State.h0Enter_inv (s : State) (st : Nat)
    (hI : s.Inv) : (State.h0Enter s st).Inv := by
  unfold State.h0Enter
  simp (maxDischargeDepth := 60) +contextual only [State.setF_inv, State.setB_inv, State.updH0_inv, State.updEnerg_inv, hI]

theorem State.fmaxWatch_inv (s : State)
    (hI : s.Inv) : (State.fmaxWatch s).Inv := by
  unfold State.fmaxWatch
  simp (maxDischargeDepth := 60) +contextual only [State.updHoop_inv, State.raise_inv, ite_inv, hI]

theorem State.diffUpdate_inv (s : State) (a : Nat) (new : Int)
    (hI : s.Inv) : (State.diffUpdate s a new).Inv := by
  unfold State.diffUpdate
  simp (maxDischargeDepth := 60) +contextual only [State.wrN_inv, State.updHoop_inv, hI]

theorem State.h0Loop_inv (s : State) (err : Int)
    (hI : s.Inv) : (State.h0Loop s err).Inv := by
  unfold State.h0Loop
  simp (maxDischargeDepth := 60) +contextual only [State.wrN_inv, State.updH0_inv, State.setB_inv,
    State.evtHoop_inv, State.fmaxWatch_inv, ite_inv, hI]

theorem State.h0Lock_inv (s : State) (err : Int)
    (hI : s.Inv) : (State.h0Lock s err).Inv := by
  unfold State.h0Lock
  simp (maxDischargeDepth := 60) +contextual only [State.updH0_inv, State.h0Enter_inv, State.evtHoop_inv, ite_inv, hI]

theorem State.h0ToCoast_inv (s : State) (f : Fld)
    (hI : s.Inv) : (State.h0ToCoast s f).Inv := by
  unfold State.h0ToCoast
  simp (maxDischargeDepth := 60) +contextual only [State.wrN_inv, State.h0Enter_inv, State.evtHoop_inv, ite_inv, hI]

theorem State.h0Again_inv (s : State)
    (hI : s.Inv) : (State.h0Again s).Inv := by
  unfold State.h0Again
  simp (maxDischargeDepth := 60) +contextual only [State.h0Enter_inv, State.updH0_inv, hI]

theorem State.h0Switch_inv (s : State)
    (hI : s.Inv) : (State.h0Switch s).Inv := by
  unfold State.h0Switch
  simp (maxDischargeDepth := 60) +contextual only [State.setB_inv, State.evtHoop_inv, hI]

theorem State.h0Force_inv (s : State)
    (hI : s.Inv) : (State.h0Force s).Inv := by
  unfold State.h0Force
  simp (maxDischargeDepth := 60) +contextual only [State.h0Switch_inv, ite_inv, hI]

theorem State.h0Resume_inv (s : State)
    (hI : s.Inv) : (State.h0Resume s).Inv := by
  unfold State.h0Resume
  simp (maxDischargeDepth := 60) +contextual only [State.h0Again_inv, ite_inv, hI]

theorem State.priChange_inv (s : State) (was ok byFlag : Bool)
    (hI : s.Inv) : (State.priChange s was ok byFlag).Inv := by
  unfold State.priChange
  simp (maxDischargeDepth := 60) +contextual only [State.evtHoop_inv, State.h0Switch_inv, State.h0ToCoast_inv, ite_inv, hI]

theorem State.priLoop_inv (s : State) (angle : Nat) (ok flag : Bool)
    (hI : s.Inv) : (State.priLoop s angle ok flag).Inv := by
  unfold State.priLoop
  simp (maxDischargeDepth := 60) +contextual only [State.wrN_inv, State.h0Loop_inv, State.h0Lock_inv, ite_inv, hI]

theorem State.h0Primary_inv (s : State) (angle pos neg : Nat) (flag : Bool)
    (hI : s.Inv) : (State.h0Primary s angle pos neg flag).Inv := by
  unfold State.h0Primary
  simp (maxDischargeDepth := 60) +contextual only [State.updH0_inv, State.setB_inv, State.updHoop_inv, State.priChange_inv,
    State.h0Force_inv, State.h0Resume_inv, State.priLoop_inv, hI]

theorem State.h0Measure_inv (s : State) (angle pos neg : Nat) (flag : Bool)
    (hI : s.Inv) : (State.h0Measure s angle pos neg flag).Inv := by
  unfold State.h0Measure
  simp (maxDischargeDepth := 60) +contextual only [State.updH0_inv, State.setB_inv, State.updHoop_inv, State.evtHoop_inv,
    State.diffUpdate_inv, ite_inv, hI]

theorem State.h0Follow_inv (s : State) (angle : Nat)
    (hI : s.Inv) : (State.h0Follow s angle).Inv := by
  unfold State.h0Follow
  simp (maxDischargeDepth := 60) +contextual only [State.h0Again_inv, State.h0Loop_inv, State.h0Lock_inv, ite_inv, hI]

theorem State.h0Backup_inv (s : State) (cells : Bool) (dcMean : Nat)
    (hI : s.Inv) : (State.h0Backup s cells dcMean).Inv := by
  unfold State.h0Backup
  simp (maxDischargeDepth := 60) +contextual only [State.free_inv, State.setB_inv, State.diffUpdate_inv, State.h0ToCoast_inv,
    State.evtHoop_inv, State.h0Force_inv, State.h0Resume_inv, State.h0Loop_inv, State.h0Lock_inv, ite_inv, hI]

theorem State.h0Start_inv (s : State)
    (hI : s.Inv) : (State.h0Start s).Inv := by
  unfold State.h0Start
  simp (maxDischargeDepth := 60) +contextual only [State.updH0_inv, State.h0Enter_inv, hI]

theorem State.h0Stop_inv (s : State)
    (hI : s.Inv) : (State.h0Stop s).Inv := by
  unfold State.h0Stop
  simp (maxDischargeDepth := 60) +contextual only [State.updH0_inv, State.wrN_inv, State.setB_inv, State.h0Enter_inv, hI]

theorem State.h0ToFree_inv (s : State)
    (hI : s.Inv) : (State.h0ToFree s).Inv := by
  unfold State.h0ToFree
  simp (maxDischargeDepth := 60) +contextual only [State.setB_inv, State.updH0_inv, State.wrN_inv, State.h0Enter_inv, hI]

theorem State.h0ToAcquire_inv (s : State)
    (hI : s.Inv) : (State.h0ToAcquire s).Inv := by
  unfold State.h0ToAcquire
  simp (maxDischargeDepth := 60) +contextual only [State.h0Again_inv, hI]

theorem State.priReturn_inv (s : State)
    (hI : s.Inv) : (State.priReturn s).Inv := by
  unfold State.priReturn
  simp (maxDischargeDepth := 60) +contextual only [State.setB_inv, State.h0Resume_inv, ite_inv, hI]

theorem State.h1ModeChange_inv (s : State) (mode : Nat)
    (hI : s.Inv) : (State.h1ModeChange s mode).Inv := by
  unfold State.h1ModeChange
  simp (maxDischargeDepth := 60) +contextual only [State.evtHoop_inv, State.setB_inv, State.updH1_inv, State.setF_inv,
    ite_inv, hI]

theorem State.h1Track_inv (s : State) (angle pos neg : Nat) (flag : Bool)
    (hI : s.Inv) : (State.h1Track s angle pos neg flag).Inv := by
  unfold State.h1Track
  (repeat' split) <;> simp (maxDischargeDepth := 60) +contextual only [State.updH1_inv, State.setB_inv, State.setF_inv,
    State.evtHoop_inv, ite_inv, hI]

theorem State.h1Ramp_inv (s : State)
    (hI : s.Inv) : (State.h1Ramp s).Inv := by
  unfold State.h1Ramp
  simp (maxDischargeDepth := 60) +contextual only [State.updH1_inv, State.updHoop_inv, ite_inv, hI]

theorem State.hoopTick_inv (s : State)
    (hI : s.Inv) : (State.hoopTick s).Inv := by
  unfold State.hoopTick
  simp (maxDischargeDepth := 60) +contextual only [State.h1Ramp_inv, State.updHoop_inv, hI]

end Sys2Proof.Machine
end

