-- ==== Sys2Proof/Laws/InvPricking.lean ====
section
/-!
SUPPORT. The canonical forms (State.Inv): each operation and meaning of Machine/Pricking.lean keeps them.
-/

namespace Sys2Proof.Machine

theorem State.setPage_inv (s : State) (p : Nat) (l : List (BitVec 128))
    (hI : s.Inv) : (State.setPage s p l).Inv := by
  unfold State.setPage
  simp (maxDischargeDepth := 60) +contextual only [State.updPrk_inv, State.setF_inv, State.eccMeet_inv, hI]

theorem State.updSwap_inv (s : State) (w : Option (Nat × Nat))
    (hI : s.Inv) : (State.updSwap s w).Inv := by
  unfold State.updSwap
  (repeat' split) <;> simp (maxDischargeDepth := 60) +contextual only [State.updPrk_inv, State.setB_inv, State.setF_inv, hI]

theorem State.swapCmdEnd_inv (s : State) (status result : Nat)
    (hI : s.Inv) : (State.swapCmdEnd s status result).Inv := by
  unfold State.swapCmdEnd
  simp (maxDischargeDepth := 60) +contextual only [State.updHif_inv, State.finish_inv, forL_inv, implies_true, hI]

theorem State.unready_inv (s : State) (p : Nat)
    (hI : s.Inv) : (State.unready s p).Inv := by
  unfold State.unready
  dsimp only
  (repeat' split) <;> simp (maxDischargeDepth := 60) +contextual only [State.setB_inv, State.updSwap_inv,
    State.swapCmdEnd_inv, hI]

theorem State.swapRestart_inv (s : State)
    (hI : s.Inv) : (State.swapRestart s).Inv := by
  unfold State.swapRestart
  (repeat' split) <;> simp (maxDischargeDepth := 60) +contextual only [State.updSwap_inv, hI]

theorem State.swapRequest_inv (s : State) (p : Nat)
    (hI : s.Inv) : (State.swapRequest s p).1.Inv := by
  unfold State.swapRequest
  simp (maxDischargeDepth := 60) +contextual only [State.updSwap_inv, ite_inv_fst, hI]

theorem State.swapReq_inv (s : State) (p : Nat)
    (hI : s.Inv) : (State.swapReq s p).1.Inv := by
  unfold State.swapReq
  simp (maxDischargeDepth := 60) +contextual only [State.swapRequest_inv, State.setF_inv, hI]

theorem ite_inv_ed {c : Prop} [Decidable c] {x y : EdRes} (hx : x.st.Inv) (hy : y.st.Inv) : (if c then x else y).st.Inv := by
  split
  · exact hx
  · exact hy

theorem State.prkEdit_inv (s : State) (p : Nat) (op : List (BitVec 128) → EdRes)
    (h_op : ∀ x0, (op x0).st.Inv) (h : s.Inv) : (State.prkEdit s p op).st.Inv := by
  unfold State.prkEdit
  simp (maxDischargeDepth := 60) +contextual only [ite_inv_ed, h_op, h]

theorem State.prkRead_inv (s : State) (p i : Nat)
    (hI : s.Inv) : (State.prkRead s p i).st.Inv := by
  unfold State.prkRead
  simp (maxDischargeDepth := 60) +contextual only [ite_inv_ed, hI]

theorem State.prkWrite_inv (s : State) (p i : Nat) (e : BitVec 128)
    (hI : s.Inv) : (State.prkWrite s p i e).st.Inv := by
  unfold State.prkWrite
  simp (maxDischargeDepth := 60) +contextual only [State.prkEdit_inv, State.setPage_inv, State.unready_inv, ite_inv_ed,
    implies_true, hI]

theorem State.prkInsert_inv (s : State) (p : Nat) (e : BitVec 128)
    (hI : s.Inv) : (State.prkInsert s p e).st.Inv := by
  unfold State.prkInsert
  simp (maxDischargeDepth := 60) +contextual only [State.prkEdit_inv, State.setPage_inv, State.unready_inv, ite_inv_ed,
    implies_true, hI]

theorem State.prkDelete_inv (s : State) (p i : Nat)
    (hI : s.Inv) : (State.prkDelete s p i).st.Inv := by
  unfold State.prkDelete
  simp (maxDischargeDepth := 60) +contextual only [State.prkEdit_inv, State.setPage_inv, State.unready_inv, ite_inv_ed,
    implies_true, hI]

theorem State.prkClear_inv (s : State) (p : Nat)
    (hI : s.Inv) : (State.prkClear s p).st.Inv := by
  unfold State.prkClear
  simp (maxDischargeDepth := 60) +contextual only [State.prkEdit_inv, State.setPage_inv, State.unready_inv, implies_true, hI]

theorem State.prkCommit_inv (s : State) (p : Nat) (h : s.Inv) : (State.prkCommit s p).st.Inv := by
  refine State.prkEdit_inv _ _ _ (fun l => ?_) h
  dsimp only
  split <;> simp (maxDischargeDepth := 60) +contextual only [State.unready_inv, State.setPage_inv, State.setB_inv, h]

theorem State.portHold_inv (s : State) (status : Nat) (idx : Option Nat) (data : Option (BitVec 128)) (ticks : Nat)
    (hI : s.Inv) : (State.portHold s status idx data ticks).Inv := by
  unfold State.portHold
  simp (maxDischargeDepth := 60) +contextual only [State.updPrk_inv, State.setB_inv, State.sched_inv, ite_inv, hI]

theorem State.edPort_inv (s : State) (op : State → EdRes) (h_op : ∀ t, t.Inv → (op t).st.Inv) (h : s.Inv) : (s.edPort op).Inv := by
  unfold State.edPort
  simp (maxDischargeDepth := 60) +contextual only [State.setB_inv, State.portHold_inv, ite_inv, h_op, h]

theorem State.portDone_inv (s : State)
    (hI : s.Inv) : (State.portDone s).Inv := by
  unfold State.portDone
  (repeat' split) <;> simp (maxDischargeDepth := 60) +contextual only [State.updHif_inv, State.finish_inv, hI]

theorem State.edComplete_inv (s : State)
    (hI : s.Inv) : (State.edComplete s).Inv := by
  unfold State.edComplete
  (repeat' split) <;> simp (maxDischargeDepth := 60) +contextual only [State.updPrk_inv, State.setB_inv, State.setF_inv,
    State.portDone_inv, State.wrN_inv, forN_inv, implies_true, hI]

theorem State.setQueue_inv (s : State) (q : List QAct)
    (hI : s.Inv) : (State.setQueue s q).Inv := by
  unfold State.setQueue
  simp (maxDischargeDepth := 60) +contextual only [State.updPrk_inv, State.setF_inv, hI]

theorem State.prkLate_inv (s : State) (page : Nat)
    (hI : s.Inv) : (State.prkLate s page).Inv := by
  unfold State.prkLate
  simp (maxDischargeDepth := 60) +contextual only [State.count_inv, State.raise_inv, hI]

theorem State.convSeen_inv (s : State) (src turn : Nat)
    (hI : s.Inv) : (State.convSeen s src turn).Inv := by
  unfold State.convSeen
  simp (maxDischargeDepth := 60) +contextual only [State.updPrk_inv, ite_inv, hI]

theorem State.convOne_inv (s : State) (mode : ConvMode) (page idx turn : Nat) (e : BitVec 128)
    (hI : s.Inv) : (State.convOne s mode page idx turn e).1.Inv := by
  unfold State.convOne
  simp (maxDischargeDepth := 60) +contextual only [State.prkLate_inv, State.count_inv, State.convSeen_inv,
    State.setQueue_inv, ite_inv, ite_inv_fst, hI]

theorem State.setWalk_inv (s : State) (src : Nat) (w : Walk)
    (hI : s.Inv) : (State.setWalk s src w).Inv := by
  unfold State.setWalk
  simp (maxDischargeDepth := 60) +contextual only [State.updPrk_inv, hI]

theorem State.convList_inv (mode : ConvMode) (l : List Cand) (s : State) (h : s.Inv) :
    (State.convList mode l s).1.Inv := by
  induction l generalizing s with
  | nil => exact h
  | cons c t ih =>
    unfold State.convList
    simp (maxDischargeDepth := 60) +contextual only [ite_inv_fst, ih, State.convOne_inv, State.setWalk_inv, h]

theorem State.walkHere_inv (s : State) (src : Nat)
    (hI : s.Inv) : (State.walkHere s src).Inv := by
  unfold State.walkHere
  simp (maxDischargeDepth := 60) +contextual only [State.setWalk_inv, hI]

theorem State.convSrc_inv (s : State) (lh src : Nat)
    (hI : s.Inv) : (State.convSrc s lh src).1.Inv := by
  unfold State.convSrc
  simp (maxDischargeDepth := 60) +contextual only [State.convList_inv, State.setWalk_inv, ite_inv_fst, hI]

theorem State.reconvAll_inv (s : State)
    (hI : s.Inv) : (State.reconvAll s).Inv := by
  unfold State.reconvAll
  simp (maxDischargeDepth := 60) +contextual only [State.prkLate_inv, State.setQueue_inv, forL_inv, implies_true, hI]

theorem State.prkPass_inv (s : State) (t : Nat)
    (hI : s.Inv) : (State.prkPass s t).Inv := by
  unfold State.prkPass
  simp (maxDischargeDepth := 60) +contextual only [State.reconvAll_inv, State.convSrc_inv, State.updPrk_inv, State.count_inv,
    State.raise_inv, ite_inv, ite_inv_fst, hI]

theorem State.holdSeen_inv (s : State) (d : Nat)
    (hI : s.Inv) : (State.holdSeen s d).Inv := by
  unfold State.holdSeen
  simp (maxDischargeDepth := 60) +contextual only [State.setF_inv, ite_inv, hI]

theorem State.prkDispatch_inv (s : State)
    (hI : s.Inv) : (State.prkDispatch s).1.Inv := by
  unfold State.prkDispatch
  dsimp only
  (repeat' split) <;> simp (maxDischargeDepth := 60) +contextual only [State.setQueue_inv, State.updPrk_inv,
    State.holdSeen_inv, hI]

theorem State.passTimer_inv (s : State)
    (hI : s.Inv) : (State.passTimer s).Inv := by
  unfold State.passTimer
  simp (maxDischargeDepth := 60) +contextual only [State.unsched_inv, State.sched_inv, hI]

theorem State.prkStart_inv (s : State)
    (hI : s.Inv) : (State.prkStart s).Inv := by
  unfold State.prkStart
  simp (maxDischargeDepth := 60) +contextual only [State.setB_inv, State.setF_inv, State.updPrk_inv, State.walkHere_inv,
    State.passTimer_inv, State.prkPass_inv, hI]

theorem State.prkStop_inv (s : State)
    (hI : s.Inv) : (State.prkStop s).Inv := by
  unfold State.prkStop
  simp (maxDischargeDepth := 60) +contextual only [State.setB_inv, State.setQueue_inv, State.updSwap_inv, State.unsched_inv,
    State.swapCmdEnd_inv, State.updPrk_inv, hI]

theorem State.prkWarm_inv (s : State)
    (hI : s.Inv) : (State.prkWarm s).Inv := by
  unfold State.prkWarm
  simp (maxDischargeDepth := 60) +contextual only [State.setQueue_inv, State.updSwap_inv, State.swapCmdEnd_inv,
    State.updPrk_inv, State.walkHere_inv, State.setB_inv, State.passTimer_inv, State.prkPass_inv, ite_inv, hI]

theorem State.swapEffect_inv (s : State)
    (hI : s.Inv) : (State.swapEffect s).Inv := by
  unfold State.swapEffect
  (repeat' split) <;> simp (maxDischargeDepth := 60) +contextual only [State.setF_inv, State.incr_inv, State.updSwap_inv,
    State.swapCmdEnd_inv, hI]

theorem State.prkH1Restart_inv (s : State)
    (hI : s.Inv) : (State.prkH1Restart s).Inv := by
  unfold State.prkH1Restart
  simp (maxDischargeDepth := 60) +contextual only [State.setQueue_inv, State.walkHere_inv, hI]

theorem State.prkTimeStep_inv (s : State) (sec ns frac : Nat)
    (hI : s.Inv) : (State.prkTimeStep s sec ns frac).Inv := by
  unfold State.prkTimeStep
  simp (maxDischargeDepth := 60) +contextual only [State.setQueue_inv, State.walkHere_inv, State.count_inv, State.countN_inv,
    State.convList_inv, State.setWalk_inv, State.raise_inv, ite_inv, hI]

end Sys2Proof.Machine
end

