-- ==== Sys2Proof/Laws/InvHoopCmds.lean ====
section
/-!
SUPPORT. The canonical forms (State.Inv): each operation and meaning of Machine/HoopCmds.lean keeps them.
-/

namespace Sys2Proof.Machine

theorem State.runLost_inv (s : State)
    (hI : s.Inv) : (State.runLost s).Inv := by
  unfold State.runLost
  simp (maxDischargeDepth := 60) +contextual only [State.setB_inv, ite_inv, hI]

theorem State.hoopCtrl_inv (s : State) (w : Nat)
    (hI : s.Inv) : (State.hoopCtrl s w).Inv := by
  unfold State.hoopCtrl
  simp (maxDischargeDepth := 60) +contextual only [State.evtHoop_inv, State.setB_inv, State.setF_inv, State.h1ModeChange_inv,
    State.h0Start_inv, State.swapRestart_inv, State.walkHere_inv, State.updPrk_inv, State.h0Stop_inv, State.runLost_inv,
    State.h0ToFree_inv, State.h0ToAcquire_inv, State.h0Force_inv, State.priReturn_inv, ite_inv, hI]

theorem execH0Enable_inv (m : Master) (s : State)
    (hI : s.Inv) : nextInv (execH0Enable m s) := by
  exact nextInv_next (by simp (maxDischargeDepth := 60) +contextual only [State.gate_inv, State.hoopCtrl_inv, implies_true, hI])

theorem execH0Disable_inv (m : Master) (s : State)
    (hI : s.Inv) : nextInv (execH0Disable m s) := by
  exact nextInv_next (by simp (maxDischargeDepth := 60) +contextual only [State.gate_inv, State.hoopCtrl_inv, implies_true, hI])

theorem execH0DcSet_inv (m : Master) (s : State)
    (hI : s.Inv) : nextInv (execH0DcSet m s) := by
  exact nextInv_next (by simp (maxDischargeDepth := 60) +contextual only [State.gate_inv, State.hoopCtrl_inv, implies_true, hI])

theorem execH0DcClear_inv (m : Master) (s : State)
    (hI : s.Inv) : nextInv (execH0DcClear m s) := by
  exact nextInv_next (by simp (maxDischargeDepth := 60) +contextual only [State.gate_inv, State.hoopCtrl_inv, implies_true, hI])

theorem State.h0Nom_inv (s : State) (nom : Nat)
    (hI : s.Inv) : (State.h0Nom s nom).Inv := by
  unfold State.h0Nom
  simp (maxDischargeDepth := 60) +contextual only [State.evtHoop_inv, State.setF_inv, State.updH0_inv, ite_inv, hI]

theorem execH0nomWrite_inv (m : Master) (nom : BitVec 16) (s : State)
    (hI : s.Inv) : nextInv (execH0nomWrite m nom s) := by
  exact nextInv_next (by simp (maxDischargeDepth := 60) +contextual only [State.gate_inv, State.h0Nom_inv, implies_true, hI])

theorem execPrimaryReturn_inv (m : Master) (s : State)
    (hI : s.Inv) : nextInv (execPrimaryReturn m s) := by
  exact nextInv_next (by simp (maxDischargeDepth := 60) +contextual only [State.gate_inv, State.priReturn_inv, implies_true,
    hI])

theorem execH0PrimaryUpdate_inv (angle : Word) (pos neg : BitVec 16) (s : State)
    (hI : s.Inv) : nextInv (execH0PrimaryUpdate angle pos neg s) := by
  exact nextInv_next (by simp (maxDischargeDepth := 60) +contextual only [State.updH0_inv, State.h0Measure_inv,
    State.h0Primary_inv, ite_inv, hI])

theorem execH1TrackUpdate_inv (angle : Word) (pos neg : BitVec 16) (s : State)
    (hI : s.Inv) : nextInv (execH1TrackUpdate angle pos neg s) := by
  exact nextInv_next (by simp (maxDischargeDepth := 60) +contextual only [State.updH1_inv, State.h1Track_inv, ite_inv, hI])

theorem State.h1AngleWrite_inv (s : State) (v : Nat)
    (hI : s.Inv) : (State.h1AngleWrite s v).Inv := by
  unfold State.h1AngleWrite
  simp (maxDischargeDepth := 60) +contextual only [State.updH1_inv, State.prkH1Restart_inv, State.evtHoop_inv, ite_inv, hI]

theorem execH1AngleWrite_inv (m : Master) (v : Word) (s : State)
    (hI : s.Inv) : nextInv (execH1AngleWrite m v s) := by
  exact nextInv_next (by simp (maxDischargeDepth := 60) +contextual only [State.gate_inv, State.h1AngleWrite_inv,
    implies_true, hI])

theorem execAngleZero_inv (s : State)
    (hI : s.Inv) : nextInv (execAngleZero s) := by
  exact nextInv_next (by simp (maxDischargeDepth := 60) +contextual only [State.updH1_inv, State.incr_inv, State.updH0_inv,
    ite_inv, hI])

theorem execPrickingPass_inv (s : State)
    (hI : s.Inv) : nextInv (execPrickingPass s) := by
  exact nextInv_next (by simp (maxDischargeDepth := 60) +contextual only [State.passTimer_inv, State.prkPass_inv, ite_inv, hI])

theorem State.prkRefuse_inv (s : State) (m : Master)
    (hI : s.Inv) : (State.prkRefuse s m).Inv := by
  unfold State.prkRefuse
  simp (maxDischargeDepth := 60) +contextual only [State.refuse_inv, hI]

theorem State.prkCtrl_inv (s : State) (m : Master) (w : Nat)
    (hI : s.Inv) : (State.prkCtrl s m w).Inv := by
  unfold State.prkCtrl
  simp (maxDischargeDepth := 60) +contextual only [State.prkRefuse_inv, State.prkStop_inv, State.runLost_inv, State.setF_inv,
    State.prkStart_inv, ite_inv, hI]

theorem execPrkEnable_inv (m : Master) (s : State)
    (hI : s.Inv) : nextInv (execPrkEnable m s) := by
  exact nextInv_next (by simp (maxDischargeDepth := 60) +contextual only [State.gate_inv, State.prkCtrl_inv, implies_true, hI])

theorem execPrkDisable_inv (m : Master) (s : State)
    (hI : s.Inv) : nextInv (execPrkDisable m s) := by
  exact nextInv_next (by simp (maxDischargeDepth := 60) +contextual only [State.gate_inv, State.prkCtrl_inv, implies_true, hI])

theorem State.edCmd_inv (s : State) (page cmd : Nat)
    (hI : s.Inv) : (State.edCmd s page cmd).Inv := by
  unfold State.edCmd
  (repeat' split) <;> simp (maxDischargeDepth := 60) +contextual only [State.edPort_inv, State.prkRead_inv,
    State.prkWrite_inv, State.prkInsert_inv, State.prkDelete_inv, State.prkClear_inv, State.prkCommit_inv, State.setB_inv,
    implies_true, hI]

theorem execPrkEditRead_inv (m : Master) (page : Fin 4) (s : State)
    (hI : s.Inv) : nextInv (execPrkEditRead m page s) := by
  exact nextInv_next (by simp (maxDischargeDepth := 60) +contextual only [State.gate_inv, State.edCmd_inv, implies_true, hI])

theorem execPrkEditWrite_inv (m : Master) (page : Fin 4) (s : State)
    (hI : s.Inv) : nextInv (execPrkEditWrite m page s) := by
  exact nextInv_next (by simp (maxDischargeDepth := 60) +contextual only [State.gate_inv, State.edCmd_inv, implies_true, hI])

theorem execPrkEditInsert_inv (m : Master) (page : Fin 4) (s : State)
    (hI : s.Inv) : nextInv (execPrkEditInsert m page s) := by
  exact nextInv_next (by simp (maxDischargeDepth := 60) +contextual only [State.gate_inv, State.edCmd_inv, implies_true, hI])

theorem execPrkEditDelete_inv (m : Master) (page : Fin 4) (s : State)
    (hI : s.Inv) : nextInv (execPrkEditDelete m page s) := by
  exact nextInv_next (by simp (maxDischargeDepth := 60) +contextual only [State.gate_inv, State.edCmd_inv, implies_true, hI])

theorem execPrkEditClear_inv (m : Master) (page : Fin 4) (s : State)
    (hI : s.Inv) : nextInv (execPrkEditClear m page s) := by
  exact nextInv_next (by simp (maxDischargeDepth := 60) +contextual only [State.gate_inv, State.edCmd_inv, implies_true, hI])

theorem execPrkEditCommit_inv (m : Master) (page : Fin 4) (s : State)
    (hI : s.Inv) : nextInv (execPrkEditCommit m page s) := by
  exact nextInv_next (by simp (maxDischargeDepth := 60) +contextual only [State.gate_inv, State.edCmd_inv, implies_true, hI])

theorem execPrkEditComplete_inv (s : State)
    (hI : s.Inv) : nextInv (execPrkEditComplete s) := by
  exact nextInv_next (by simp (maxDischargeDepth := 60) +contextual only [State.edComplete_inv, hI])

theorem execPrkSwapRequest_inv (m : Master) (page : Fin 4) (s : State)
    (hI : s.Inv) : nextInv (execPrkSwapRequest m page s) := by
  exact nextInv_next (by simp (maxDischargeDepth := 60) +contextual only [State.gate_inv, State.swapReq_inv, implies_true, hI])

theorem execPageSwapEffect_inv (s : State)
    (hI : s.Inv) : nextInv (execPageSwapEffect s) := by
  exact nextInv_next (by simp (maxDischargeDepth := 60) +contextual only [State.swapEffect_inv, hI])

theorem execPageSwap_inv (page : Fin 4) (s : State)
    (hI : s.Inv) : nextInv (execPageSwap page s) := by
  exact nextInv_next (by simp (maxDischargeDepth := 60) +contextual only [State.swapReq_inv, hI])

theorem State.setGpio_inv (s : State) (pin : Nat) (b : Bool)
    (hI : s.Inv) : (State.setGpio s pin b).Inv := by
  unfold State.setGpio
  simp (maxDischargeDepth := 60) +contextual only [inv_mk, regs_wf, mem_wf, and_self, hI]

theorem execGpioSet_inv (pin : Fin 16) (s : State)
    (hI : s.Inv) : nextInv (execGpioSet pin s) := by
  exact nextInv_next (by simp (maxDischargeDepth := 60) +contextual only [State.setGpio_inv, ite_inv, hI])

theorem execGpioClr_inv (pin : Fin 16) (s : State)
    (hI : s.Inv) : nextInv (execGpioClr pin s) := by
  exact nextInv_next (by simp (maxDischargeDepth := 60) +contextual only [State.setGpio_inv, ite_inv, hI])

theorem execMark_inv (page : Fin 4) (idx : BitVec 14) (tag : Word) (s : State)
    (hI : s.Inv) : nextInv (execMark page idx tag s) := by
  exact nextInv_next (by simp (maxDischargeDepth := 60) +contextual only [State.ringPut_inv, hI])

end Sys2Proof.Machine
end

