-- ==== Sys2Proof/Laws/InvNtm.lean ====
section
/-!
SUPPORT. The canonical forms (State.Inv): each operation and meaning of Machine/Ntm.lean keeps them.
-/

namespace Sys2Proof.Machine

theorem State.capture_inv (s : State) (m : Master) (a n : Nat)
    (hI : s.Inv) : (State.capture s m a n).Inv := by
  unfold State.capture
  simp (maxDischargeDepth := 60) +contextual only [inv_mk, regs_wf, mem_wf, and_self, hI]

theorem State.hold_inv (s : State) (m : Master) (a n : Nat)
    (hI : s.Inv) : (State.hold s m a n).Inv := by
  unfold State.hold
  simp (maxDischargeDepth := 60) +contextual only [inv_mk, regs_wf, mem_wf, and_self, hI]

theorem State.unhold_inv (s : State) (m : Master) (a : Nat)
    (hI : s.Inv) : (State.unhold s m a).Inv := by
  unfold State.unhold
  simp (maxDischargeDepth := 60) +contextual only [inv_mk, regs_wf, mem_wf, and_self, hI]

theorem State.setRdata_inv (s : State) (n : Nat)
    (hI : s.Inv) : (State.setRdata s n).Inv := by
  unfold State.setRdata
  simp (maxDischargeDepth := 60) +contextual only [inv_mk, regs_wf, mem_wf, and_self, hI]

theorem State.evtNtm_inv (s : State) (f : Fld)
    (hI : s.Inv) : (State.evtNtm s f).Inv := by
  unfold State.evtNtm
  simp (maxDischargeDepth := 60) +contextual only [State.evt_inv, hI]

theorem State.ppsMark_inv (s : State) (a b : Int)
    (hI : s.Inv) : (State.ppsMark s a b).Inv := by
  unfold State.ppsMark
  simp (maxDischargeDepth := 60) +contextual only [State.updNtm_inv, ite_inv, hI]

theorem State.ppsRun_inv (s : State) (t0 : Int)
    (hI : s.Inv) : (State.ppsRun s t0).Inv := by
  unfold State.ppsRun
  simp (maxDischargeDepth := 60) +contextual only [State.ppsMark_inv, State.updNtm_inv, State.sched_inv, ite_inv, hI]

theorem State.ntmAdvance_inv (s : State)
    (hI : s.Inv) : (State.ntmAdvance s).Inv := by
  unfold State.ntmAdvance
  simp (maxDischargeDepth := 60) +contextual only [State.updNtm_inv, State.ppsRun_inv, State.sched_inv, ite_inv, hI]

theorem State.ntmStep_inv (s : State) (op : NtmOp)
    (hI : s.Inv) : (State.ntmStep s op).Inv := by
  unfold State.ntmStep
  (repeat' split) <;> simp (maxDischargeDepth := 60) +contextual only [State.updNtm_inv, State.incr_inv,
    State.prkTimeStep_inv, State.ppsMark_inv, State.evtNtm_inv, hI]

theorem State.ntmTick_inv (s : State)
    (hI : s.Inv) : (State.ntmTick s).Inv := by
  unfold State.ntmTick
  simp (maxDischargeDepth := 60) +contextual only [State.ntmAdvance_inv, State.ntmStep_inv, State.updNtm_inv,
    State.sched_inv, ite_inv, forL_inv, implies_true, hI]

theorem State.masterArm_inv (s : State)
    (hI : s.Inv) : (State.masterArm s).Inv := by
  unfold State.masterArm
  simp (maxDischargeDepth := 60) +contextual only [State.unsched_inv, State.schedAt_inv, ite_inv, hI]

theorem State.masterWatch_inv (s : State) (was : Bool)
    (hI : s.Inv) : (State.masterWatch s was).Inv := by
  unfold State.masterWatch
  simp (maxDischargeDepth := 60) +contextual only [State.updNtm_inv, State.masterArm_inv, ite_inv, hI]

theorem State.setNtmLock_inv (s : State) (b : Bool)
    (hI : s.Inv) : (State.setNtmLock s b).Inv := by
  unfold State.setNtmLock
  simp (maxDischargeDepth := 60) +contextual only [State.updNtm_inv, State.setB_inv, State.updEnerg_inv, ite_inv, hI]

theorem State.holdInteg_inv (s : State)
    (hI : s.Inv) : (State.holdInteg s).Inv := by
  unfold State.holdInteg
  simp (maxDischargeDepth := 60) +contextual only [State.updNtm_inv, hI]

theorem State.holdCheck_inv (s : State)
    (hI : s.Inv) : (State.holdCheck s).Inv := by
  unfold State.holdCheck
  simp (maxDischargeDepth := 60) +contextual only [State.setB_inv, State.setNtmLock_inv, State.evtNtm_inv, ite_inv, hI]

theorem State.holdUpdate_inv (s : State)
    (hI : s.Inv) : (State.holdUpdate s).Inv := by
  unfold State.holdUpdate
  simp (maxDischargeDepth := 60) +contextual only [State.holdInteg_inv, State.wrN_inv, State.holdCheck_inv, hI]

theorem State.ntmEnter_inv (s : State) (st : Nat)
    (hI : s.Inv) : (State.ntmEnter s st).Inv := by
  unfold State.ntmEnter
  simp (maxDischargeDepth := 60) +contextual only [State.setF_inv, State.wrN_inv, State.setB_inv, State.unsched_inv,
    State.setNtmLock_inv, hI]

theorem State.ntmHold_inv (s : State) (ref : Nat)
    (hI : s.Inv) : (State.ntmHold s ref).Inv := by
  unfold State.ntmHold
  simp (maxDischargeDepth := 60) +contextual only [State.setF_inv, State.setB_inv, State.updNtm_inv, State.holdUpdate_inv,
    State.unsched_inv, State.sched_inv, hI]

theorem State.ntmCmd_inv (s : State) (cmd : Nat)
    (hI : s.Inv) : (State.ntmCmd s cmd).Inv := by
  unfold State.ntmCmd
  simp (maxDischargeDepth := 60) +contextual only [State.ntmEnter_inv, State.masterArm_inv, State.evtNtm_inv,
    State.ntmHold_inv, ite_inv, hI]

theorem State.masterChange_inv (s : State) (ref : Nat)
    (hI : s.Inv) : (State.masterChange s ref).Inv := by
  unfold State.masterChange
  simp (maxDischargeDepth := 60) +contextual only [State.updNtm_inv, State.ntmHold_inv, State.evtNtm_inv, ite_inv, hI]

theorem State.masterSign_inv (s : State)
    (hI : s.Inv) : (State.masterSign s).Inv := by
  unfold State.masterSign
  simp (maxDischargeDepth := 60) +contextual only [State.updNtm_inv, State.masterArm_inv, ite_inv, hI]

theorem State.ntmCtrl_inv (s : State) (w : Nat)
    (hI : s.Inv) : (State.ntmCtrl s w).Inv := by
  unfold State.ntmCtrl
  simp (maxDischargeDepth := 60) +contextual only [State.setB_inv, State.masterChange_inv, State.masterWatch_inv,
    State.ntmCmd_inv, ite_inv, hI]

theorem State.masterId_inv (s : State) (m : Master) (w : Nat)
    (hI : s.Inv) : (State.masterId s m w).Inv := by
  unfold State.masterId
  simp (maxDischargeDepth := 60) +contextual only [State.wrN_inv, State.unhold_inv, State.masterChange_inv, hI]

theorem State.masterPort_inv (s : State) (w : Nat)
    (hI : s.Inv) : (State.masterPort s w).Inv := by
  unfold State.masterPort
  simp (maxDischargeDepth := 60) +contextual only [State.wrN_inv, State.masterChange_inv, hI]

theorem State.ntmIncWrite_inv (s : State) (m : Master) (lo : Nat)
    (hI : s.Inv) : (State.ntmIncWrite s m lo).Inv := by
  unfold State.ntmIncWrite
  simp (maxDischargeDepth := 60) +contextual only [State.unhold_inv, State.evtNtm_inv, State.wrN_inv, ite_inv, hI]

theorem State.ntmAdj_inv (s : State) (w : Nat)
    (hI : s.Inv) : (State.ntmAdj s w).Inv := by
  unfold State.ntmAdj
  simp (maxDischargeDepth := 60) +contextual only [State.evtNtm_inv, State.updNtm_inv, State.setB_inv, ite_inv, hI]

theorem State.ntmSet_inv (s : State)
    (hI : s.Inv) : (State.ntmSet s).Inv := by
  unfold State.ntmSet
  simp (maxDischargeDepth := 60) +contextual only [State.updNtm_inv, State.setB_inv, State.evtNtm_inv, ite_inv, hI]

theorem State.ntmAdjCtl_inv (s : State) (w : Nat)
    (hI : s.Inv) : (State.ntmAdjCtl s w).Inv := by
  unfold State.ntmAdjCtl
  simp (maxDischargeDepth := 60) +contextual only [State.setB_inv, State.setF_inv, State.ntmSet_inv, ite_inv, hI]

theorem State.ppsOfs_inv (s : State) (w : Nat)
    (hI : s.Inv) : (State.ppsOfs s w).Inv := by
  unfold State.ppsOfs
  simp (maxDischargeDepth := 60) +contextual only [State.wrN_inv, State.ppsMark_inv, hI]

theorem execNtmIncWrite_inv (m : Master) (lo : Word) (s : State)
    (hI : s.Inv) : nextInv (execNtmIncWrite m lo s) := by
  exact nextInv_next (by simp (maxDischargeDepth := 60) +contextual only [State.gate_inv, State.ntmIncWrite_inv,
    implies_true, hI])

theorem execNtmAdjStep_inv (m : Master) (v : Word) (s : State)
    (hI : s.Inv) : nextInv (execNtmAdjStep m v s) := by
  exact nextInv_next (by simp (maxDischargeDepth := 60) +contextual only [State.gate_inv, State.ntmAdj_inv, ite_inv,
    implies_true, hI])

theorem execNtmAdjSlew_inv (m : Master) (v : Word) (s : State)
    (hI : s.Inv) : nextInv (execNtmAdjSlew m v s) := by
  exact nextInv_next (by simp (maxDischargeDepth := 60) +contextual only [State.gate_inv, State.ntmAdj_inv, ite_inv,
    implies_true, hI])

theorem execNtmSlewComplete_inv (s : State)
    (hI : s.Inv) : nextInv (execNtmSlewComplete s) := by
  exact nextInv_next (by simp (maxDischargeDepth := 60) +contextual only [State.setB_inv, ite_inv, hI])

theorem execNtmSet_inv (m : Master) (s : State)
    (hI : s.Inv) : nextInv (execNtmSet m s) := by
  exact nextInv_next (by simp (maxDischargeDepth := 60) +contextual only [State.gate_inv, State.ntmSet_inv, implies_true, hI])

theorem execNtmCmdFree_inv (m : Master) (s : State)
    (hI : s.Inv) : nextInv (execNtmCmdFree m s) := by
  exact nextInv_next (by simp (maxDischargeDepth := 60) +contextual only [State.gate_inv, State.ntmCmd_inv, implies_true, hI])

theorem execNtmCmdAcquire_inv (m : Master) (s : State)
    (hI : s.Inv) : nextInv (execNtmCmdAcquire m s) := by
  exact nextInv_next (by simp (maxDischargeDepth := 60) +contextual only [State.gate_inv, State.ntmCmd_inv, implies_true, hI])

theorem execNtmCmdLock_inv (m : Master) (s : State)
    (hI : s.Inv) : nextInv (execNtmCmdLock m s) := by
  exact nextInv_next (by simp (maxDischargeDepth := 60) +contextual only [State.gate_inv, State.ntmCmd_inv, implies_true, hI])

theorem execNtmCmdHold_inv (m : Master) (s : State)
    (hI : s.Inv) : nextInv (execNtmCmdHold m s) := by
  exact nextInv_next (by simp (maxDischargeDepth := 60) +contextual only [State.gate_inv, State.ntmCmd_inv, implies_true, hI])

theorem execNtmMasterTimeout_inv (s : State)
    (hI : s.Inv) : nextInv (execNtmMasterTimeout s) := by
  exact nextInv_next (by simp (maxDischargeDepth := 60) +contextual only [State.ntmHold_inv, State.evtNtm_inv, ite_inv, hI])

theorem execNtmMasteridWrite_inv (m : Master) (reg : Fin 3) (v : Word) (s : State)
    (hI : s.Inv) : nextInv (execNtmMasteridWrite m reg v s) := by
  exact nextInv_next (by simp (maxDischargeDepth := 60) +contextual only [State.gate_inv, State.masterId_inv,
    State.masterPort_inv, State.ntmCtrl_inv, ite_inv, implies_true, hI])

theorem execNtmHoldUpdate_inv (s : State)
    (hI : s.Inv) : nextInv (execNtmHoldUpdate s) := by
  exact nextInv_next (by simp (maxDischargeDepth := 60) +contextual only [State.holdUpdate_inv, State.unsched_inv,
    State.sched_inv, ite_inv, hI])

theorem execPpsOutPulse_inv (s : State)
    (hI : s.Inv) : nextInv (execPpsOutPulse s) := by
  exact nextInv_next (by simp (maxDischargeDepth := 60) +contextual only [State.updNtm_inv, State.emit_inv,
    State.unsched_inv, State.sched_inv, ite_inv, hI])

theorem execPpsOutPulseEnd_inv (s : State)
    (hI : s.Inv) : nextInv (execPpsOutPulseEnd s) := by
  exact nextInv_next (by simp (maxDischargeDepth := 60) +contextual only [State.updNtm_inv, hI])

theorem State.ppsEdge_inv (s : State) (falling : Bool) (quarter : Nat)
    (hI : s.Inv) : (State.ppsEdge s falling quarter).Inv := by
  unfold State.ppsEdge
  simp (maxDischargeDepth := 60) +contextual only [State.wrN_inv, State.updNtm_inv, State.masterSign_inv, ite_inv, hI]

theorem execPpsInEdge_inv (falling : Bool) (quarter : Fin 8) (s : State)
    (hI : s.Inv) : nextInv (execPpsInEdge falling quarter s) := by
  exact nextInv_next (by simp (maxDischargeDepth := 60) +contextual only [State.ppsEdge_inv, hI])

theorem execRef10Measure_inv (err : Word) (s : State)
    (hI : s.Inv) : nextInv (execRef10Measure err s) := by
  exact nextInv_next (by simp (maxDischargeDepth := 60) +contextual only [State.holdInteg_inv, State.wr_inv, State.wrN_inv,
    ite_inv, hI])

theorem execRef10mLoss_inv (s : State)
    (hI : s.Inv) : nextInv (execRef10mLoss s) := by
  exact nextInv_next (by simp (maxDischargeDepth := 60) +contextual only [State.holdInteg_inv, State.setB_inv, State.wrN_inv,
    ite_inv, hI])

theorem execRef10mDetect_inv (s : State)
    (hI : s.Inv) : nextInv (execRef10mDetect s) := by
  exact nextInv_next (by simp (maxDischargeDepth := 60) +contextual only [State.setB_inv, hI])

end Sys2Proof.Machine
end

