-- ==== Sys2Proof/Laws/InvEth.lean ====
section
/-!
SUPPORT. The canonical forms (State.Inv): each operation and meaning of Machine/Eth.lean keeps them.
-/

namespace Sys2Proof.Machine

theorem State.stamp_inv (s : State) (lat : Nat)
    (hI : s.Inv) : (State.stamp s lat).2.Inv := by
  unfold State.stamp
  simp (maxDischargeDepth := 60) +contextual only [State.free_inv, hI]

theorem State.prpExpire_inv (s : State)
    (hI : s.Inv) : (State.prpExpire s).Inv := by
  unfold State.prpExpire
  simp (maxDischargeDepth := 60) +contextual only [State.updEth_inv, State.unsched_inv, State.schedAt_inv, ite_inv, hI]

theorem State.prpTake_inv (s : State) (mac seq : Nat)
    (hI : s.Inv) : (State.prpTake s mac seq).1.Inv := by
  unfold State.prpTake
  dsimp only
  (repeat' split) <;> simp (maxDischargeDepth := 60) +contextual only [State.updEth_inv, State.count_inv, hI]

theorem State.prpSee_inv (s : State) (mac seq : Nat)
    (hI : s.Inv) : (State.prpSee s mac seq).1.Inv := by
  unfold State.prpSee
  simp (maxDischargeDepth := 60) +contextual only [State.prpExpire_inv, State.prpTake_inv, hI]

theorem State.syncSeen_inv (s : State) (port : Nat) (f : List Byte) (o : Nat) (l2 : Bool)
    (hI : s.Inv) : (State.syncSeen s port f o l2).Inv := by
  unfold State.syncSeen
  simp (maxDischargeDepth := 60) +contextual only [State.count_inv, State.updNtm_inv, State.masterSign_inv, ite_inv, hI]

theorem State.ethDeliver_inv (s : State) (ring : Nat) (f : List Byte) (t : Option Nat) (event lanB : Bool)
    (hI : s.Inv) : (State.ethDeliver s ring f t event lanB).Inv := by
  unfold State.ethDeliver
  simp (maxDischargeDepth := 60) +contextual only [State.ringRecord_inv, hI]

theorem State.ethRx_inv (s : State) (port : Nat) (f : List Byte)
    (hI : s.Inv) : (State.ethRx s port f).Inv := by
  unfold State.ethRx
  dsimp only
  (repeat' split) <;> simp (maxDischargeDepth := 60) +contextual only [State.count_inv, State.stamp_inv, State.syncSeen_inv,
    State.ethDeliver_inv, State.prpSee_inv, hI]

theorem execEthRxFrame_inv (port : Fin 2) (frame : List Byte) (fcsOk : Bool) (s : State)
    (hI : s.Inv) : nextInv (execEthRxFrame port frame fcsOk s) := by
  exact nextInv_next (by simp (maxDischargeDepth := 60) +contextual only [State.ethRx_inv, State.count_inv, ite_inv, hI])

theorem State.txBack_inv (s : State) (ring : Nat) (d : TxDesc) (status : Nat) (t : Option Nat)
    (hI : s.Inv) : (State.txBack s ring d status t).Inv := by
  unfold State.txBack
  simp (maxDischargeDepth := 60) +contextual only [State.emit_inv, State.ringAdvance_inv, State.ringSignal_inv, hI]

theorem State.ethSend_inv (s : State) (port : Nat) (f : List Byte)
    (hI : s.Inv) : (State.ethSend s port f).Inv := by
  unfold State.ethSend
  simp (maxDischargeDepth := 60) +contextual only [State.count_inv, State.ethRx_inv, State.emit_inv, ite_inv, hI]

theorem State.setStamps_inv (s : State) (port n : Nat)
    (hI : s.Inv) : (State.setStamps s port n).Inv := by
  unfold State.setStamps
  simp (maxDischargeDepth := 60) +contextual only [State.updEth_inv, hI]

theorem State.ethTx_inv (s : State) (port : Nat) (d : TxDesc) (f : List Byte) (returned : Nat)
    (hI : s.Inv) : (State.ethTx s port d f returned).Inv := by
  unfold State.ethTx
  dsimp only
  (repeat' split) <;> simp (maxDischargeDepth := 60) +contextual only [State.setStamps_inv, State.txBack_inv,
    State.ethSend_inv, State.count_inv, State.stamp_inv, State.updEth_inv, hI]

theorem execEthTxFrame_inv (port : Fin 2) (d : TxDesc) (frame : List Byte) (returned : Nat) (s : State)
    (hI : s.Inv) : nextInv (execEthTxFrame port d frame returned s) := by
  exact nextInv_next (by simp (maxDischargeDepth := 60) +contextual only [State.ethTx_inv, ite_inv, hI])

theorem execPrpEntryExpire_inv (s : State)
    (hI : s.Inv) : nextInv (execPrpEntryExpire s) := by
  exact nextInv_next (by simp (maxDischargeDepth := 60) +contextual only [State.prpExpire_inv, hI])

theorem State.setPcs_inv (s : State) (port : Nat) (x : PcsSt)
    (hI : s.Inv) : (State.setPcs s port x).Inv := by
  unfold State.setPcs
  simp (maxDischargeDepth := 60) +contextual only [State.updEth_inv, hI]

theorem State.ethLink_inv (s : State) (p : Nat)
    (hI : s.Inv) : (State.ethLink s p).Inv := by
  unfold State.ethLink
  simp (maxDischargeDepth := 60) +contextual only [State.setB_inv, hI]

theorem execEthLinkChange_inv (port : Fin 2) (sigdet sync : Bool) (an : Option Bool) (remFlt : Bool) (s : State)
    (hI : s.Inv) : nextInv (execEthLinkChange port sigdet sync an remFlt s) := by
  exact nextInv_next (by simp (maxDischargeDepth := 60) +contextual only [State.setB_inv, State.setPcs_inv,
    State.ethLink_inv, ite_inv, hI])

theorem State.prpCfg_inv (s : State) (m : Master) (w : Nat)
    (hI : s.Inv) : (State.prpCfg s m w).Inv := by
  unfold State.prpCfg
  simp (maxDischargeDepth := 60) +contextual only [State.refuse_inv, State.setF_inv, State.setB_inv, State.prpExpire_inv,
    ite_inv, hI]

theorem State.ethCtrl_inv (s : State) (port w : Nat)
    (hI : s.Inv) : (State.ethCtrl s port w).Inv := by
  unfold State.ethCtrl
  simp (maxDischargeDepth := 60) +contextual only [State.setB_inv, State.setF_inv, State.setPcs_inv, State.ethLink_inv, hI]

end Sys2Proof.Machine
end

