-- ==== Sys2Proof/Laws/InvSlots.lean ====
section
/-!
SUPPORT. The canonical forms (State.Inv): each operation and meaning of Machine/Slots.lean keeps them.
-/

namespace Sys2Proof.Machine

theorem State.updEng_inv (s : State) (e : Nat) (f : EngSt → EngSt)
    (hI : s.Inv) : (State.updEng s e f).Inv := by
  unfold State.updEng
  simp (maxDischargeDepth := 60) +contextual only [inv_mk, regs_wf, mem_wf, and_self, hI]

theorem State.updSlot_inv (s : State) (e k : Nat) (f : SlotSt → SlotSt)
    (hI : s.Inv) : (State.updSlot s e k f).Inv := by
  unfold State.updSlot
  simp (maxDischargeDepth := 60) +contextual only [State.updEng_inv, hI]

theorem State.setSlotState_inv (s : State) (e k st : Nat)
    (hI : s.Inv) : (State.setSlotState s e k st).Inv := by
  unfold State.setSlotState
  simp (maxDischargeDepth := 60) +contextual only [State.setF_inv, hI]

theorem State.clearCaps_inv (s : State) (m : Master)
    (hI : s.Inv) : (State.clearCaps s m).Inv := by
  unfold State.clearCaps
  simp (maxDischargeDepth := 60) +contextual only [inv_mk, regs_wf, mem_wf, and_self, hI]

theorem State.wake_inv (s : State) (e k : Nat) (word : Nat)
    (hI : s.Inv) : (State.wake s e k word).Inv := by
  unfold State.wake
  simp (maxDischargeDepth := 60) +contextual only [State.incr_inv, State.count_inv, State.setB_inv, State.setF_inv,
    State.setSlotState_inv, State.updSlot_inv, State.sched_inv, ite_inv, hI]

theorem State.slotFresh_inv (s : State) (e k : Nat)
    (hI : s.Inv) : (State.slotFresh s e k).Inv := by
  unfold State.slotFresh
  simp (maxDischargeDepth := 60) +contextual only [State.updEng_inv, State.clearCaps_inv, State.setB_inv, State.updSlot_inv, hI]

theorem State.slotResume_inv (s : State) (e k : Nat)
    (hI : s.Inv) : (State.slotResume s e k).Inv := by
  unfold State.slotResume
  simp (maxDischargeDepth := 60) +contextual only [State.updSlot_inv, hI]

theorem State.bookRun_inv (s : State) (e c : Nat)
    (hI : s.Inv) : (State.bookRun s e c).Inv := by
  unfold State.bookRun
  simp (maxDischargeDepth := 60) +contextual only [State.updSlot_inv, State.updEng_inv, ite_inv, hI]

theorem State.switchTo_inv (s : State) (e k : Nat)
    (hI : s.Inv) : (State.switchTo s e k).Inv := by
  unfold State.switchTo
  (repeat' split) <;> simp (maxDischargeDepth := 60) +contextual only [State.slotFresh_inv, State.slotResume_inv,
    State.setSlotState_inv, State.setB_inv, State.setF_inv, State.updEng_inv, hI]

theorem State.dispatchSlot_inv (s : State) (e : Nat)
    (hI : s.Inv) : (State.dispatchSlot s e).Inv := by
  unfold State.dispatchSlot
  (repeat' split) <;> simp (maxDischargeDepth := 60) +contextual only [State.bookRun_inv, State.setSlotState_inv,
    State.updSlot_inv, State.eccMeet_inv, State.switchTo_inv, ite_inv, hI]

theorem State.engFree_inv (s : State) (e : Nat)
    (hI : s.Inv) : (State.engFree s e).Inv := by
  unfold State.engFree
  simp (maxDischargeDepth := 60) +contextual only [State.setB_inv, State.sched_inv, ite_inv, hI]

theorem State.afterRun_inv (s : State) (e k st : Nat)
    (hI : s.Inv) : (State.afterRun s e k st).Inv := by
  unfold State.afterRun
  simp (maxDischargeDepth := 60) +contextual only [State.setSlotState_inv, ite_inv, hI]

theorem State.slotWait_inv (s : State) (e k pc rd t : Nat)
    (hI : s.Inv) : (State.slotWait s e k pc rd t).Inv := by
  unfold State.slotWait
  simp (maxDischargeDepth := 60) +contextual only [State.bookRun_inv, State.updEng_inv, State.wrN_inv, State.setF_inv,
    State.updSlot_inv, State.afterRun_inv, State.engFree_inv, ite_inv, hI]

theorem State.abortInfo_inv (s : State) (e cause k used pc addr : Nat)
    (hI : s.Inv) : (State.abortInfo s e cause k used pc addr).Inv := by
  unfold State.abortInfo
  simp (maxDischargeDepth := 60) +contextual only [State.wrN_inv, State.setBit_inv, hI]

theorem State.slotAbort_inv (s : State) (e cause addr pc t : Nat)
    (hI : s.Inv) : (State.slotAbort s e cause addr pc t).Inv := by
  unfold State.slotAbort
  simp (maxDischargeDepth := 60) +contextual only [State.bookRun_inv, State.updEng_inv, State.abortInfo_inv, State.setB_inv,
    State.updSlot_inv, State.count_inv, State.afterRun_inv, State.engFree_inv, State.raiseD_inv, ite_inv, hI]

theorem State.slotOn_inv (s : State) (e k : Nat)
    (hI : s.Inv) : (State.slotOn s e k).Inv := by
  unfold State.slotOn
  simp (maxDischargeDepth := 60) +contextual only [State.setSlotState_inv, State.setB_inv, State.updSlot_inv, ite_inv, hI]

theorem State.slotOff_inv (s : State) (e k : Nat)
    (hI : s.Inv) : (State.slotOff s e k).Inv := by
  unfold State.slotOff
  simp (maxDischargeDepth := 60) +contextual only [State.setSlotState_inv, ite_inv, hI]

theorem State.slotCfg_inv (s : State) (e k w : Nat)
    (hI : s.Inv) : (State.slotCfg s e k w).Inv := by
  unfold State.slotCfg
  simp (maxDischargeDepth := 60) +contextual only [State.wrN_inv, State.slotOn_inv, State.slotOff_inv, ite_inv, hI]

theorem State.engCtrl_inv (s : State) (m : Master) (e : Nat) (en : Bool)
    (hI : s.Inv) : (State.engCtrl s m e en).Inv := by
  unfold State.engCtrl
  simp (maxDischargeDepth := 60) +contextual only [State.refuse_inv, State.setB_inv, State.updEng_inv, State.slotOn_inv,
    State.slotOff_inv, ite_inv, forN_inv, implies_true, hI]

theorem State.windowCheck_inv (s : State)
    (hI : s.Inv) : (State.windowCheck s).Inv := by
  unfold State.windowCheck
  refine forN_inv _ _ (fun x t ht => ?_) hI
  (repeat' split) <;> simp (maxDischargeDepth := 60) +contextual only [State.count_inv, State.raise_inv, ht]

theorem execTaskWake_inv (engines : BitVec 16) (arg : Word) (s : State)
    (hI : s.Inv) : nextInv (execTaskWake engines arg s) := by
  exact nextInv_next (by simp (maxDischargeDepth := 60) +contextual only [State.wake_inv, ite_inv, forL_inv, implies_true, hI])

theorem State.bobWake_inv (s : State) (m : Master) (e w : Nat)
    (hI : s.Inv) : (State.bobWake s m e w).Inv := by
  unfold State.bobWake
  simp (maxDischargeDepth := 60) +contextual only [State.wake_inv, forL_inv, implies_true, hI]

theorem execBobWakeWrite_inv (m : Master) (e : Fin 16) (w : Word) (s : State)
    (hI : s.Inv) : nextInv (execBobWakeWrite m e w s) := by
  exact nextInv_next (by simp (maxDischargeDepth := 60) +contextual only [State.gate_inv, State.bobWake_inv, implies_true, hI])

theorem execSlotDispatch_inv (e : Fin 16) (s : State)
    (hI : s.Inv) : nextInv (execSlotDispatch e s) := by
  exact nextInv_next (by simp (maxDischargeDepth := 60) +contextual only [State.dispatchSlot_inv, hI])

theorem execSlotBudgetOverrun_inv (e : Fin 16) (s : State)
    (hI : s.Inv) : nextInv (execSlotBudgetOverrun e s) := by
  exact nextInv_next (by simp (maxDischargeDepth := 60) +contextual only [State.slotAbort_inv, ite_inv, hI])

theorem execSlotEnable_inv (m : Master) (e : Fin 16) (slot : Fin 8) (s : State)
    (hI : s.Inv) : nextInv (execSlotEnable m e slot s) := by
  exact nextInv_next (by simp (maxDischargeDepth := 60) +contextual only [State.gate_inv, State.slotCfg_inv, implies_true, hI])

theorem execSlotDisable_inv (m : Master) (e : Fin 16) (slot : Fin 8) (s : State)
    (hI : s.Inv) : nextInv (execSlotDisable m e slot s) := by
  exact nextInv_next (by simp (maxDischargeDepth := 60) +contextual only [State.gate_inv, State.slotCfg_inv, implies_true, hI])

theorem execEngineEnable_inv (m : Master) (e : Fin 16) (s : State)
    (hI : s.Inv) : nextInv (execEngineEnable m e s) := by
  exact nextInv_next (by simp (maxDischargeDepth := 60) +contextual only [State.gate_inv, State.startGate_inv,
    State.engCtrl_inv, implies_true, hI])

theorem execEngineDisable_inv (m : Master) (e : Fin 16) (s : State)
    (hI : s.Inv) : nextInv (execEngineDisable m e s) := by
  exact nextInv_next (by simp (maxDischargeDepth := 60) +contextual only [State.gate_inv, State.engCtrl_inv, implies_true, hI])

theorem State.bobKick_inv (s : State) (e : Nat)
    (hI : s.Inv) : (State.bobKick s e).Inv := by
  unfold State.bobKick
  simp (maxDischargeDepth := 60) +contextual only [State.updThb_inv, hI]

theorem execBobWdkick_inv (m : Master) (e : Fin 16) (s : State)
    (hI : s.Inv) : nextInv (execBobWdkick m e s) := by
  exact nextInv_next (by simp (maxDischargeDepth := 60) +contextual only [State.gate_inv, State.bobKick_inv, implies_true, hI])

theorem State.bobCheck_inv (s : State)
    (hI : s.Inv) : (State.bobCheck s).Inv := by
  unfold State.bobCheck
  simp (maxDischargeDepth := 60) +contextual only [State.setBit_inv, State.raise_inv, State.engCtrl_inv, State.updThb_inv,
    ite_inv, forN_inv, implies_true, hI]

theorem State.bobTimer_inv (s : State)
    (hI : s.Inv) : (State.bobTimer s).Inv := by
  unfold State.bobTimer
  simp (maxDischargeDepth := 60) +contextual only [State.unsched_inv, State.sched_inv, ite_inv, hI]

theorem execBobbinWatchdogCheck_inv (s : State)
    (hI : s.Inv) : nextInv (execBobbinWatchdogCheck s) := by
  exact nextInv_next (by simp (maxDischargeDepth := 60) +contextual only [State.bobTimer_inv, State.bobCheck_inv, ite_inv, hI])

theorem State.bwdCfg_inv (s : State) (w : Nat)
    (hI : s.Inv) : (State.bwdCfg s w).Inv := by
  unfold State.bwdCfg
  simp (maxDischargeDepth := 60) +contextual only [State.wrN_inv, State.updThb_inv, State.bobTimer_inv, hI]

theorem execThimbleHeartbeat_inv (s : State)
    (hI : s.Inv) : nextInv (execThimbleHeartbeat s) := by
  exact nextInv_next (by simp (maxDischargeDepth := 60) +contextual only [State.incr_inv, State.timer_inv, ite_inv, hI])

theorem execLockstepMismatch_inv (s : State)
    (hI : s.Inv) : nextInv (execLockstepMismatch s) := by
  exact nextInv_next (by simp (maxDischargeDepth := 60) +contextual only [State.wrN_inv, State.setB_inv, State.raise_inv, hI])

theorem execThimbleWatchdogExpiry_inv (s : State)
    (hI : s.Inv) : nextInv (execThimbleWatchdogExpiry s) := by
  exact nextInv_next (by simp (maxDischargeDepth := 60) +contextual only [State.setB_inv, State.raise_inv, hI])

end Sys2Proof.Machine
end

