-- ==== Sys2Proof/Laws/InvCells.lean ====
section
/-!
SUPPORT. The canonical forms (State.Inv): each operation and meaning of Machine/Cells.lean keeps them.
-/

namespace Sys2Proof.Machine

theorem State.setUp_inv (s : State) (id off n v : Nat)
    (hI : s.Inv) : (State.setUp s id off n v).Inv := by
  unfold State.setUp
  simp (maxDischargeDepth := 60) +contextual only [State.setMemN_inv, hI]

theorem State.latchPair_inv (s : State) (src dst inst : Nat)
    (hI : s.Inv) : (State.latchPair s src dst inst).Inv := by
  unfold State.latchPair
  simp (maxDischargeDepth := 60) +contextual only [State.count_inv, State.evt_inv, State.setMemN_inv, ite_inv, hI]

theorem State.latchRefs_inv (s : State)
    (hI : s.Inv) : (State.latchRefs s).Inv := by
  unfold State.latchRefs
  simp (maxDischargeDepth := 60) +contextual only [State.latchPair_inv, forN_inv, implies_true, hI]

end Sys2Proof.Machine
end

