-- ==== Sys2Proof/Laws/InvTatting.lean ====
section
/-!
SUPPORT. The canonical forms (State.Inv): each operation and meaning of Machine/Tatting.lean keeps them.
-/

namespace Sys2Proof.Machine

theorem State.updTatPhase_inv (s : State) (p : Nat) (f : TatPhase → TatPhase)
    (hI : s.Inv) : (State.updTatPhase s p f).Inv := by
  unfold State.updTatPhase
  simp (maxDischargeDepth := 60) +contextual only [State.updTat_inv, hI]

theorem State.updTatCell_inv (s : State) (id : Nat) (f : TatCell → TatCell)
    (hI : s.Inv) : (State.updTatCell s id f).Inv := by
  unfold State.updTatCell
  simp (maxDischargeDepth := 60) +contextual only [State.updTat_inv, hI]

theorem State.holdKey_inv (s : State) (p : Nat) (sign : Int) (signChanged : Bool) (old : List Nat) (id : Nat)
    (hI : s.Inv) : (State.holdKey s p sign signChanged old id).Inv := by
  unfold State.holdKey
  simp (maxDischargeDepth := 60) +contextual only [State.updTatCell_inv, ite_inv, hI]

theorem State.tatWatch_inv (s : State) (p id : Nat)
    (hI : s.Inv) : (State.tatWatch s p id).Inv := by
  unfold State.tatWatch
  simp (maxDischargeDepth := 60) +contextual only [State.updTatCell_inv, State.count_inv, State.evt_inv, State.setB_inv,
    State.setBit_inv, ite_inv, hI]

theorem State.setOfs_inv (s : State) (p : Nat) (sign : Int) (mean : Rat) (id : Nat)
    (hI : s.Inv) : (State.setOfs s p sign mean id).Inv := by
  unfold State.setOfs
  simp (maxDischargeDepth := 60) +contextual only [State.updTatCell_inv, State.count_inv, State.evt_inv, ite_inv, hI]

theorem State.setOffsets_inv (s : State) (p : Nat) (sign : Int) (members : List Nat)
    (hI : s.Inv) : (State.setOffsets s p sign members).Inv := by
  unfold State.setOffsets
  simp (maxDischargeDepth := 60) +contextual only [State.setOfs_inv, forL_inv, implies_true, hI]

theorem State.tatPhaseLatch_inv (s : State) (p thW : Nat)
    (hI : s.Inv) : (State.tatPhaseLatch s p thW).Inv := by
  unfold State.tatPhaseLatch
  simp (maxDischargeDepth := 60) +contextual only [State.updTatCell_inv, State.count_inv, State.evt_inv, State.holdKey_inv,
    State.tatWatch_inv, State.updTatPhase_inv, State.updTat_inv, State.setOffsets_inv, ite_inv, forL_inv, implies_true, hI]

theorem State.tatSample_inv (s : State)
    (hI : s.Inv) : (State.tatSample s).Inv := by
  unfold State.tatSample
  simp (maxDischargeDepth := 60) +contextual only [State.wrN_inv, forN_inv, implies_true, hI]

theorem State.tatLatch_inv (s : State) (thW : Nat)
    (hI : s.Inv) : (State.tatLatch s thW).Inv := by
  unfold State.tatLatch
  simp (maxDischargeDepth := 60) +contextual only [State.tatPhaseLatch_inv, State.tatSample_inv, forN_inv, implies_true, hI]

theorem State.tatClear_inv (s : State) (p : Nat)
    (hI : s.Inv) : (State.tatClear s p).Inv := by
  unfold State.tatClear
  simp (maxDischargeDepth := 60) +contextual only [State.updTatCell_inv, State.updTatPhase_inv, forL_inv, implies_true, hI]

theorem State.tatPublish_inv (s : State)
    (hI : s.Inv) : (State.tatPublish s).Inv := by
  unfold State.tatPublish
  simp (maxDischargeDepth := 60) +contextual only [State.setF_inv, State.wrN_inv, forN_inv, implies_true, hI]

theorem execRotatePoint_inv (phases : BitVec 3) (s : State)
    (hI : s.Inv) : nextInv (execRotatePoint phases s) := by
  exact nextInv_next (by simp (maxDischargeDepth := 60) +contextual only [State.updTatPhase_inv, ite_inv, forL_inv,
    implies_true, hI])

end Sys2Proof.Machine
end

