-- ==== Sys2Proof/Laws/InvStitch.lean ====
section
/-!
SUPPORT. The canonical forms (State.Inv): each operation and meaning of Machine/Stitch.lean keeps them.
-/

namespace Sys2Proof.Machine

theorem State.updStCell_inv (s : State) (id : Nat) (f : StCell → StCell)
    (hI : s.Inv) : (State.updStCell s id f).Inv := by
  unfold State.updStCell
  simp (maxDischargeDepth := 60) +contextual only [State.updStitch_inv, hI]

theorem State.updStPhase_inv (s : State) (p : Nat) (f : StPhase → StPhase)
    (hI : s.Inv) : (State.updStPhase s p f).Inv := by
  unfold State.updStPhase
  simp (maxDischargeDepth := 60) +contextual only [State.updStitch_inv, hI]

theorem State.pushEdge_inv (s : State) (w : Window) (id : Nat) (x : Rat) (legB lvl : Bool) (dph : Nat)
    (hI : s.Inv) : (State.pushEdge s w id x legB lvl dph).Inv := by
  unfold State.pushEdge
  simp (maxDischargeDepth := 60) +contextual only [State.updStCell_inv, State.count_inv, State.evt_inv, ite_inv, hI]

theorem State.settleEdges_inv (s : State) (w : Window) (id : Nat)
    (hI : s.Inv) : (State.settleEdges s w id).Inv := by
  unfold State.settleEdges
  simp (maxDischargeDepth := 60) +contextual only [State.updStCell_inv, State.count_inv, State.evt_inv, forN_inv,
    implies_true, hI]

theorem State.setCellSt_inv (s : State) (w : Window) (id : Nat) (x : Rat) (new : Int)
    (hI : s.Inv) : (State.setCellSt s w id x new).Inv := by
  unfold State.setCellSt
  simp (maxDischargeDepth := 60) +contextual only [State.updStCell_inv, State.pushEdge_inv, ite_inv, hI]

theorem State.enterMode_inv (s : State) (w : Window) (id m : Nat)
    (hI : s.Inv) : (State.enterMode s w id m).Inv := by
  unfold State.enterMode
  simp (maxDischargeDepth := 60) +contextual only [State.updStCell_inv, State.pushEdge_inv, State.setCellSt_inv, ite_inv, hI]

theorem State.pscRef_inv (s : State) (w : Window) (id : Nat) (raw : Int) (h : Rat)
    (hI : s.Inv) : (State.pscRef s w id raw h).2.Inv := by
  unfold State.pscRef
  simp (maxDischargeDepth := 60) +contextual only [State.count_inv, State.evt_inv, ite_inv_snd, hI]

theorem State.halfEdges_inv (s : State) (w : Window) (p id : Nat) (rise : Bool) (b e : Rat)
    (hI : s.Inv) : (State.halfEdges s w p id rise b e).Inv := by
  unfold State.halfEdges
  simp (maxDischargeDepth := 60) +contextual only [State.updStCell_inv, State.pscRef_inv, State.pushEdge_inv, ite_inv, hI]

theorem State.pscBoundary_inv (s : State) (w : Window) (p id : Nat)
    (hI : s.Inv) : (State.pscBoundary s w p id).Inv := by
  unfold State.pscBoundary
  simp (maxDischargeDepth := 60) +contextual only [State.updStCell_inv, State.pushEdge_inv, State.halfEdges_inv,
    State.updStPhase_inv, ite_inv, hI]

theorem State.pscRun_inv (w : Window) (p id : Nat) (a0 : Nat) (s : State)
    (hI : s.Inv) : (State.pscRun w p id a0 s).Inv := by
  induction a0 generalizing s with
  | zero => exact hI
  | succ n ih =>
    unfold State.pscRun
    simp (maxDischargeDepth := 60) +contextual only [State.pscBoundary_inv, ite_inv, ih, hI]

theorem State.pscEnter_inv (s : State) (w : Window) (p id : Nat)
    (hI : s.Inv) : (State.pscEnter s w p id).Inv := by
  unfold State.pscEnter
  simp (maxDischargeDepth := 60) +contextual only [State.updStCell_inv, State.pushEdge_inv, ite_inv, hI]

theorem State.pscAssign_inv (s : State) (p : Nat) (members : List Nat)
    (hI : s.Inv) : (State.pscAssign s p members).Inv := by
  unfold State.pscAssign
  simp (maxDischargeDepth := 60) +contextual only [State.updStCell_inv, forL_inv, implies_true, hI]

theorem State.pscLeave_inv (s : State) (id : Nat)
    (hI : s.Inv) : (State.pscLeave s id).Inv := by
  unfold State.pscLeave
  simp (maxDischargeDepth := 60) +contextual only [State.updStCell_inv, hI]

theorem State.pscPhase_inv (s : State) (w : Window) (p : Nat) (members : List Nat)
    (hI : s.Inv) : (State.pscPhase s w p members).Inv := by
  unfold State.pscPhase
  simp (maxDischargeDepth := 60) +contextual only [State.enterMode_inv, State.pscAssign_inv, State.count_inv, State.evt_inv,
    State.pscRun_inv, State.pscEnter_inv, ite_inv, forL_inv, implies_true, hI]

theorem State.applyLevel_inv (s : State) (w : Window) (order : List Nat) (x : Rat) (n : Int)
    (hI : s.Inv) : (State.applyLevel s w order x n).Inv := by
  unfold State.applyLevel
  simp (maxDischargeDepth := 60) +contextual only [State.setCellSt_inv, forL_inv, implies_true, hI]

theorem State.nlcPhase_inv (s : State) (w : Window) (p : Nat) (members : List Nat)
    (hI : s.Inv) : (State.nlcPhase s w p members).Inv := by
  unfold State.nlcPhase
  simp (maxDischargeDepth := 60) +contextual only [State.enterMode_inv, State.applyLevel_inv, State.updStPhase_inv,
    State.countN_inv, State.evt_inv, ite_inv, forL_inv, implies_true, hI]

theorem State.patAdopt_inv (s : State) (p id : Nat)
    (hI : s.Inv) : (State.patAdopt s p id).Inv := by
  unfold State.patAdopt
  dsimp only
  (repeat' split) <;> simp (maxDischargeDepth := 60) +contextual only [State.updStCell_inv, State.evt_inv, hI]

theorem State.patPiece_inv (s : State) (w : Window) (p lo hi id : Nat)
    (hI : s.Inv) : (State.patPiece s w p lo hi id).Inv := by
  unfold State.patPiece
  simp (maxDischargeDepth := 60) +contextual only [State.setCellSt_inv, ite_inv, forL_inv, implies_true, hI]

theorem State.patRun_inv (w : Window) (p : Nat) (members : List Nat) (a0 : Nat) (a1 : Nat) (s : State)
    (hI : s.Inv) : (State.patRun w p members a0 a1 s).Inv := by
  induction a0 generalizing a1 s with
  | zero => exact hI
  | succ n ih =>
    unfold State.patRun
    simp (maxDischargeDepth := 60) +contextual only [State.updStPhase_inv, State.patAdopt_inv, State.setCellSt_inv,
      State.patPiece_inv, ite_inv, forL_inv, implies_true, ih, hI]

theorem State.patPhase_inv (s : State) (w : Window) (p : Nat) (members : List Nat)
    (hI : s.Inv) : (State.patPhase s w p members).Inv := by
  unfold State.patPhase
  simp (maxDischargeDepth := 60) +contextual only [State.enterMode_inv, State.patRun_inv, forL_inv, implies_true, hI]

theorem State.stitchLeave_inv (s : State) (w : Window) (id : Nat)
    (hI : s.Inv) : (State.stitchLeave s w id).Inv := by
  unfold State.stitchLeave
  simp (maxDischargeDepth := 60) +contextual only [State.updStCell_inv, State.pscRun_inv, State.pscLeave_inv, ite_inv, hI]

theorem State.stitchPhase_inv (s : State) (w : Window) (p : Nat)
    (hI : s.Inv) : (State.stitchPhase s w p).Inv := by
  unfold State.stitchPhase
  simp (maxDischargeDepth := 60) +contextual only [State.stitchLeave_inv, State.updStPhase_inv, State.pscPhase_inv,
    State.nlcPhase_inv, State.patPhase_inv, State.settleEdges_inv, State.setF_inv, ite_inv, forL_inv, implies_true, hI]

theorem State.stitchStatus_inv (s : State)
    (hI : s.Inv) : (State.stitchStatus s).Inv := by
  unfold State.stitchStatus
  simp (maxDischargeDepth := 60) +contextual only [State.setBit_inv, forN_inv, implies_true, hI]

theorem State.pscAdopt_inv (s : State) (w : Window) (p id : Nat)
    (hI : s.Inv) : (State.pscAdopt s w p id).Inv := by
  unfold State.pscAdopt
  simp (maxDischargeDepth := 60) +contextual only [State.updStCell_inv, hI]

theorem State.stAdopt_inv (s : State) (id mode : Nat) (st : Int) (pat : List Nat)
    (hI : s.Inv) : (State.stAdopt s id mode st pat).Inv := by
  unfold State.stAdopt
  simp (maxDischargeDepth := 60) +contextual only [State.updStCell_inv, hI]

theorem State.stitchAdopt_inv (s : State) (w : Window) (p : Nat)
    (hI : s.Inv) : (State.stitchAdopt s w p).Inv := by
  unfold State.stitchAdopt
  simp (maxDischargeDepth := 60) +contextual only [State.updStPhase_inv, State.pscAdopt_inv, State.stAdopt_inv,
    State.patAdopt_inv, ite_inv, forL_inv, implies_true, hI]

theorem State.stitchNext_inv (s : State)
    (hI : s.Inv) : (State.stitchNext s).Inv := by
  unfold State.stitchNext
  (repeat' split) <;> simp (maxDischargeDepth := 60) +contextual only [State.unsched_inv, State.schedAt_inv, hI]

theorem State.stitchLatch_inv (s : State)
    (hI : s.Inv) : (State.stitchLatch s).Inv := by
  unfold State.stitchLatch
  simp (maxDischargeDepth := 60) +contextual only [State.latchRefs_inv, State.tatLatch_inv, State.stitchPhase_inv,
    State.stitchLeave_inv, State.settleEdges_inv, State.stitchStatus_inv, State.updStitch_inv, State.setF_inv,
    State.setB_inv, State.sched_inv, State.stitchNext_inv, ite_inv, forL_inv, forN_inv, implies_true, hI]

theorem State.stitchWrite_inv (s : State)
    (hI : s.Inv) : (State.stitchWrite s).Inv := by
  unfold State.stitchWrite
  simp (maxDischargeDepth := 60) +contextual only [State.setMemBytes_inv, State.updStitch_inv, State.setB_inv,
    State.stitchNext_inv, forL_inv, implies_true, hI]

theorem State.stitchCheck_inv (s : State) (mask : Nat)
    (hI : s.Inv) : (State.stitchCheck s mask).Inv := by
  unfold State.stitchCheck
  simp (maxDischargeDepth := 60) +contextual only [State.wrN_inv, State.setBit_inv, State.evt_inv, ite_inv, forL_inv,
    implies_true, hI]

theorem State.stitchCtrl_inv (s : State) (w : Nat)
    (hI : s.Inv) : (State.stitchCtrl s w).Inv := by
  unfold State.stitchCtrl
  simp (maxDischargeDepth := 60) +contextual only [State.wrN_inv, State.setBit_inv, State.tatClear_inv, State.updStPhase_inv,
    State.stitchCheck_inv, ite_inv, forL_inv, implies_true, hI]

theorem execStitchPhaseEnable_inv (m : Master) (mask : BitVec 3) (s : State)
    (hI : s.Inv) : nextInv (execStitchPhaseEnable m mask s) := by
  exact nextInv_next (by simp (maxDischargeDepth := 60) +contextual only [State.gate_inv, State.stitchCtrl_inv, implies_true,
    hI])

theorem execStitchPhaseDisable_inv (m : Master) (mask : BitVec 3) (s : State)
    (hI : s.Inv) : nextInv (execStitchPhaseDisable m mask s) := by
  exact nextInv_next (by simp (maxDischargeDepth := 60) +contextual only [State.gate_inv, State.stitchCtrl_inv, implies_true,
    hI])

theorem State.stitchRefuse_inv (s : State)
    (hI : s.Inv) : (State.stitchRefuse s).Inv := by
  unfold State.stitchRefuse
  simp (maxDischargeDepth := 60) +contextual only [State.evt_inv, hI]

theorem State.stitchLocked_inv (s : State) (a : Nat) (mask w : Nat)
    (hI : s.Inv) : (State.stitchLocked s a mask w).Inv := by
  unfold State.stitchLocked
  simp (maxDischargeDepth := 60) +contextual only [State.wrN_inv, State.stitchRefuse_inv, ite_inv, hI]

theorem State.phCfg_inv (s : State) (p w : Nat)
    (hI : s.Inv) : (State.phCfg s p w).Inv := by
  unfold State.phCfg
  simp (maxDischargeDepth := 60) +contextual only [State.wrN_inv, State.stitchRefuse_inv, ite_inv, hI]

end Sys2Proof.Machine
end

