-- ==== Sys2Proof/Laws/InvAge.lean ====
section
/-!
SUPPORT. The canonical forms (State.Inv): each operation and meaning of Machine/Age.lean keeps them.
-/

namespace Sys2Proof.Machine

theorem State.evtAge_inv (s : State) (f : Fld) (inst : Nat)
    (hI : s.Inv) : (State.evtAge s f inst).Inv := by
  unfold State.evtAge
  simp (maxDischargeDepth := 60) +contextual only [State.evt_inv, hI]

theorem State.setAgeRec_inv (s : State) (id : Nat) (r : Option AgeRec)
    (hI : s.Inv) : (State.setAgeRec s id r).Inv := by
  unfold State.setAgeRec
  simp (maxDischargeDepth := 60) +contextual only [State.updAge_inv, State.setB_inv, hI]

theorem State.ageRecord_inv (s : State) (ty who : Nat) (a b : Nat)
    (hI : s.Inv) : (State.ageRecord s ty who a b).Inv := by
  unfold State.ageRecord
  simp (maxDischargeDepth := 60) +contextual only [State.ringPut_inv, State.updAge_inv, hI]

theorem State.ageRestart_inv (s : State) (id uid : Nat)
    (hI : s.Inv) : (State.ageRestart s id uid).Inv := by
  unfold State.ageRestart
  simp (maxDischargeDepth := 60) +contextual only [State.setAgeRec_inv, State.setF_inv, State.updTatCell_inv,
    State.evtAge_inv, State.ageRecord_inv, hI]

theorem State.ageUid_inv (s : State) (id uid : Nat)
    (hI : s.Inv) : (State.ageUid s id uid).Inv := by
  unfold State.ageUid
  (repeat' split) <;> simp (maxDischargeDepth := 60) +contextual only [State.ageRestart_inv, hI]

theorem State.ageLife_inv (s : State) (id : Nat)
    (hI : s.Inv) : (State.ageLife s id).Inv := by
  unfold State.ageLife
  (repeat' split) <;> simp (maxDischargeDepth := 60) +contextual only [State.setF_inv, State.updTatCell_inv,
    State.setAgeRec_inv, State.evtAge_inv, ite_inv, hI]

theorem State.ageDerate_inv (s : State) (id : Nat)
    (hI : s.Inv) : (State.ageDerate s id).Inv := by
  unfold State.ageDerate
  simp (maxDischargeDepth := 60) +contextual only [State.updTatCell_inv, ite_inv, hI]

theorem State.probeFail_inv (s : State) (id : Nat)
    (hI : s.Inv) : (State.probeFail s id).Inv := by
  unfold State.probeFail
  simp (maxDischargeDepth := 60) +contextual only [State.count_inv, State.updAge_inv, State.setB_inv, State.evtAge_inv, hI]

theorem State.probeResult_inv (s : State) (id res : Nat)
    (hI : s.Inv) : (State.probeResult s id res).Inv := by
  unfold State.probeResult
  dsimp only
  (repeat' split) <;> simp (maxDischargeDepth := 60) +contextual only [State.probeFail_inv, State.updAge_inv, State.setB_inv,
    State.setAgeRec_inv, State.ageLife_inv, State.ageRecord_inv, hI]

theorem State.ageImage_inv (s : State) (id : Nat)
    (hI : s.Inv) : (State.ageImage s id).Inv := by
  unfold State.ageImage
  (repeat' split) <;> simp (maxDischargeDepth := 60) +contextual only [State.setAgeRec_inv, State.probeResult_inv, ite_inv, hI]

theorem State.ageProbe_inv (s : State) (target params : Nat)
    (hI : s.Inv) : (State.ageProbe s target params).Inv := by
  unfold State.ageProbe
  (repeat' split) <;> simp (maxDischargeDepth := 60) +contextual only [State.count_inv, State.evtAge_inv, State.updAge_inv, hI]

theorem State.placeProbes_inv (s : State)
    (hI : s.Inv) : (State.placeProbes s).Inv := by
  unfold State.placeProbes
  simp (maxDischargeDepth := 60) +contextual only [State.updAge_inv, State.updCel_inv, State.setB_inv, State.count_inv,
    State.evtAge_inv, ite_inv, forL_inv, implies_true, hI]

theorem State.probeCycle_inv (s : State)
    (hI : s.Inv) : (State.probeCycle s).Inv := by
  unfold State.probeCycle
  refine forL_inv _ _ (fun x t ht => ?_) hI
  (repeat' split) <;> simp (maxDischargeDepth := 60) +contextual only [State.updAge_inv, State.sched_inv, ht]

theorem State.setSaving_inv (s : State) (x : Option SaveRun)
    (hI : s.Inv) : (State.setSaving s x).Inv := by
  unfold State.setSaving
  simp (maxDischargeDepth := 60) +contextual only [State.updAge_inv, State.setB_inv, hI]

theorem State.ageSave_inv (s : State)
    (hI : s.Inv) : (State.ageSave s).Inv := by
  unfold State.ageSave
  simp (maxDischargeDepth := 60) +contextual only [State.evtAge_inv, State.updAge_inv, State.setSaving_inv, ite_inv, hI]

theorem State.saveTick_inv (s : State)
    (hI : s.Inv) : (State.saveTick s).Inv := by
  unfold State.saveTick
  (repeat' split) <;> simp (maxDischargeDepth := 60) +contextual only [State.wrN_inv, State.setSaving_inv, State.evtAge_inv,
    State.updAge_inv, ite_inv, hI]

theorem State.saveScan_inv (s : State)
    (hI : s.Inv) : (State.saveScan s).Inv := by
  unfold State.saveScan
  simp (maxDischargeDepth := 60) +contextual only [State.countN_inv, State.evt_inv, ite_inv, hI]

theorem State.ageRestore_inv (s : State)
    (hI : s.Inv) : (State.ageRestore s).Inv := by
  unfold State.ageRestore
  dsimp only
  (repeat' split) <;> simp (maxDischargeDepth := 60) +contextual only [State.saveScan_inv, State.updAge_inv,
    State.setAgeRec_inv, State.setF_inv, State.updTatCell_inv, forL_inv, implies_true, hI]

theorem State.headroom_inv (s : State)
    (hI : s.Inv) : (State.headroom s).Inv := by
  unfold State.headroom
  split
  · refine forL_inv _ _ (fun x t ht => ?_) hI
    split <;> simp (maxDischargeDepth := 60) +contextual only [State.updTatCell_inv, State.evtThm_inv, ht]
  · exact hI

end Sys2Proof.Machine
end

