-- ==== Sys2Proof/Laws/InvFrames.lean ====
section
/-!
SUPPORT. The canonical forms (State.Inv): each operation and meaning of Machine/Frames.lean keeps them.
-/

namespace Sys2Proof.Machine

theorem State.nextSeq_inv (s : State) (k : Nat)
    (hI : s.Inv) : (State.nextSeq s k).2.Inv := by
  unfold State.nextSeq
  simp (maxDischargeDepth := 60) +contextual only [State.updCel_inv, hI]

theorem State.seqTake_inv (s : State) (k seq : Nat)
    (hI : s.Inv) : (State.seqTake s k seq).Inv := by
  unfold State.seqTake
  simp (maxDischargeDepth := 60) +contextual only [State.updCel_inv, hI]

theorem State.updDly_inv (s : State) (id : Nat) (f : Dly → Dly)
    (hI : s.Inv) : (State.updDly s id f).Inv := by
  unfold State.updDly
  simp (maxDischargeDepth := 60) +contextual only [State.updCel_inv, hI]

theorem State.txFill_inv (s : State) (i : TxItem)
    (hI : s.Inv) : (State.txFill s i).1.Inv := by
  unfold State.txFill
  (repeat' split) <;> simp (maxDischargeDepth := 60) +contextual only [State.updCel_inv, State.updDly_inv, State.updRdn_inv,
    State.wrN_inv, hI]

theorem State.txGo_inv (s : State) (l : Nat)
    (hI : s.Inv) : (State.txGo s l).Inv := by
  unfold State.txGo
  (repeat' split) <;> simp (maxDischargeDepth := 60) +contextual only [State.updLane_inv, State.txFill_inv, State.emit_inv, hI]

theorem State.sendOn_inv (s : State) (lane : Nat) (i : TxItem)
    (hI : s.Inv) : (State.sendOn s lane i).Inv := by
  unfold State.sendOn
  simp (maxDischargeDepth := 60) +contextual only [State.updLane_inv, State.txGo_inv, State.count_inv, ite_inv, hI]

theorem State.txFlush_inv (s : State) (l : Nat)
    (hI : s.Inv) : (State.txFlush s l).Inv := by
  unfold State.txFlush
  simp (maxDischargeDepth := 60) +contextual only [State.countN_inv, State.updLane_inv, hI]

theorem State.sendShuttle_inv (s : State) (lane ty cls : Nat) (stamp : TxStamp) (payload : List Byte)
    (hI : s.Inv) : (State.sendShuttle s lane ty cls stamp payload).Inv := by
  unfold State.sendShuttle
  simp (maxDischargeDepth := 60) +contextual only [State.nextSeq_inv, State.sendOn_inv, hI]

theorem State.sendTunnel_inv (s : State) (chain dir : Nat) (inner : List Byte)
    (hI : s.Inv) : (State.sendTunnel s chain dir inner).Inv := by
  unfold State.sendTunnel
  simp (maxDischargeDepth := 60) +contextual only [State.sendShuttle_inv, hI]

theorem State.sendChain_inv
    (s : State) (chain : Nat) (tunnel : Bool) (stamp : TxStamp) (ty dst flags seq : Nat) (payload : List Byte)
    (hI : s.Inv) : (State.sendChain s chain tunnel stamp ty dst flags seq payload).Inv := by
  unfold State.sendChain
  simp (maxDischargeDepth := 60) +contextual only [State.sendTunnel_inv, State.sendOn_inv, ite_inv, hI]

theorem State.sendNext_inv
    (s : State) (k chain : Nat) (tunnel : Bool) (stamp : TxStamp) (ty dst : Nat) (payload : List Byte)
    (hI : s.Inv) : (State.sendNext s k chain tunnel stamp ty dst payload).Inv := by
  unfold State.sendNext
  simp (maxDischargeDepth := 60) +contextual only [State.nextSeq_inv, State.sendChain_inv, hI]

theorem State.sendHbt_inv (s : State) (c : Nat)
    (hI : s.Inv) : (State.sendHbt s c).Inv := by
  unfold State.sendHbt
  simp (maxDischargeDepth := 60) +contextual only [State.sendNext_inv, ite_inv, hI]

end Sys2Proof.Machine
end

