-- ==== Sys2Proof/Laws/InvHenlink.lean ====
section
/-!
SUPPORT. The canonical forms (State.Inv): each operation and meaning of Machine/Henlink.lean keeps them.
-/

namespace Sys2Proof.Machine

theorem State.evtCel_inv (s : State) (f : Fld) (inst : Nat)
    (hI : s.Inv) : (State.evtCel s f inst).Inv := by
  unfold State.evtCel
  simp (maxDischargeDepth := 60) +contextual only [State.evt_inv, hI]

theorem State.celStatus_inv (s : State)
    (hI : s.Inv) : (State.celStatus s).Inv := by
  unfold State.celStatus
  simp (maxDischargeDepth := 60) +contextual only [State.setB_inv, State.updEnerg_inv, hI]

theorem State.setCstat_inv (s : State) (id st : Nat)
    (hI : s.Inv) : (State.setCstat s id st).Inv := by
  unfold State.setCstat
  simp (maxDischargeDepth := 60) +contextual only [State.setUp_inv, State.celStatus_inv, hI]

theorem State.celReport_inv (s : State) (tag cell kind status obj off cnt : Nat) (data : List Byte)
    (hI : s.Inv) : (State.celReport s tag cell kind status obj off cnt data).Inv := by
  unfold State.celReport
  simp (maxDischargeDepth := 60) +contextual only [State.ringPut_inv, hI]

theorem State.nakSend_inv (s : State) (c code : Nat) (hdr : List Byte)
    (hI : s.Inv) : (State.nakSend s c code hdr).Inv := by
  unfold State.nakSend
  simp (maxDischargeDepth := 60) +contextual only [State.updCel_inv, State.sendNext_inv, ite_inv, hI]

theorem State.violation_inv (s : State) (c code : Nat) (hdr : List Byte)
    (hI : s.Inv) : (State.violation s c code hdr).Inv := by
  unfold State.violation
  simp (maxDischargeDepth := 60) +contextual only [State.count_inv, State.evtCel_inv, State.nakSend_inv, ite_inv, hI]

theorem State.chainCheck_inv (s : State) (c : Nat) (l : List Byte)
    (hI : s.Inv) : (State.chainCheck s c l).1.Inv := by
  unfold State.chainCheck
  (repeat' split) <;> simp (maxDischargeDepth := 60) +contextual only [State.nakSend_inv, State.violation_inv, hI]

theorem State.mgmtAdd_inv (s : State) (m : Mgmt)
    (hI : s.Inv) : (State.mgmtAdd s m).Inv := by
  unfold State.mgmtAdd
  simp (maxDischargeDepth := 60) +contextual only [State.updCel_inv, hI]

theorem State.readIdent_inv (s : State) (id : Nat)
    (hI : s.Inv) : (State.readIdent s id).Inv := by
  unfold State.readIdent
  simp (maxDischargeDepth := 60) +contextual only [State.mgmtAdd_inv, ite_inv, hI]

theorem State.admitStart_inv (s : State) (id : Nat)
    (hI : s.Inv) : (State.admitStart s id).Inv := by
  unfold State.admitStart
  simp (maxDischargeDepth := 60) +contextual only [State.updCel_inv, State.updDly_inv, State.celStatus_inv, ite_inv, hI]

theorem State.identRead_inv (s : State) (id : Nat) (d : List Byte)
    (hI : s.Inv) : (State.identRead s id d).Inv := by
  unfold State.identRead
  simp (maxDischargeDepth := 60) +contextual only [State.ageUid_inv, State.admitStart_inv, State.setUp_inv,
    State.setCstat_inv, State.celReport_inv, State.evtCel_inv, ite_inv, hI]

theorem State.lostTimer_inv (s : State) (id : Nat)
    (hI : s.Inv) : (State.lostTimer s id).Inv := by
  unfold State.lostTimer
  simp (maxDischargeDepth := 60) +contextual only [State.unsched_inv, State.sched_inv, hI]

theorem State.delayTimer_inv (s : State) (id : Nat)
    (hI : s.Inv) : (State.delayTimer s id).Inv := by
  unfold State.delayTimer
  simp (maxDischargeDepth := 60) +contextual only [State.unsched_inv, State.sched_inv, hI]

theorem State.cellFound_inv (s : State) (id : Nat)
    (hI : s.Inv) : (State.cellFound s id).Inv := by
  unfold State.cellFound
  simp (maxDischargeDepth := 60) +contextual only [State.readIdent_inv, State.setCstat_inv, State.delayTimer_inv, hI]

theorem State.tripclrCheck_inv (s : State)
    (hI : s.Inv) : (State.tripclrCheck s).Inv := by
  unfold State.tripclrCheck
  simp (maxDischargeDepth := 60) +contextual only [State.setB_inv, ite_inv, hI]

theorem State.mgmtEnd_inv (s : State) (m : Mgmt) (nak : Bool) (status : Nat) (obj off cnt : Nat) (data : List Byte)
    (hI : s.Inv) : (State.mgmtEnd s m nak status obj off cnt data).Inv := by
  unfold State.mgmtEnd
  (repeat' split) <;> simp (maxDischargeDepth := 60) +contextual only [State.updCel_inv, State.celReport_inv,
    State.finish_inv, State.cellFound_inv, State.tripclrCheck_inv, State.identRead_inv, State.setCstat_inv,
    State.lostTimer_inv, State.updRdn_inv, State.celStatus_inv, ite_inv, hI]

theorem State.mgmtEndAll_inv (s : State) (m : Mgmt)
    (hI : s.Inv) : (State.mgmtEndAll s m).Inv := by
  unfold State.mgmtEndAll
  (repeat' split) <;> simp (maxDischargeDepth := 60) +contextual only [State.updCel_inv, State.finish_inv, hI]

theorem State.mgmtExpire_inv (s : State) (m : Mgmt)
    (hI : s.Inv) : (State.mgmtExpire s m).Inv := by
  unfold State.mgmtExpire
  (repeat' split) <;> simp (maxDischargeDepth := 60) +contextual only [State.celReport_inv, State.evtCel_inv,
    State.mgmtEndAll_inv, State.updCel_inv, State.finish_inv, State.tripclrCheck_inv, State.celStatus_inv, ite_inv, hI]

theorem State.mgmtSet_inv (s : State) (m m' : Mgmt)
    (hI : s.Inv) : (State.mgmtSet s m m').Inv := by
  unfold State.mgmtSet
  simp (maxDischargeDepth := 60) +contextual only [State.updCel_inv, hI]

theorem State.mgmtAgain_inv (s : State) (m : Mgmt) (retry : Bool)
    (hI : s.Inv) : (State.mgmtAgain s m retry).Inv := by
  unfold State.mgmtAgain
  simp (maxDischargeDepth := 60) +contextual only [State.mgmtSet_inv, State.mgmtExpire_inv, ite_inv, hI]

theorem State.mgmtSend_inv (s : State) (c : Nat)
    (hI : s.Inv) : (State.mgmtSend s c).Inv := by
  unfold State.mgmtSend
  (repeat' split) <;> simp (maxDischargeDepth := 60) +contextual only [State.nextSeq_inv, State.mgmtSet_inv,
    State.sendChain_inv, hI]

theorem State.mgmtRsp_inv (s : State) (c : Nat) (f : Frame)
    (hI : s.Inv) : (State.mgmtRsp s c f).Inv := by
  unfold State.mgmtRsp
  (repeat' split) <;> simp (maxDischargeDepth := 60) +contextual only [State.mgmtSet_inv, State.celReport_inv,
    State.mgmtEnd_inv, hI]

theorem State.delaySend_inv (s : State) (c : Nat)
    (hI : s.Inv) : (State.delaySend s c).Inv := by
  unfold State.delaySend
  (repeat' split) <;> simp (maxDischargeDepth := 60) +contextual only [State.updDly_inv, State.sendNext_inv, hI]

theorem State.setDelay_inv (s : State) (id : Nat) (d : Int)
    (hI : s.Inv) : (State.setDelay s id d).Inv := by
  unfold State.setDelay
  simp (maxDischargeDepth := 60) +contextual only [State.setUp_inv, State.updDly_inv, hI]

theorem State.delayRsp_inv (s : State) (f : Frame) (t4 : Nat)
    (hI : s.Inv) : (State.delayRsp s f t4).Inv := by
  unfold State.delayRsp
  dsimp only
  (repeat' split) <;> simp (maxDischargeDepth := 60) +contextual only [State.updDly_inv, State.setDelay_inv,
    State.mgmtAdd_inv, State.celStatus_inv, State.evtCel_inv, hI]

theorem State.nodeFault_inv (s : State) (id nstat nflt : Nat)
    (hI : s.Inv) : (State.nodeFault s id nstat nflt).Inv := by
  unfold State.nodeFault
  simp (maxDischargeDepth := 60) +contextual only [State.raiseD_inv, State.fltEnd_inv, ite_inv, hI]

theorem State.cellSeen_inv (s : State) (id st : Nat)
    (hI : s.Inv) : (State.cellSeen s id st).Inv := by
  unfold State.cellSeen
  simp (maxDischargeDepth := 60) +contextual only [State.setCstat_inv, State.evtCel_inv, State.cellFound_inv,
    State.lostTimer_inv, State.updCel_inv, ite_inv, hI]

theorem State.upFrame_inv (s : State) (f : Frame) (tunnel : Bool)
    (hI : s.Inv) : (State.upFrame s f tunnel).Inv := by
  unfold State.upFrame
  simp (maxDischargeDepth := 60) +contextual only [State.seqTake_inv, State.setMemBytes_inv, State.setUp_inv,
    State.count_inv, State.updCel_inv, State.nodeFault_inv, State.cellSeen_inv, State.ageImage_inv, ite_inv, hI]

theorem State.ageCells_inv (s : State)
    (hI : s.Inv) : (State.ageCells s).Inv := by
  unfold State.ageCells
  simp (maxDischargeDepth := 60) +contextual only [State.setUp_inv, forN_inv, implies_true, hI]

theorem State.nakFrame_inv (s : State) (c : Nat) (f : Frame)
    (hI : s.Inv) : (State.nakFrame s c f).Inv := by
  unfold State.nakFrame
  dsimp only
  (repeat' split) <;> simp (maxDischargeDepth := 60) +contextual only [State.seqTake_inv, State.updCel_inv,
    State.setCstat_inv, State.evtCel_inv, State.mgmtSet_inv, State.sched_inv, State.mgmtEnd_inv, hI]

theorem State.enumSend_inv (s : State) (c : Nat) (r : EnumRun)
    (hI : s.Inv) : (State.enumSend s c r).Inv := by
  unfold State.enumSend
  simp (maxDischargeDepth := 60) +contextual only [State.updCel_inv, State.sendNext_inv, hI]

theorem State.enumStart_inv (s : State) (fill : Bool) (c : Nat)
    (hI : s.Inv) : (State.enumStart s fill c).Inv := by
  unfold State.enumStart
  simp (maxDischargeDepth := 60) +contextual only [State.setUp_inv, State.unsched_inv, State.updCel_inv, State.enumSend_inv,
    ite_inv, forN_inv, implies_true, hI]

theorem State.enumGo_inv (s : State) (m : Master) (fill : Bool) (mask : Nat)
    (hI : s.Inv) : (State.enumGo s m fill mask).Inv := by
  unfold State.enumGo
  simp (maxDischargeDepth := 60) +contextual only [State.refuse_inv, State.updCel_inv, State.enumStart_inv,
    State.celStatus_inv, ite_inv, forL_inv, implies_true, hI]

theorem State.bringUpClaim_inv (s : State) (fill : Bool)
    (hI : s.Inv) : (State.bringUpClaim s fill).Inv := by
  unfold State.bringUpClaim
  simp (maxDischargeDepth := 60) +contextual only [State.evt_inv, State.updCel_inv, ite_inv, hI]

theorem State.enumReturn_inv (s : State) (c : Nat) (f : Frame)
    (hI : s.Inv) : (State.enumReturn s c f).Inv := by
  unfold State.enumReturn
  (repeat' split) <;> simp (maxDischargeDepth := 60) +contextual only [State.updCel_inv, State.setF_inv, State.setB_inv,
    State.evtCel_inv, State.cellFound_inv, State.celStatus_inv, State.bringUpClaim_inv, ite_inv, forL_inv, implies_true, hI]

theorem State.enumBreak_inv (s : State) (c : Nat)
    (hI : s.Inv) : (State.enumBreak s c).Inv := by
  unfold State.enumBreak
  (repeat' split) <;> simp (maxDischargeDepth := 60) +contextual only [State.updCel_inv, State.setB_inv, State.celStatus_inv,
    State.bringUpClaim_inv, hI]

theorem State.claimOn_inv (s : State) (e c : Nat)
    (hI : s.Inv) : (State.claimOn s e c).Inv := by
  unfold State.claimOn
  simp (maxDischargeDepth := 60) +contextual only [State.sendNext_inv, ite_inv, hI]

theorem State.claimSend_inv (s : State) (e : Nat) (slot : Bool)
    (hI : s.Inv) : (State.claimSend s e slot).Inv := by
  unfold State.claimSend
  simp (maxDischargeDepth := 60) +contextual only [State.wrN_inv, State.updCel_inv, State.claimOn_inv, State.celStatus_inv,
    forL_inv, implies_true, hI]

theorem State.seqForget_inv (s : State) (chains : List Nat)
    (hI : s.Inv) : (State.seqForget s chains).Inv := by
  unfold State.seqForget
  simp (maxDischargeDepth := 60) +contextual only [State.updCel_inv, hI]

theorem State.claimRsp_inv (s : State) (c : Nat) (f : Frame)
    (hI : s.Inv) : (State.claimRsp s c f).1.Inv := by
  unfold State.claimRsp
  simp (maxDischargeDepth := 60) +contextual only [State.updRdn_inv, State.updCel_inv, State.evtCel_inv, State.celStatus_inv,
    State.seqForget_inv, ite_inv_fst, hI]

theorem State.claimTake_inv (s : State)
    (hI : s.Inv) : (State.claimTake s).Inv := by
  unfold State.claimTake
  simp (maxDischargeDepth := 60) +contextual only [State.seqForget_inv, State.updCel_inv, State.evtCel_inv,
    State.admitStart_inv, State.celStatus_inv, forL_inv, implies_true, hI]

theorem State.downSend_inv (s : State) (id : Nat)
    (hI : s.Inv) : (State.downSend s id).Inv := by
  unfold State.downSend
  simp (maxDischargeDepth := 60) +contextual only [State.setMemN_inv, State.sendNext_inv, ite_inv, hI]

theorem State.stitchDone_inv (s : State)
    (hI : s.Inv) : (State.stitchDone s).Inv := by
  unfold State.stitchDone
  simp (maxDischargeDepth := 60) +contextual only [State.stitchWrite_inv, State.downSend_inv, State.updCel_inv, forL_inv,
    implies_true, hI]

theorem State.burst_inv (s : State) (c : Nat)
    (hI : s.Inv) : (State.burst s c).Inv := by
  unfold State.burst
  simp (maxDischargeDepth := 60) +contextual only [State.tripOn_inv, State.sendNext_inv, State.downSend_inv,
    State.sendHbt_inv, ite_inv, forL_inv, implies_true, hI]

theorem State.requests_inv (s : State) (c : Nat)
    (hI : s.Inv) : (State.requests s c).Inv := by
  unfold State.requests
  simp (maxDischargeDepth := 60) +contextual only [State.mgmtSend_inv, State.delaySend_inv, hI]

theorem State.enumSlot_inv (s : State) (c : Nat)
    (hI : s.Inv) : (State.enumSlot s c).Inv := by
  unfold State.enumSlot
  (repeat' split) <;> simp (maxDischargeDepth := 60) +contextual only [State.enumSend_inv, hI]

theorem State.slotTimers_inv (s : State)
    (hI : s.Inv) : (State.slotTimers s).Inv := by
  unfold State.slotTimers
  simp (maxDischargeDepth := 60) +contextual only [State.sched_inv, ite_inv, forL_inv, implies_true, hI]

theorem State.celCycle_inv (s : State)
    (hI : s.Inv) : (State.celCycle s).Inv := by
  unfold State.celCycle
  simp (maxDischargeDepth := 60) +contextual only [State.updCel_inv, State.slotTimers_inv, hI]

theorem State.requestSlot_inv (s : State)
    (hI : s.Inv) : (State.requestSlot s).Inv := by
  unfold State.requestSlot
  dsimp only
  (repeat' split) <;> simp (maxDischargeDepth := 60) +contextual only [State.requests_inv, State.claimSend_inv,
    State.enumSlot_inv, forL_inv, implies_true, hI]

theorem State.slotIdle_inv (s : State)
    (hI : s.Inv) : (State.slotIdle s).Inv := by
  unfold State.slotIdle
  simp (maxDischargeDepth := 60) +contextual only [State.unsched_inv, State.sched_inv, ite_inv, hI]

theorem State.departure_inv (s : State)
    (hI : s.Inv) : (State.departure s).Inv := by
  unfold State.departure
  simp (maxDischargeDepth := 60) +contextual only [State.stitchDone_inv, State.count_inv, State.raise_inv, State.burst_inv,
    State.updCel_inv, State.requestSlot_inv, State.celCycle_inv, State.slotIdle_inv, ite_inv, forL_inv, implies_true, hI]

theorem State.chainCheckRun_inv (s : State)
    (hI : s.Inv) : (State.chainCheckRun s).Inv := by
  unfold State.chainCheckRun
  simp (maxDischargeDepth := 60) +contextual only [State.setF_inv, State.setB_inv, State.evtCel_inv, ite_inv, forL_inv,
    implies_true, hI]

end Sys2Proof.Machine
end

