-- ==== Sys2Proof/Laws/InvRdn.lean ====
section
/-!
SUPPORT. The canonical forms (State.Inv): each operation and meaning of Machine/Rdn.lean keeps them.
-/

namespace Sys2Proof.Machine

theorem State.evtRdn_inv (s : State) (f : Fld)
    (hI : s.Inv) : (State.evtRdn s f).Inv := by
  unfold State.evtRdn
  simp (maxDischargeDepth := 60) +contextual only [State.evt_inv, hI]

theorem State.rdnRecord_inv (s : State) (ty detail data : Nat)
    (hI : s.Inv) : (State.rdnRecord s ty detail data).Inv := by
  unfold State.rdnRecord
  simp (maxDischargeDepth := 60) +contextual only [State.ringPut_inv, State.updRdn_inv, hI]

theorem State.rdnNote_inv (s : State)
    (hI : s.Inv) : (State.rdnNote s).Inv := by
  unfold State.rdnNote
  simp (maxDischargeDepth := 60) +contextual only [State.updRdn_inv, State.rdnRecord_inv, ite_inv, hI]

theorem State.legsOff_inv (s : State)
    (hI : s.Inv) : (State.legsOff s).Inv := by
  unfold State.legsOff
  simp (maxDischargeDepth := 60) +contextual only [State.legDisable_inv, forL_inv, implies_true, hI]

theorem State.holdEngines_inv (s : State) (b : Bool)
    (hI : s.Inv) : (State.holdEngines s b).Inv := by
  unfold State.holdEngines
  simp (maxDischargeDepth := 60) +contextual only [State.setB_inv, forN_inv, implies_true, hI]

theorem State.standDown_inv (s : State)
    (hI : s.Inv) : (State.standDown s).Inv := by
  unfold State.standDown
  simp (maxDischargeDepth := 60) +contextual only [State.updCel_inv, State.celStatus_inv, State.updStitch_inv,
    State.unsched_inv, State.setB_inv, hI]

theorem State.rdnEnter_inv (s : State) (st : Nat)
    (hI : s.Inv) : (State.rdnEnter s st).Inv := by
  unfold State.rdnEnter
  simp (maxDischargeDepth := 60) +contextual only [State.setF_inv, State.legsOff_inv, State.seqForget_inv,
    State.holdEngines_inv, State.setB_inv, State.updRdn_inv, State.unsched_inv, State.sched_inv, State.standDown_inv,
    State.rdnNote_inv, ite_inv, hI]

theorem State.coldEngines_inv (s : State)
    (hI : s.Inv) : (State.coldEngines s).Inv := by
  unfold State.coldEngines
  simp (maxDischargeDepth := 60) +contextual only [State.updSlot_inv, forN_inv, implies_true, hI]

theorem State.shuttleHbt_inv (s : State)
    (hI : s.Inv) : (State.shuttleHbt s).Inv := by
  unfold State.shuttleHbt
  simp (maxDischargeDepth := 60) +contextual only [State.sendShuttle_inv, State.updRdn_inv, ite_inv, forL_inv, implies_true, hI]

theorem State.pathSeen_inv (s : State) (f : Fld)
    (hI : s.Inv) : (State.pathSeen s f).Inv := by
  unfold State.pathSeen
  simp (maxDischargeDepth := 60) +contextual only [State.setB_inv, State.updRdn_inv, State.rdnRecord_inv, ite_inv, hI]

theorem State.setHeal_inv (s : State) (c : Nat) (b : Bool)
    (hI : s.Inv) : (State.setHeal s c b).Inv := by
  unfold State.setHeal
  simp (maxDischargeDepth := 60) +contextual only [State.setBit_inv, State.rdnRecord_inv, ite_inv, hI]

theorem State.healCheck_inv (s : State)
    (hI : s.Inv) : (State.healCheck s).Inv := by
  unfold State.healCheck
  simp (maxDischargeDepth := 60) +contextual only [State.setHeal_inv, ite_inv, forL_inv, implies_true, hI]

theorem State.pathLost_inv (s : State) (f : Fld)
    (hI : s.Inv) : (State.pathLost s f).Inv := by
  unfold State.pathLost
  simp (maxDischargeDepth := 60) +contextual only [State.setB_inv, State.count_inv, State.rdnRecord_inv, hI]

theorem State.lossEvent_inv (s : State)
    (hI : s.Inv) : (State.lossEvent s).Inv := by
  unfold State.lossEvent
  simp (maxDischargeDepth := 60) +contextual only [State.evtRdn_inv, State.updRdn_inv, State.healCheck_inv, ite_inv, hI]

theorem State.pathMisses_inv (s : State)
    (hI : s.Inv) : (State.pathMisses s).Inv := by
  unfold State.pathMisses
  simp (maxDischargeDepth := 60) +contextual only [State.updRdn_inv, State.pathLost_inv, State.lossEvent_inv,
    State.h0Enter_inv, ite_inv, hI]

theorem State.rdnClaim_inv (s : State)
    (hI : s.Inv) : (State.rdnClaim s).Inv := by
  unfold State.rdnClaim
  simp (maxDischargeDepth := 60) +contextual only [State.rdnEnter_inv, State.updCel_inv, State.updRdn_inv, State.evtRdn_inv,
    ite_inv, hI]

theorem State.fenceQuery_inv (s : State)
    (hI : s.Inv) : (State.fenceQuery s).Inv := by
  unfold State.fenceQuery
  simp (maxDischargeDepth := 60) +contextual only [State.updRdn_inv, State.updCel_inv, hI]

theorem State.ckptWrite_inv (s : State)
    (hI : s.Inv) : (State.ckptWrite s).Inv := by
  unfold State.ckptWrite
  simp (maxDischargeDepth := 60) +contextual only [State.setMemBytes_inv, hI]

theorem State.fenceEval_inv (s : State)
    (hI : s.Inv) : (State.fenceEval s).Inv := by
  unfold State.fenceEval
  dsimp only
  (repeat' split) <;> simp (maxDischargeDepth := 60) +contextual only [State.updRdn_inv, State.updCel_inv, State.setB_inv,
    State.evtRdn_inv, State.rdnRecord_inv, State.rdnEnter_inv, State.rdnClaim_inv, hI]

theorem State.fenceCycle_inv (s : State)
    (hI : s.Inv) : (State.fenceCycle s).Inv := by
  unfold State.fenceCycle
  simp (maxDischargeDepth := 60) +contextual only [State.fenceEval_inv, State.updRdn_inv, State.setB_inv, ite_inv, hI]

theorem State.snapTimer_inv (s : State)
    (hI : s.Inv) : (State.snapTimer s).Inv := by
  unfold State.snapTimer
  simp (maxDischargeDepth := 60) +contextual only [State.unsched_inv, State.sched_inv, hI]

theorem State.becomeActive_inv (s : State)
    (hI : s.Inv) : (State.becomeActive s).Inv := by
  unfold State.becomeActive
  simp (maxDischargeDepth := 60) +contextual only [State.rdnEnter_inv, State.coldEngines_inv, State.setB_inv,
    State.updRdn_inv, State.snapTimer_inv, State.thmTest_inv, ite_inv, hI]

theorem State.claimWon_inv (s : State) (won : List Nat) (gap : Nat)
    (hI : s.Inv) : (State.claimWon s won gap).Inv := by
  unfold State.claimWon
  simp (maxDischargeDepth := 60) +contextual only [State.evtRdn_inv, State.count_inv, State.wrN_inv, State.rdnRecord_inv,
    State.updRdn_inv, hI]

theorem State.claimFail_inv (s : State) (won lost : List Nat)
    (hI : s.Inv) : (State.claimFail s won lost).Inv := by
  unfold State.claimFail
  simp (maxDischargeDepth := 60) +contextual only [State.wrN_inv, State.evtRdn_inv, State.rdnRecord_inv, State.rdnEnter_inv,
    State.celStatus_inv, ite_inv, hI]

theorem State.claimResult_inv (s : State)
    (hI : s.Inv) : (State.claimResult s).Inv := by
  unfold State.claimResult
  simp (maxDischargeDepth := 60) +contextual only [State.claimTake_inv, State.claimWon_inv, State.becomeActive_inv,
    State.claimFail_inv, ite_inv, hI]

theorem State.reclaim_inv (s : State)
    (hI : s.Inv) : (State.reclaim s).Inv := by
  unfold State.reclaim
  simp (maxDischargeDepth := 60) +contextual only [State.celStatus_inv, State.claimOn_inv, ite_inv, forL_inv, implies_true, hI]

theorem State.demote_inv (s : State)
    (hI : s.Inv) : (State.demote s).Inv := by
  unfold State.demote
  simp (maxDischargeDepth := 60) +contextual only [State.evtRdn_inv, State.rdnEnter_inv, ite_inv, hI]

theorem State.hoAbandon_inv (s : State)
    (hI : s.Inv) : (State.hoAbandon s).Inv := by
  unfold State.hoAbandon
  simp (maxDischargeDepth := 60) +contextual only [State.unsched_inv, State.setB_inv, State.updRdn_inv, State.evtRdn_inv,
    State.rdnRecord_inv, hI]

theorem State.hoGrant_inv (s : State)
    (hI : s.Inv) : (State.hoGrant s).Inv := by
  unfold State.hoGrant
  simp (maxDischargeDepth := 60) +contextual only [State.updRdn_inv, State.sched_inv, ite_inv, hI]

theorem State.hoRequest_inv (s : State)
    (hI : s.Inv) : (State.hoRequest s).Inv := by
  unfold State.hoRequest
  simp (maxDischargeDepth := 60) +contextual only [State.updRdn_inv, State.hoGrant_inv, ite_inv, hI]

theorem State.hoArm_inv (s : State)
    (hI : s.Inv) : (State.hoArm s).Inv := by
  unfold State.hoArm
  simp (maxDischargeDepth := 60) +contextual only [State.setB_inv, State.updRdn_inv, State.rdnRecord_inv, State.sched_inv,
    ite_inv, hI]

theorem State.hoWatch_inv (s : State)
    (hI : s.Inv) : (State.hoWatch s).Inv := by
  unfold State.hoWatch
  simp (maxDischargeDepth := 60) +contextual only [State.hoAbandon_inv, ite_inv, hI]

theorem State.revertWatch_inv (s : State)
    (hI : s.Inv) : (State.revertWatch s).Inv := by
  unfold State.revertWatch
  simp (maxDischargeDepth := 60) +contextual only [State.updRdn_inv, State.sched_inv, State.unsched_inv, ite_inv, hI]

theorem State.hoCycle_inv (s : State)
    (hI : s.Inv) : (State.hoCycle s).Inv := by
  unfold State.hoCycle
  simp (maxDischargeDepth := 60) +contextual only [State.rdnEnter_inv, State.holdEngines_inv, State.updRdn_inv,
    State.legsOff_inv, State.sched_inv, State.becomeActive_inv, State.rdnRecord_inv, ite_inv, hI]

theorem State.loadBlock_inv (s : State) (b : List Byte)
    (hI : s.Inv) : (State.loadBlock s b).Inv := by
  unfold State.loadBlock
  simp (maxDischargeDepth := 60) +contextual only [State.setMemBytes_inv, State.updTatCell_inv, State.wrN_inv,
    State.updStPhase_inv, State.updTatPhase_inv, State.celStatus_inv, ite_inv, forN_inv, implies_true, hI]

theorem State.sendState_inv (s : State) (kind gen : Nat) (segs : List (Nat × List Byte))
    (hI : s.Inv) : (State.sendState s kind gen segs).Inv := by
  unfold State.sendState
  simp (maxDischargeDepth := 60) +contextual only [State.sendShuttle_inv, forL_inv, implies_true, hI]

theorem State.shuttleDrop_inv (s : State) (cls : Nat)
    (hI : s.Inv) : (State.shuttleDrop s cls).Inv := by
  unfold State.shuttleDrop
  simp (maxDischargeDepth := 60) +contextual only [State.updLane_inv, forL_inv, implies_true, hI]

theorem State.deltaAbandon_inv (s : State)
    (hI : s.Inv) : (State.deltaAbandon s).Inv := by
  unfold State.deltaAbandon
  simp (maxDischargeDepth := 60) +contextual only [State.shuttleDrop_inv, State.count_inv, ite_inv, hI]

theorem State.sendDelta_inv (s : State)
    (hI : s.Inv) : (State.sendDelta s).Inv := by
  unfold State.sendDelta
  simp (maxDischargeDepth := 60) +contextual only [State.deltaAbandon_inv, State.sendState_inv, ite_inv, hI]

theorem State.snapEnd_inv (s : State)
    (hI : s.Inv) : (State.snapEnd s).Inv := by
  unfold State.snapEnd
  simp (maxDischargeDepth := 60) +contextual only [State.updRdn_inv, State.wrN_inv, State.hoArm_inv, ite_inv, hI]

theorem State.sendSnapshot_inv (s : State)
    (hI : s.Inv) : (State.sendSnapshot s).Inv := by
  unfold State.sendSnapshot
  simp (maxDischargeDepth := 60) +contextual only [State.shuttleDrop_inv, State.updRdn_inv, State.sendState_inv,
    State.snapEnd_inv, hI]

theorem State.snapStart_inv (s : State)
    (hI : s.Inv) : (State.snapStart s).Inv := by
  unfold State.snapStart
  (repeat' split) <;> simp (maxDischargeDepth := 60) +contextual only [State.sendSnapshot_inv, State.evtRdn_inv, ite_inv, hI]

theorem State.stateOk_inv (s : State)
    (hI : s.Inv) : (State.stateOk s).Inv := by
  unfold State.stateOk
  simp (maxDischargeDepth := 60) +contextual only [State.setB_inv, ite_inv, hI]

theorem State.standbyDelays_inv (s : State)
    (hI : s.Inv) : (State.standbyDelays s).Inv := by
  unfold State.standbyDelays
  simp (maxDischargeDepth := 60) +contextual only [State.updDly_inv, State.delayTimer_inv, forL_inv, implies_true, hI]

theorem State.applyDelta_inv (s : State) (gen : Nat)
    (hI : s.Inv) : (State.applyDelta s gen).Inv := by
  unfold State.applyDelta
  simp (maxDischargeDepth := 60) +contextual only [State.loadBlock_inv, State.setMemBytes_inv, State.wrN_inv,
    State.updRdn_inv, State.standbyDelays_inv, State.stateOk_inv, forL_inv, implies_true, hI]

theorem State.snapSegment_inv (s : State) (last : Bool) (seg gen : Nat)
    (hI : s.Inv) : (State.snapSegment s last seg gen).Inv := by
  unfold State.snapSegment
  simp (maxDischargeDepth := 60) +contextual only [State.updRdn_inv, State.setB_inv, State.wrN_inv, State.stateOk_inv,
    ite_inv, hI]

theorem State.stateSegment_inv (s : State) (f : Frame)
    (hI : s.Inv) : (State.stateSegment s f).Inv := by
  unfold State.stateSegment
  simp (maxDischargeDepth := 60) +contextual only [State.setMemBytes_inv, State.snapSegment_inv, State.count_inv,
    State.updRdn_inv, State.applyDelta_inv, ite_inv, hI]

theorem State.carryLevels_inv (s : State) (gen : Nat)
    (hI : s.Inv) : (State.carryLevels s gen).Inv := by
  unfold State.carryLevels
  simp (maxDischargeDepth := 60) +contextual only [State.setMemN_inv, ite_inv, forN_inv, implies_true, hI]

theorem State.partnerRole_inv (s : State) (role epoch : Nat)
    (hI : s.Inv) : (State.partnerRole s role epoch).Inv := by
  unfold State.partnerRole
  simp (maxDischargeDepth := 60) +contextual only [State.updRdn_inv, State.rdnEnter_inv, State.demote_inv, ite_inv, hI]

theorem State.partnerState_inv (s : State) (epoch role hstat : Nat)
    (hI : s.Inv) : (State.partnerState s epoch role hstat).Inv := by
  unfold State.partnerState
  simp (maxDischargeDepth := 60) +contextual only [State.setF_inv, State.wrN_inv, hI]

theorem State.cfgCheck_inv (s : State) (hash : Nat) (unitB : Bool)
    (hI : s.Inv) : (State.cfgCheck s hash unitB).Inv := by
  unfold State.cfgCheck
  simp (maxDischargeDepth := 60) +contextual only [State.evtRdn_inv, State.setB_inv, State.stateOk_inv, ite_inv, hI]

theorem State.setCtofs_inv (s : State) (v : Int)
    (hI : s.Inv) : (State.setCtofs s v).Inv := by
  unfold State.setCtofs
  simp (maxDischargeDepth := 60) +contextual only [State.wrN_inv, hI]

theorem State.coastCtofs_inv (s : State)
    (hI : s.Inv) : (State.coastCtofs s).Inv := by
  unfold State.coastCtofs
  simp (maxDischargeDepth := 60) +contextual only [State.setCtofs_inv, State.updRdn_inv, ite_inv, hI]

theorem State.trackCtofs_inv (s : State) (pairTime : Nat) (frac : Nat)
    (hI : s.Inv) : (State.trackCtofs s pairTime frac).Inv := by
  unfold State.trackCtofs
  simp (maxDischargeDepth := 60) +contextual only [State.free_inv, State.setCtofs_inv, State.updRdn_inv, State.setB_inv,
    State.unsched_inv, State.sched_inv, ite_inv, hI]

theorem State.partnerCmd_inv (s : State) (hcmd : Nat)
    (hI : s.Inv) : (State.partnerCmd s hcmd).Inv := by
  unfold State.partnerCmd
  simp (maxDischargeDepth := 60) +contextual only [State.setF_inv, State.hoGrant_inv, State.setB_inv, State.updRdn_inv,
    State.rdnRecord_inv, State.unsched_inv, State.sched_inv, State.hoAbandon_inv, State.rdnClaim_inv, ite_inv, hI]

theorem State.shuttleCheck_inv (s : State) (ty : Nat) (lenOk : Nat → Bool) (l : List Byte)
    (hI : s.Inv) : (State.shuttleCheck s ty lenOk l).1.Inv := by
  unfold State.shuttleCheck
  (repeat' split) <;> simp (maxDischargeDepth := 60) +contextual only [State.count_inv, hI]

theorem State.shuttleHeartbeat_inv (s : State) (f : Frame) (frac : Nat)
    (hI : s.Inv) : (State.shuttleHeartbeat s f frac).Inv := by
  unfold State.shuttleHeartbeat
  simp (maxDischargeDepth := 60) +contextual only [State.updRdn_inv, State.pathSeen_inv, State.partnerState_inv,
    State.cfgCheck_inv, State.partnerRole_inv, State.trackCtofs_inv, State.h0Follow_inv, State.partnerCmd_inv, hI]

theorem State.joinCycle_inv (s : State)
    (hI : s.Inv) : (State.joinCycle s).Inv := by
  unfold State.joinCycle
  simp (maxDischargeDepth := 60) +contextual only [State.updRdn_inv, ite_inv, hI]

theorem State.silentCycle_inv (s : State)
    (hI : s.Inv) : (State.silentCycle s).Inv := by
  unfold State.silentCycle
  simp (maxDischargeDepth := 60) +contextual only [State.updRdn_inv, State.sched_inv, ite_inv, hI]

theorem State.rdnCycle_inv (s : State)
    (hI : s.Inv) : (State.rdnCycle s).Inv := by
  unfold State.rdnCycle
  simp (maxDischargeDepth := 60) +contextual only [State.hoCycle_inv, State.rdnNote_inv, State.shuttleHbt_inv,
    State.setF_inv, State.pathMisses_inv, State.coastCtofs_inv, State.joinCycle_inv, State.fenceCycle_inv, State.updRdn_inv,
    State.stateOk_inv, State.hoWatch_inv, State.revertWatch_inv, State.silentCycle_inv, ite_inv, hI]

theorem State.yieldPass_inv (s : State)
    (hI : s.Inv) : (State.yieldPass s).Inv := by
  unfold State.yieldPass
  simp (maxDischargeDepth := 60) +contextual only [State.updRdn_inv, State.rdnEnter_inv, ite_inv, hI]

theorem State.rdnRefs_inv (s : State)
    (hI : s.Inv) : (State.rdnRefs s).Inv := by
  unfold State.rdnRefs
  simp (maxDischargeDepth := 60) +contextual only [State.unsched_inv, State.updRdn_inv, State.shuttleHbt_inv,
    State.rdnRecord_inv, State.ckptWrite_inv, ite_inv, hI]

theorem State.healSync_inv (s : State)
    (hI : s.Inv) : (State.healSync s).Inv := by
  unfold State.healSync
  simp (maxDischargeDepth := 60) +contextual only [State.tripOn_inv, State.nextSeq_inv, State.sendOn_inv, State.updRdn_inv,
    ite_inv, forL_inv, implies_true, hI]

theorem State.standbySlot_inv (s : State)
    (hI : s.Inv) : (State.standbySlot s).Inv := by
  unfold State.standbySlot
  simp (maxDischargeDepth := 60) +contextual only [State.fenceQuery_inv, State.sendHbt_inv, State.requestSlot_inv,
    State.sched_inv, ite_inv, forL_inv, implies_true, hI]

theorem State.rxHeal_inv (s : State) (c : Nat) (f : Frame) (l : List Byte)
    (hI : s.Inv) : (State.rxHeal s c f l).Inv := by
  unfold State.rxHeal
  simp (maxDischargeDepth := 60) +contextual only [State.setHeal_inv, State.sendTunnel_inv, ite_inv, hI]

theorem State.rxChain_inv (s : State) (c ty : Nat) (node : Bool) (l : List Byte) (h : Frame → State → State)
    (h_h : ∀ x0 t, t.Inv → (h x0 t).Inv) (hI : s.Inv) : (State.rxChain s c ty node l h).Inv := by
  unfold State.rxChain
  dsimp only
  (repeat' split) <;> simp (maxDischargeDepth := 60) +contextual only [State.eccMeet_inv, State.chainCheck_inv,
    State.rxHeal_inv, State.count_inv, hI, h_h]

theorem State.chainHbt_inv (s : State) (c : Nat) (f : Frame)
    (hI : s.Inv) : (State.chainHbt s c f).Inv := by
  unfold State.chainHbt
  simp (maxDischargeDepth := 60) +contextual only [State.seqTake_inv, State.updRdn_inv, State.pathSeen_inv,
    State.partnerState_inv, State.partnerRole_inv, ite_inv, hI]

theorem State.claimAnswer_inv (s : State) (c : Nat) (f : Frame)
    (hI : s.Inv) : (State.claimAnswer s c f).Inv := by
  unfold State.claimAnswer
  simp (maxDischargeDepth := 60) +contextual only [State.claimRsp_inv, State.demote_inv, ite_inv, hI]

theorem State.nakAnswer_inv (s : State) (c : Nat) (f : Frame)
    (hI : s.Inv) : (State.nakAnswer s c f).Inv := by
  unfold State.nakAnswer
  simp (maxDischargeDepth := 60) +contextual only [State.nakFrame_inv, State.demote_inv, ite_inv, hI]

theorem State.tunnelFrame_inv (s : State) (c : Nat) (l : List Byte)
    (hI : s.Inv) : (State.tunnelFrame s c l).Inv := by
  unfold State.tunnelFrame
  dsimp only
  (repeat' split) <;> simp (maxDischargeDepth := 60) +contextual only [State.chainCheck_inv, State.setHeal_inv,
    State.upFrame_inv, State.mgmtRsp_inv, State.claimAnswer_inv, State.nakAnswer_inv, hI]

end Sys2Proof.Machine
end

