-- ==== Sys2Proof/Laws/InvCelCmds.lean ====
section
/-!
SUPPORT. The canonical forms (State.Inv): each operation and meaning of Machine/CelCmds.lean keeps them.
-/

namespace Sys2Proof.Machine

theorem execUpFrameRx_inv (c : Fin 24) (f : List Byte) (s : State)
    (hI : s.Inv) : nextInv (execUpFrameRx c f s) := by
  exact nextInv_next (by simp (maxDischargeDepth := 60) +contextual only [State.rxChain_inv, State.upFrame_inv, implies_true,
    hI])

theorem execMgmtRspRx_inv (c : Fin 24) (f : List Byte) (s : State)
    (hI : s.Inv) : nextInv (execMgmtRspRx c f s) := by
  exact nextInv_next (by simp (maxDischargeDepth := 60) +contextual only [State.rxChain_inv, State.mgmtRsp_inv, implies_true,
    hI])

theorem execClaimRspRx_inv (c : Fin 24) (f : List Byte) (s : State)
    (hI : s.Inv) : nextInv (execClaimRspRx c f s) := by
  exact nextInv_next (by simp (maxDischargeDepth := 60) +contextual only [State.rxChain_inv, State.claimAnswer_inv,
    implies_true, hI])

theorem State.shuttleDelay_inv (s : State) (lane : Nat) (l : List Byte) (t4 : Nat)
    (hI : s.Inv) : (State.shuttleDelay s lane l t4).Inv := by
  unfold State.shuttleDelay
  dsimp only
  (repeat' split) <;> simp (maxDischargeDepth := 60) +contextual only [State.shuttleCheck_inv, State.wrN_inv,
    State.updRdn_inv, State.count_inv, hI]

theorem execDelayRspRx_inv (lane : Fin 26) (f : List Byte) (t4 : BitVec 64) (s : State)
    (hI : s.Inv) : nextInv (execDelayRspRx lane f t4 s) := by
  exact nextInv_next (by simp (maxDischargeDepth := 60) +contextual only [State.rxChain_inv, State.delayRsp_inv,
    State.shuttleDelay_inv, ite_inv, implies_true, hI])

theorem execNakRx_inv (c : Fin 24) (f : List Byte) (s : State)
    (hI : s.Inv) : nextInv (execNakRx c f s) := by
  exact nextInv_next (by simp (maxDischargeDepth := 60) +contextual only [State.rxChain_inv, State.nakAnswer_inv,
    implies_true, hI])

theorem execChainHbtRx_inv (c : Fin 24) (f : List Byte) (s : State)
    (hI : s.Inv) : nextInv (execChainHbtRx c f s) := by
  exact nextInv_next (by simp (maxDischargeDepth := 60) +contextual only [State.rxChain_inv, State.chainHbt_inv,
    implies_true, hI])

theorem execEnumReturn_inv (c : Fin 24) (f : List Byte) (s : State)
    (hI : s.Inv) : nextInv (execEnumReturn c f s) := by
  exact nextInv_next (by simp (maxDischargeDepth := 60) +contextual only [State.rxChain_inv, State.enumReturn_inv,
    implies_true, hI])

theorem State.enumFarEnd_inv (s : State) (c : Nat) (f : Frame)
    (hI : s.Inv) : (State.enumFarEnd s c f).Inv := by
  unfold State.enumFarEnd
  simp (maxDischargeDepth := 60) +contextual only [State.seqTake_inv, State.sendOn_inv, ite_inv, hI]

theorem execEnumFarEndRx_inv (c : Fin 24) (f : List Byte) (s : State)
    (hI : s.Inv) : nextInv (execEnumFarEndRx c f s) := by
  exact nextInv_next (by simp (maxDischargeDepth := 60) +contextual only [State.rxChain_inv, State.enumFarEnd_inv,
    implies_true, hI])

theorem State.fastTripRx_inv (s : State) (lane : Nat) (x : TripSet)
    (hI : s.Inv) : (State.fastTripRx s lane x).Inv := by
  unfold State.fastTripRx
  simp (maxDischargeDepth := 60) +contextual only [State.count_inv, State.evtCel_inv, State.tripOn_inv, ite_inv, forL_inv,
    implies_true, hI]

theorem execFastTripRx_inv (lane : Fin 26) (x : TripSet) (s : State)
    (hI : s.Inv) : nextInv (execFastTripRx lane x s) := by
  exact nextInv_next (by simp (maxDischargeDepth := 60) +contextual only [State.fastTripRx_inv, hI])

theorem State.mgmtOverdue_inv (s : State) (c : Nat)
    (hI : s.Inv) : (State.mgmtOverdue s c).Inv := by
  unfold State.mgmtOverdue
  (repeat' split) <;> simp (maxDischargeDepth := 60) +contextual only [State.mgmtExpire_inv, State.mgmtAgain_inv, hI]

theorem execMgmtTimeout_inv (c : Fin 24) (s : State)
    (hI : s.Inv) : nextInv (execMgmtTimeout c s) := by
  exact nextInv_next (by simp (maxDischargeDepth := 60) +contextual only [State.mgmtOverdue_inv, hI])

theorem State.mgmtBusy_inv (s : State) (cell : Nat)
    (hI : s.Inv) : (State.mgmtBusy s cell).Inv := by
  unfold State.mgmtBusy
  (repeat' split) <;> simp (maxDischargeDepth := 60) +contextual only [State.mgmtAgain_inv, hI]

theorem execMgmtBusyRetry_inv (cell : Fin 192) (s : State)
    (hI : s.Inv) : nextInv (execMgmtBusyRetry cell s) := by
  exact nextInv_next (by simp (maxDischargeDepth := 60) +contextual only [State.mgmtBusy_inv, hI])

theorem execDelayExchangePeriod_inv (cell : Fin 192) (s : State)
    (hI : s.Inv) : nextInv (execDelayExchangePeriod cell s) := by
  exact nextInv_next (by simp (maxDischargeDepth := 60) +contextual only [State.updDly_inv, State.delayTimer_inv, ite_inv, hI])

theorem State.cellLost_inv (s : State) (id : Nat)
    (hI : s.Inv) : (State.cellLost s id).Inv := by
  unfold State.cellLost
  simp (maxDischargeDepth := 60) +contextual only [State.setCstat_inv, State.evtCel_inv, ite_inv, hI]

theorem execCellLostTimeout_inv (cell : Fin 192) (s : State)
    (hI : s.Inv) : nextInv (execCellLostTimeout cell s) := by
  exact nextInv_next (by simp (maxDischargeDepth := 60) +contextual only [State.cellLost_inv, hI])

theorem execEnumAssign_inv (m : Master) (chains : BitVec 24) (s : State)
    (hI : s.Inv) : nextInv (execEnumAssign m chains s) := by
  exact nextInv_next (by simp (maxDischargeDepth := 60) +contextual only [State.gate_inv, State.enumGo_inv, implies_true, hI])

theorem execEnumFill_inv (m : Master) (chains : BitVec 24) (s : State)
    (hI : s.Inv) : nextInv (execEnumFill m chains s) := by
  exact nextInv_next (by simp (maxDischargeDepth := 60) +contextual only [State.gate_inv, State.enumGo_inv, implies_true, hI])

theorem State.fillPeriod_inv (s : State)
    (hI : s.Inv) : (State.fillPeriod s).Inv := by
  unfold State.fillPeriod
  simp (maxDischargeDepth := 60) +contextual only [State.enumGo_inv, State.timer_inv, ite_inv, hI]

theorem execEnumFillPeriodic_inv (s : State)
    (hI : s.Inv) : nextInv (execEnumFillPeriodic s) := by
  exact nextInv_next (by simp (maxDischargeDepth := 60) +contextual only [State.fillPeriod_inv, hI])

theorem execEnumBreakTimeout_inv (c : Fin 24) (s : State)
    (hI : s.Inv) : nextInv (execEnumBreakTimeout c s) := by
  exact nextInv_next (by simp (maxDischargeDepth := 60) +contextual only [State.enumBreak_inv, hI])

theorem State.cellSnapshot_inv (s : State) (target kind : Nat)
    (hI : s.Inv) : (State.cellSnapshot s target kind).Inv := by
  unfold State.cellSnapshot
  simp (maxDischargeDepth := 60) +contextual only [State.updCel_inv, forL_inv, implies_true, hI]

theorem execCellSnapshot_inv (target : BitVec 16) (kind : BitVec 7) (s : State)
    (hI : s.Inv) : nextInv (execCellSnapshot target kind s) := by
  exact nextInv_next (by simp (maxDischargeDepth := 60) +contextual only [State.cellSnapshot_inv, ite_inv, hI])

theorem execAgeProbe_inv (target : BitVec 16) (params : Word) (s : State)
    (hI : s.Inv) : nextInv (execAgeProbe target params s) := by
  exact nextInv_next (by simp (maxDischargeDepth := 60) +contextual only [State.ageProbe_inv, hI])

theorem State.tripclrStart_inv (s : State)
    (hI : s.Inv) : (State.tripclrStart s).Inv := by
  unfold State.tripclrStart
  simp (maxDischargeDepth := 60) +contextual only [State.mgmtAdd_inv, State.setB_inv, State.tripclrCheck_inv, forL_inv,
    implies_true, hI]

theorem State.releaseTripclr_inv (s : State) (m : Master) (key : Nat)
    (hI : s.Inv) : (State.releaseTripclr s m key).Inv := by
  unfold State.releaseTripclr
  simp (maxDischargeDepth := 60) +contextual only [State.fltRefuse_inv, State.tripclrStart_inv, ite_inv, hI]

theorem execFltReleaseTripclr_inv (m : Master) (key : BitVec 16) (s : State)
    (hI : s.Inv) : nextInv (execFltReleaseTripclr m key s) := by
  exact nextInv_next (by simp (maxDischargeDepth := 60) +contextual only [State.gate_inv, State.releaseTripclr_inv,
    implies_true, hI])

theorem State.fltRelease_inv (s : State) (m : Master) (w : Nat)
    (hI : s.Inv) : (State.fltRelease s m w).Inv := by
  unfold State.fltRelease
  simp (maxDischargeDepth := 60) +contextual only [State.fltRefuse_inv, State.releaseSafe_inv, State.releaseTripclr_inv,
    ite_inv, hI]

theorem State.cellMgmt_inv (s : State) (ring : Nat) (d : Desc) (c : Instr) (q : MgmtReq)
    (hI : s.Inv) : (State.cellMgmt s ring d c q).Inv := by
  unfold State.cellMgmt
  dsimp only
  (repeat' split) <;> simp (maxDischargeDepth := 60) +contextual only [State.cmdFetch_inv, State.finish_inv,
    State.mgmtAdd_inv, State.cmdLater_inv, hI]

theorem execCellMgmt_inv (ring : Fin 8) (d : Desc) (q : MgmtReq) (s : State)
    (hI : s.Inv) : nextInv (execCellMgmt ring d q s) := by
  exact nextInv_next (by simp (maxDischargeDepth := 60) +contextual only [State.cellMgmt_inv, hI])

theorem State.mapChanged_inv (s : State) (id : Nat)
    (hI : s.Inv) : (State.mapChanged s id).Inv := by
  unfold State.mapChanged
  simp (maxDischargeDepth := 60) +contextual only [State.cellFound_inv, State.celStatus_inv, ite_inv, hI]

theorem State.cellMapWrite_inv (s : State) (d : Desc) (first : Nat) (entries : List (List Byte))
    (hI : s.Inv) : (State.cellMapWrite s d first entries).1.Inv := by
  unfold State.cellMapWrite
  simp (maxDischargeDepth := 60) +contextual only [State.setMemBytes_inv, State.mapChanged_inv, ite_inv_fst, forL_inv,
    implies_true, hI]

theorem execCellmapWrite_inv (ring : Fin 8) (d : Desc) (first : Fin 256) (entries : List (List Byte)) (s : State)
    (hI : s.Inv) : nextInv (execCellmapWrite ring d first entries s) := by
  exact nextInv_next (by simp (maxDischargeDepth := 60) +contextual only [State.runCmd_inv, State.cellMapWrite_inv,
    implies_true, hI])

end Sys2Proof.Machine
end

