-- ==== Sys2Proof/Laws/InvRdnCmds.lean ====
section
/-!
SUPPORT. The canonical forms (State.Inv): each operation and meaning of Machine/RdnCmds.lean keeps them.
-/

namespace Sys2Proof.Machine

theorem State.rxShuttle_inv (s : State) (lane ty : Nat) (lenOk : Nat → Bool) (l : List Byte) (h : Frame → State → State)
    (h_h : ∀ x0 t, t.Inv → (h x0 t).Inv) (hI : s.Inv) : (State.rxShuttle s lane ty lenOk l h).Inv := by
  unfold State.rxShuttle
  dsimp only
  (repeat' split) <;> simp (maxDischargeDepth := 60) +contextual only [State.eccMeet_inv, State.shuttleCheck_inv,
    State.count_inv, hI, h_h]

theorem execShuttleHbtRx_inv (lane : Fin 26) (f : List Byte) (frac : BitVec 16) (s : State)
    (hI : s.Inv) : nextInv (execShuttleHbtRx lane f frac s) := by
  exact nextInv_next (by simp (maxDischargeDepth := 60) +contextual only [State.rxShuttle_inv, State.shuttleHeartbeat_inv,
    ite_inv, implies_true, hI])

theorem execStateSegmentRx_inv (f : List Byte) (s : State)
    (hI : s.Inv) : nextInv (execStateSegmentRx f s) := by
  exact nextInv_next (by simp (maxDischargeDepth := 60) +contextual only [State.rxShuttle_inv, State.stateSegment_inv,
    implies_true, hI])

theorem State.tunnelRx_inv (s : State) (f : Frame)
    (hI : s.Inv) : (State.tunnelRx s f).Inv := by
  unfold State.tunnelRx
  simp (maxDischargeDepth := 60) +contextual only [State.tunnelFrame_inv, State.sendOn_inv, State.updRdn_inv, ite_inv, hI]

theorem execTunnelRx_inv (f : List Byte) (s : State)
    (hI : s.Inv) : nextInv (execTunnelRx f s) := by
  exact nextInv_next (by simp (maxDischargeDepth := 60) +contextual only [State.rxShuttle_inv, State.tunnelRx_inv,
    implies_true, hI])

theorem State.shuttleDelayRsp_inv (s : State) (f : Frame) (t2 : Nat)
    (hI : s.Inv) : (State.shuttleDelayRsp s f t2).Inv := by
  unfold State.shuttleDelayRsp
  simp (maxDischargeDepth := 60) +contextual only [State.sendShuttle_inv, hI]

theorem execShuttleDelayReqRx_inv (f : List Byte) (t2 : BitVec 64) (s : State)
    (hI : s.Inv) : nextInv (execShuttleDelayReqRx f t2 s) := by
  exact nextInv_next (by simp (maxDischargeDepth := 60) +contextual only [State.rxShuttle_inv, State.shuttleDelayRsp_inv,
    implies_true, hI])

theorem State.shuttleDelayPeriod_inv (s : State)
    (hI : s.Inv) : (State.shuttleDelayPeriod s).Inv := by
  unfold State.shuttleDelayPeriod
  simp (maxDischargeDepth := 60) +contextual only [State.timer_inv, State.updRdn_inv, State.sendShuttle_inv, ite_inv, hI]

theorem execShuttleDelayPeriod_inv (s : State)
    (hI : s.Inv) : nextInv (execShuttleDelayPeriod s) := by
  exact nextInv_next (by simp (maxDischargeDepth := 60) +contextual only [State.shuttleDelayPeriod_inv, hI])

theorem State.rdnOn_inv (s : State)
    (hI : s.Inv) : (State.rdnOn s).Inv := by
  unfold State.rdnOn
  simp (maxDischargeDepth := 60) +contextual only [State.setB_inv, State.updRdn_inv, State.sched_inv, State.rdnEnter_inv,
    State.timer_inv, ite_inv, hI]

theorem State.rdnOff_inv (s : State)
    (hI : s.Inv) : (State.rdnOff s).Inv := by
  unfold State.rdnOff
  simp (maxDischargeDepth := 60) +contextual only [State.setB_inv, State.rdnEnter_inv, State.setCtofs_inv, State.updRdn_inv,
    State.setHeal_inv, State.stateOk_inv, forL_inv, implies_true, hI]

theorem State.rdnCtrl_inv (s : State) (m : Master) (w : Nat)
    (hI : s.Inv) : (State.rdnCtrl s m w).Inv := by
  unfold State.rdnCtrl
  simp (maxDischargeDepth := 60) +contextual only [State.refuse_inv, State.setB_inv, State.rdnOn_inv, State.rdnOff_inv,
    State.rdnClaim_inv, State.hoRequest_inv, State.hoAbandon_inv, ite_inv, hI]

theorem execRdnEnable_inv (m : Master) (s : State)
    (hI : s.Inv) : nextInv (execRdnEnable m s) := by
  exact nextInv_next (by simp (maxDischargeDepth := 60) +contextual only [State.gate_inv, State.rdnCtrl_inv, implies_true, hI])

theorem execRdnDisable_inv (m : Master) (s : State)
    (hI : s.Inv) : nextInv (execRdnDisable m s) := by
  exact nextInv_next (by simp (maxDischargeDepth := 60) +contextual only [State.gate_inv, State.rdnCtrl_inv, implies_true, hI])

theorem execRdnClaimgo_inv (m : Master) (s : State)
    (hI : s.Inv) : nextInv (execRdnClaimgo m s) := by
  exact nextInv_next (by simp (maxDischargeDepth := 60) +contextual only [State.gate_inv, State.rdnCtrl_inv, implies_true, hI])

theorem execRdnHoreq_inv (m : Master) (s : State)
    (hI : s.Inv) : nextInv (execRdnHoreq m s) := by
  exact nextInv_next (by simp (maxDischargeDepth := 60) +contextual only [State.gate_inv, State.rdnCtrl_inv, implies_true, hI])

theorem execRdnHoabort_inv (m : Master) (s : State)
    (hI : s.Inv) : nextInv (execRdnHoabort m s) := by
  exact nextInv_next (by simp (maxDischargeDepth := 60) +contextual only [State.gate_inv, State.rdnCtrl_inv, implies_true, hI])

theorem execClaimOutcome_inv (s : State)
    (hI : s.Inv) : nextInv (execClaimOutcome s) := by
  exact nextInv_next (by simp (maxDischargeDepth := 60) +contextual only [State.claimResult_inv, hI])

theorem execChainReclaim_inv (s : State)
    (hI : s.Inv) : nextInv (execChainReclaim s) := by
  exact nextInv_next (by simp (maxDischargeDepth := 60) +contextual only [State.reclaim_inv, ite_inv, hI])

theorem execHandoverPoint_inv (s : State)
    (hI : s.Inv) : nextInv (execHandoverPoint s) := by
  exact nextInv_next (by simp (maxDischargeDepth := 60) +contextual only [State.updRdn_inv, ite_inv, hI])

theorem State.revertNow_inv (s : State)
    (hI : s.Inv) : (State.revertNow s).Inv := by
  unfold State.revertNow
  simp (maxDischargeDepth := 60) +contextual only [State.updRdn_inv, State.hoRequest_inv, ite_inv, hI]

theorem execRevertTimerExpire_inv (s : State)
    (hI : s.Inv) : nextInv (execRevertTimerExpire s) := by
  exact nextInv_next (by simp (maxDischargeDepth := 60) +contextual only [State.revertNow_inv, hI])

theorem execHoarmTimeout_inv (s : State)
    (hI : s.Inv) : nextInv (execHoarmTimeout s) := by
  exact nextInv_next (by simp (maxDischargeDepth := 60) +contextual only [State.hoAbandon_inv, ite_inv, hI])

theorem State.handoverClaim_inv (s : State)
    (hI : s.Inv) : (State.handoverClaim s).Inv := by
  unfold State.handoverClaim
  simp (maxDischargeDepth := 60) +contextual only [State.rdnEnter_inv, State.updRdn_inv, State.claimSend_inv,
    State.updCel_inv, State.sched_inv, State.evtRdn_inv, ite_inv, hI]

theorem execHandoverClaim_inv (s : State)
    (hI : s.Inv) : nextInv (execHandoverClaim s) := by
  exact nextInv_next (by simp (maxDischargeDepth := 60) +contextual only [State.handoverClaim_inv, hI])

theorem State.handoffTimeout_inv (s : State)
    (hI : s.Inv) : (State.handoffTimeout s).Inv := by
  unfold State.handoffTimeout
  simp (maxDischargeDepth := 60) +contextual only [State.evtRdn_inv, State.rdnClaim_inv, State.rdnEnter_inv, ite_inv, hI]

theorem execHandoffTimeout_inv (s : State)
    (hI : s.Inv) : nextInv (execHandoffTimeout s) := by
  exact nextInv_next (by simp (maxDischargeDepth := 60) +contextual only [State.handoffTimeout_inv, hI])

theorem execCtlockTimeout_inv (s : State)
    (hI : s.Inv) : nextInv (execCtlockTimeout s) := by
  exact nextInv_next (by simp (maxDischargeDepth := 60) +contextual only [State.setB_inv, State.updRdn_inv, hI])

theorem State.snapshotPeriod_inv (s : State)
    (hI : s.Inv) : (State.snapshotPeriod s).Inv := by
  unfold State.snapshotPeriod
  simp (maxDischargeDepth := 60) +contextual only [State.snapTimer_inv, State.snapStart_inv, ite_inv, hI]

theorem execSnapshotPeriod_inv (s : State)
    (hI : s.Inv) : nextInv (execSnapshotPeriod s) := by
  exact nextInv_next (by simp (maxDischargeDepth := 60) +contextual only [State.snapshotPeriod_inv, hI])

theorem State.txSlotStep_inv (s : State)
    (hI : s.Inv) : (State.txSlotStep s).Inv := by
  unfold State.txSlotStep
  simp (maxDischargeDepth := 60) +contextual only [State.healSync_inv, State.updRdn_inv, State.standbySlot_inv, ite_inv, hI]

theorem execStandbyTxSlot_inv (s : State)
    (hI : s.Inv) : nextInv (execStandbyTxSlot s) := by
  exact nextInv_next (by simp (maxDischargeDepth := 60) +contextual only [State.txSlotStep_inv, hI])

theorem State.tileDone_inv (s : State) (fail : Bool)
    (hI : s.Inv) : (State.tileDone s fail).Inv := by
  unfold State.tileDone
  simp (maxDischargeDepth := 60) +contextual only [State.updRdn_inv, State.setB_inv, State.count_inv, State.evtRdn_inv,
    ite_inv, hI]

theorem execStandbyLbistTile_inv (fail : Bool) (s : State)
    (hI : s.Inv) : nextInv (execStandbyLbistTile fail s) := by
  exact nextInv_next (by simp (maxDischargeDepth := 60) +contextual only [State.tileDone_inv, hI])

theorem State.healthReport_inv (s : State)
    (hI : s.Inv) : (State.healthReport s).Inv := by
  unfold State.healthReport
  simp (maxDischargeDepth := 60) +contextual only [State.timer_inv, State.setB_inv, State.rdnRecord_inv, State.updRdn_inv,
    ite_inv, hI]

theorem execStandbyHealthReport_inv (s : State)
    (hI : s.Inv) : nextInv (execStandbyHealthReport s) := by
  exact nextInv_next (by simp (maxDischargeDepth := 60) +contextual only [State.healthReport_inv, hI])

end Sys2Proof.Machine
end

