-- ==== Sys2Proof/Laws/InvCycle.lean ====
section
/-!
SUPPORT. The canonical forms (State.Inv): each operation and meaning of Machine/Cycle.lean keeps them.
-/

namespace Sys2Proof.Machine

theorem State.runSet_inv (s : State) (m : Master)
    (hI : s.Inv) : (State.runSet s m).Inv := by
  unfold State.runSet
  simp (maxDischargeDepth := 60) +contextual only [State.refuse_inv, State.wrN_inv, State.stitchCheck_inv,
    State.chainCheckRun_inv, State.setB_inv, State.updCel_inv, ite_inv, hI]

theorem State.ctrlStop_inv (s : State)
    (hI : s.Inv) : (State.ctrlStop s).Inv := by
  unfold State.ctrlStop
  simp (maxDischargeDepth := 60) +contextual only [State.setB_inv, State.updCel_inv, State.updStitch_inv, State.unsched_inv,
    State.updHoop_inv, State.passTimer_inv, State.slotIdle_inv, ite_inv, hI]

theorem State.runClear_inv (s : State)
    (hI : s.Inv) : (State.runClear s).Inv := by
  unfold State.runClear
  simp (maxDischargeDepth := 60) +contextual only [State.orderlyStop_inv, State.ctrlStop_inv, State.setB_inv, ite_inv, hI]

theorem State.glbCtrl_inv (s : State) (m : Master) (w : Nat)
    (hI : s.Inv) : (State.glbCtrl s m w).Inv := by
  unfold State.glbCtrl
  simp (maxDischargeDepth := 60) +contextual only [State.setB_inv, State.updEnerg_inv, State.runSet_inv, State.runClear_inv,
    ite_inv, hI]

theorem execRunSet_inv (m : Master) (s : State)
    (hI : s.Inv) : nextInv (execRunSet m s) := by
  exact nextInv_next (by simp (maxDischargeDepth := 60) +contextual only [State.gate_inv, State.startGate_inv,
    State.glbCtrl_inv, implies_true, hI])

theorem execRunClear_inv (m : Master) (s : State)
    (hI : s.Inv) : nextInv (execRunClear m s) := by
  exact nextInv_next (by simp (maxDischargeDepth := 60) +contextual only [State.gate_inv, State.glbCtrl_inv, implies_true, hI])

theorem State.ctrlRunStart_inv (s : State)
    (hI : s.Inv) : (State.ctrlRunStart s).Inv := by
  unfold State.ctrlRunStart
  simp (maxDischargeDepth := 60) +contextual only [State.setB_inv, State.unsched_inv, State.sched_inv, State.updStitch_inv,
    State.fmaxWatch_inv, ite_inv, hI]

theorem execCtrlRunStart_inv (s : State)
    (hI : s.Inv) : nextInv (execCtrlRunStart s) := by
  exact nextInv_next (by simp (maxDischargeDepth := 60) +contextual only [State.ctrlRunStart_inv, hI])

theorem State.backupUpdate_inv (s : State)
    (hI : s.Inv) : (State.backupUpdate s).Inv := by
  unfold State.backupUpdate
  simp (maxDischargeDepth := 60) +contextual only [State.h0Backup_inv, hI]

theorem State.placeMarks_inv (s : State) (t : Nat)
    (hI : s.Inv) : (State.placeMarks s t).Inv := by
  unfold State.placeMarks
  simp (maxDischargeDepth := 60) +contextual only [State.sched_inv, ite_inv, hI]

theorem State.cycleBegin_inv (s : State)
    (hI : s.Inv) : (State.cycleBegin s).Inv := by
  unfold State.cycleBegin
  simp (maxDischargeDepth := 60) +contextual only [State.wrN_inv, State.incr_inv, State.updCel_inv, State.celCycle_inv,
    State.ageCells_inv, State.probeCycle_inv, State.rdnCycle_inv, State.backupUpdate_inv, State.prkPass_inv,
    State.placeMarks_inv, ite_inv, hI]

theorem State.cycleStart_inv (s : State)
    (hI : s.Inv) : (State.cycleStart s).Inv := by
  unfold State.cycleStart
  simp (maxDischargeDepth := 60) +contextual only [State.cycleBegin_inv, State.ctrlRunStart_inv, ite_inv, hI]

theorem execCycleStart_inv (s : State)
    (hI : s.Inv) : nextInv (execCycleStart s) := by
  exact nextInv_next (by simp (maxDischargeDepth := 60) +contextual only [State.cycleStart_inv, hI])

theorem State.firstLatch_inv (s : State)
    (hI : s.Inv) : (State.firstLatch s).Inv := by
  unfold State.firstLatch
  (repeat' split) <;> simp (maxDischargeDepth := 60) +contextual only [State.carryLevels_inv, State.updRdn_inv,
    State.stitchAdopt_inv, forN_inv, implies_true, hI]

theorem execStitchComputeDone_inv (s : State)
    (hI : s.Inv) : nextInv (execStitchComputeDone s) := by
  exact nextInv_next (by simp (maxDischargeDepth := 60) +contextual only [State.stitchDone_inv, ite_inv, hI])

theorem State.refsDue_inv (s : State)
    (hI : s.Inv) : (State.refsDue s).Inv := by
  unfold State.refsDue
  simp (maxDischargeDepth := 60) +contextual only [State.windowCheck_inv, State.firstLatch_inv, State.stitchLatch_inv,
    State.placeProbes_inv, State.rdnRefs_inv, ite_inv, hI]

theorem execRefsDue_inv (s : State)
    (hI : s.Inv) : nextInv (execRefsDue s) := by
  exact nextInv_next (by simp (maxDischargeDepth := 60) +contextual only [State.refsDue_inv, hI])

theorem execTattingPublish_inv (s : State)
    (hI : s.Inv) : nextInv (execTattingPublish s) := by
  exact nextInv_next (by simp (maxDischargeDepth := 60) +contextual only [State.tatPublish_inv, State.sendDelta_inv, ite_inv,
    hI])

theorem execDownDeparture_inv (s : State)
    (hI : s.Inv) : nextInv (execDownDeparture s) := by
  exact nextInv_next (by simp (maxDischargeDepth := 60) +contextual only [State.departure_inv, State.slotIdle_inv, ite_inv, hI])

theorem execOrderlyStopStack_inv (s : State)
    (hI : s.Inv) : nextInv (execOrderlyStopStack s) := by
  exact nextInv_next (by simp (maxDischargeDepth := 60) +contextual only [State.selvTrip_inv, ite_inv, hI])

theorem execOrderlyStopLegs_inv (s : State)
    (hI : s.Inv) : nextInv (execOrderlyStopLegs s) := by
  exact nextInv_next (by simp (maxDischargeDepth := 60) +contextual only [State.selvTrip_inv, ite_inv, hI])

theorem State.orderlyEnd_inv (s : State)
    (hI : s.Inv) : (State.orderlyEnd s).Inv := by
  unfold State.orderlyEnd
  simp (maxDischargeDepth := 60) +contextual only [State.ctrlStop_inv, State.setB_inv, State.thmLimit_inv,
    State.thmRecord_inv, ite_inv, hI]

theorem execOrderlyStopEnd_inv (s : State)
    (hI : s.Inv) : nextInv (execOrderlyStopEnd s) := by
  exact nextInv_next (by simp (maxDischargeDepth := 60) +contextual only [State.orderlyEnd_inv, hI])

theorem execDieSensorSample_inv (rs : List (BitVec 16)) (s : State)
    (hI : s.Inv) : nextInv (execDieSensorSample rs s) := by
  exact nextInv_next (by simp (maxDischargeDepth := 60) +contextual only [State.dieSample_inv, hI])

theorem execDiodeReading_inv (k : Fin 8) (bad : Bool) (t : BitVec 16) (s : State)
    (hI : s.Inv) : nextInv (execDiodeReading k bad t s) := by
  exact nextInv_next (by simp (maxDischargeDepth := 60) +contextual only [State.thmReading_inv, hI])

theorem execThrottleEvaluate_inv (s : State)
    (hI : s.Inv) : nextInv (execThrottleEvaluate s) := by
  exact nextInv_next (by simp (maxDischargeDepth := 60) +contextual only [State.thmEvaluate_inv, State.timer_inv, ite_inv, hI])

theorem execThmNstepWrite_inv (m : Master) (n : BitVec 4) (s : State)
    (hI : s.Inv) : nextInv (execThmNstepWrite m n s) := by
  exact nextInv_next (by simp (maxDischargeDepth := 60) +contextual only [State.gate_inv, State.thmNstep_inv, implies_true, hI])

theorem execThmAck_inv (m : Master) (s : State)
    (hI : s.Inv) : nextInv (execThmAck m s) := by
  exact nextInv_next (by simp (maxDischargeDepth := 60) +contextual only [State.gate_inv, State.thmAck_inv, implies_true, hI])

theorem execCellHeadroomUpdate_inv (s : State)
    (hI : s.Inv) : nextInv (execCellHeadroomUpdate s) := by
  exact nextInv_next (by simp (maxDischargeDepth := 60) +contextual only [State.headroom_inv, hI])

theorem State.dieTrip_inv (s : State)
    (hI : s.Inv) : (State.dieTrip s).Inv := by
  unfold State.dieTrip
  simp (maxDischargeDepth := 60) +contextual only [State.raise_inv, State.updThm_inv, State.setB_inv, State.setSelvLive_inv,
    State.selvDecide_inv, State.sched_inv, ite_inv, hI]

theorem execDieComparatorTrip_inv (s : State)
    (hI : s.Inv) : nextInv (execDieComparatorTrip s) := by
  exact nextInv_next (by simp (maxDischargeDepth := 60) +contextual only [State.dieTrip_inv, hI])

theorem execProbeTimeout_inv (cell : Fin 192) (s : State)
    (hI : s.Inv) : nextInv (execProbeTimeout cell s) := by
  unfold execProbeTimeout
  refine nextInv_next ?_
  (repeat' split) <;> simp (maxDischargeDepth := 60) +contextual only [State.probeFail_inv, hI]

theorem State.lifeUpdate_inv (s : State)
    (hI : s.Inv) : (State.lifeUpdate s).Inv := by
  unfold State.lifeUpdate
  simp (maxDischargeDepth := 60) +contextual only [State.timer_inv, State.setB_inv, State.ageLife_inv, State.ageDerate_inv,
    ite_inv, forN_inv, implies_true, hI]

theorem execAgeLifeUpdate_inv (s : State)
    (hI : s.Inv) : nextInv (execAgeLifeUpdate s) := by
  exact nextInv_next (by simp (maxDischargeDepth := 60) +contextual only [State.lifeUpdate_inv, hI])

theorem execAgeSave_inv (s : State)
    (hI : s.Inv) : nextInv (execAgeSave s) := by
  exact nextInv_next (by simp (maxDischargeDepth := 60) +contextual only [State.timer_inv, State.ageSave_inv, ite_inv, hI])

theorem execAgeReport_inv (s : State)
    (hI : s.Inv) : nextInv (execAgeReport s) := by
  exact nextInv_next (by simp (maxDischargeDepth := 60) +contextual only [State.ageRecord_inv, State.timer_inv, forL_inv,
    implies_true, hI])

theorem State.cellRst_inv (s : State) (w : Nat)
    (hI : s.Inv) : (State.cellRst s w).Inv := by
  unfold State.cellRst
  simp (maxDischargeDepth := 60) +contextual only [State.ageRestart_inv, ite_inv, hI]

theorem execAgeCellReset_inv (m : Master) (w : Word) (s : State)
    (hI : s.Inv) : nextInv (execAgeCellReset m w s) := by
  exact nextInv_next (by simp (maxDischargeDepth := 60) +contextual only [State.gate_inv, State.cellRst_inv, implies_true, hI])

theorem State.setVid_inv (s : State) (c slack : Nat)
    (hI : s.Inv) : (State.setVid s c slack).Inv := by
  unfold State.setVid
  simp (maxDischargeDepth := 60) +contextual only [State.setF_inv, State.evtAge_inv, State.ageRecord_inv, hI]

theorem State.pathRead_inv (s : State) (slacks : List Nat)
    (hI : s.Inv) : (State.pathRead s slacks).Inv := by
  unfold State.pathRead
  (repeat' split) <;> simp (maxDischargeDepth := 60) +contextual only [State.setF_inv, State.evtAge_inv, State.setVid_inv,
    ite_inv, hI]

theorem execPathMonitorRead_inv (slacks : List (BitVec 16)) (s : State)
    (hI : s.Inv) : nextInv (execPathMonitorRead slacks s) := by
  exact nextInv_next (by simp (maxDischargeDepth := 60) +contextual only [State.pathRead_inv, ite_inv, hI])

end Sys2Proof.Machine
end

