-- ==== Sys2Proof/Laws/InvLanes.lean ====
section
/-!
SUPPORT. The canonical forms (State.Inv): each operation and meaning of Machine/Lanes.lean keeps them.
-/

namespace Sys2Proof.Machine

theorem State.evtLnk_inv (s : State) (f : Fld) (l : Nat)
    (hI : s.Inv) : (State.evtLnk s f l).Inv := by
  unfold State.evtLnk
  simp (maxDischargeDepth := 60) +contextual only [State.evt_inv, hI]

theorem State.setLane_inv (s : State) (l st : Nat)
    (hI : s.Inv) : (State.setLane s l st).Inv := by
  unfold State.setLane
  simp (maxDischargeDepth := 60) +contextual only [State.setF_inv, State.celStatus_inv, State.healCheck_inv, hI]

theorem State.setPll_inv (s : State) (p : Nat) (b : Bool)
    (hI : s.Inv) : (State.setPll s p b).Inv := by
  unfold State.setPll
  simp (maxDischargeDepth := 60) +contextual only [State.updLnk_inv, State.setB_inv, forL_inv, implies_true, hI]

theorem State.pllCheck_inv (s : State) (p : Nat)
    (hI : s.Inv) : (State.pllCheck s p).Inv := by
  unfold State.pllCheck
  simp (maxDischargeDepth := 60) +contextual only [State.setPll_inv, hI]

theorem State.eyeAbort_inv (s : State) (l : Nat)
    (hI : s.Inv) : (State.eyeAbort s l).Inv := by
  unfold State.eyeAbort
  simp (maxDischargeDepth := 60) +contextual only [State.setB_inv, State.updAge_inv, ite_inv, hI]

theorem State.laneLeave_inv (s : State) (l : Nat)
    (hI : s.Inv) : (State.laneLeave s l).Inv := by
  unfold State.laneLeave
  simp (maxDischargeDepth := 60) +contextual only [State.unsched_inv, State.eyeAbort_inv, State.txFlush_inv, State.setB_inv,
    State.updLane_inv, hI]

theorem State.rxCut_inv (s : State) (l : Nat)
    (hI : s.Inv) : (State.rxCut s l).Inv := by
  unfold State.rxCut
  simp (maxDischargeDepth := 60) +contextual only [State.free_inv, State.countN_inv, ite_inv, hI]

theorem State.startTaps_inv (s : State) (l : Nat)
    (hI : s.Inv) : (State.startTaps s l).Inv := by
  unfold State.startTaps
  simp (maxDischargeDepth := 60) +contextual only [State.setF_inv, ite_inv, hI]

theorem State.laneLocked_inv (s : State) (l : Nat)
    (hI : s.Inv) : (State.laneLocked s l).Inv := by
  unfold State.laneLocked
  simp (maxDischargeDepth := 60) +contextual only [State.setLane_inv, ite_inv, hI]

theorem State.blindStart_inv (s : State) (l : Nat)
    (hI : s.Inv) : (State.blindStart s l).Inv := by
  unfold State.blindStart
  simp (maxDischargeDepth := 60) +contextual only [State.free_inv, State.laneLeave_inv, State.startTaps_inv,
    State.updLane_inv, State.setLane_inv, State.sched_inv, State.laneLocked_inv, hI]

theorem State.laneBackoff_inv (s : State) (l : Nat)
    (hI : s.Inv) : (State.laneBackoff s l).Inv := by
  unfold State.laneBackoff
  simp (maxDischargeDepth := 60) +contextual only [State.laneLeave_inv, State.count_inv, State.setLane_inv, State.sched_inv,
    State.evtLnk_inv, hI]

theorem State.laneEnable_inv (s : State) (l : Nat)
    (hI : s.Inv) : (State.laneEnable s l).Inv := by
  unfold State.laneEnable
  simp (maxDischargeDepth := 60) +contextual only [State.setB_inv, State.pllCheck_inv, State.blindStart_inv, ite_inv, hI]

theorem State.count48_inv (s : State) (lo hi n : Nat)
    (hI : s.Inv) : (State.count48 s lo hi n).Inv := by
  unfold State.count48
  simp (maxDischargeDepth := 60) +contextual only [State.wrN_inv, ite_inv, hI]

theorem State.prbsFold_inv (s : State) (l : Nat)
    (hI : s.Inv) : (State.prbsFold s l).Inv := by
  unfold State.prbsFold
  simp (maxDischargeDepth := 60) +contextual only [State.count48_inv, State.updLane_inv, ite_inv, hI]

theorem State.prbsUnlock_inv (s : State) (l : Nat)
    (hI : s.Inv) : (State.prbsUnlock s l).Inv := by
  unfold State.prbsUnlock
  simp (maxDischargeDepth := 60) +contextual only [State.prbsFold_inv, State.setB_inv, hI]

theorem State.laneDisable_inv (s : State) (l : Nat)
    (hI : s.Inv) : (State.laneDisable s l).Inv := by
  unfold State.laneDisable
  simp (maxDischargeDepth := 60) +contextual only [State.rxCut_inv, State.prbsUnlock_inv, State.laneLeave_inv,
    State.setB_inv, State.updLane_inv, State.setLane_inv, State.pllCheck_inv, ite_inv, hI]

theorem State.retrain_inv (s : State) (l : Nat)
    (hI : s.Inv) : (State.retrain s l).Inv := by
  unfold State.retrain
  simp (maxDischargeDepth := 60) +contextual only [State.laneLeave_inv, State.updLane_inv, State.setLane_inv,
    State.sched_inv, hI]

theorem State.laneRetrain_inv (s : State) (l : Nat)
    (hI : s.Inv) : (State.laneRetrain s l).Inv := by
  unfold State.laneRetrain
  simp (maxDischargeDepth := 60) +contextual only [State.retrain_inv, State.blindStart_inv, ite_inv, hI]

theorem State.lnkCtrl_inv (s : State) (l w : Nat)
    (hI : s.Inv) : (State.lnkCtrl s l w).Inv := by
  unfold State.lnkCtrl
  simp (maxDischargeDepth := 60) +contextual only [State.evtLnk_inv, State.setF_inv, State.wrN_inv, State.laneEnable_inv,
    State.laneDisable_inv, State.laneRetrain_inv, ite_inv, hI]

theorem State.signalLock_inv (s : State) (l : Nat)
    (hI : s.Inv) : (State.signalLock s l).Inv := by
  unfold State.signalLock
  simp (maxDischargeDepth := 60) +contextual only [State.setB_inv, State.laneLocked_inv, ite_inv, hI]

theorem State.laneAligned_inv (s : State) (l : Nat) (inverted : Bool)
    (hI : s.Inv) : (State.laneAligned s l inverted).Inv := by
  unfold State.laneAligned
  simp (maxDischargeDepth := 60) +contextual only [State.setB_inv, State.updLane_inv, State.setLane_inv, ite_inv, hI]

theorem State.linkLoss_inv (s : State) (l : Nat)
    (hI : s.Inv) : (State.linkLoss s l).Inv := by
  unfold State.linkLoss
  simp (maxDischargeDepth := 60) +contextual only [State.count_inv, State.evtLnk_inv, State.blindStart_inv,
    State.laneLeave_inv, State.setLane_inv, ite_inv, hI]

theorem State.laneLoss_inv (s : State) (l : Nat) (signal clock : Bool) (codes : Nat)
    (hI : s.Inv) : (State.laneLoss s l signal clock codes).Inv := by
  unfold State.laneLoss
  simp (maxDischargeDepth := 60) +contextual only [State.countN_inv, State.setB_inv, State.linkLoss_inv, State.unsched_inv,
    State.updLane_inv, State.setLane_inv, ite_inv, hI]

theorem State.lanePllLost_inv (s : State) (l : Nat)
    (hI : s.Inv) : (State.lanePllLost s l).Inv := by
  unfold State.lanePllLost
  simp (maxDischargeDepth := 60) +contextual only [State.rxCut_inv, State.prbsUnlock_inv, State.laneLeave_inv,
    State.setB_inv, State.updLane_inv, State.setLane_inv, State.evtLnk_inv, ite_inv, hI]

theorem State.pllLoss_inv (s : State) (p : Nat)
    (hI : s.Inv) : (State.pllLoss s p).Inv := by
  unfold State.pllLoss
  simp (maxDischargeDepth := 60) +contextual only [State.setPll_inv, State.setB_inv, State.lanePllLost_inv, ite_inv,
    forL_inv, implies_true, hI]

theorem State.laneClocked_inv (s : State) (l : Nat)
    (hI : s.Inv) : (State.laneClocked s l).Inv := by
  unfold State.laneClocked
  simp (maxDischargeDepth := 60) +contextual only [State.blindStart_inv, State.updLane_inv, State.laneLocked_inv, ite_inv, hI]

theorem State.pllLock_inv (s : State) (p : Nat)
    (hI : s.Inv) : (State.pllLock s p).Inv := by
  unfold State.pllLock
  simp (maxDischargeDepth := 60) +contextual only [State.laneClocked_inv, State.setPll_inv, ite_inv, forL_inv, implies_true, hI]

theorem State.lanesRestart_inv (s : State)
    (hI : s.Inv) : (State.lanesRestart s).Inv := by
  unfold State.lanesRestart
  simp (maxDischargeDepth := 60) +contextual only [State.laneDisable_inv, State.laneEnable_inv, ite_inv, forN_inv,
    implies_true, hI]

theorem State.linkCheck_inv (s : State) (l : Nat)
    (hI : s.Inv) : (State.linkCheck s l).Inv := by
  unfold State.linkCheck
  simp (maxDischargeDepth := 60) +contextual only [State.unsched_inv, State.sched_inv, State.schedAt_inv, ite_inv, hI]

theorem State.trainSend_inv (s : State) (l : Nat)
    (hI : s.Inv) : (State.trainSend s l).Inv := by
  unfold State.trainSend
  simp (maxDischargeDepth := 60) +contextual only [State.nextSeq_inv, State.updLane_inv, State.emit_inv, State.linkCheck_inv,
    hI]

theorem State.laneTx_inv (s : State) (l : Nat)
    (hI : s.Inv) : (State.laneTx s l).Inv := by
  unfold State.laneTx
  simp (maxDischargeDepth := 60) +contextual only [State.trainSend_inv, State.txGo_inv, ite_inv, hI]

theorem State.txPass_inv (s : State)
    (hI : s.Inv) : (State.txPass s).Inv := by
  unfold State.txPass
  simp (maxDischargeDepth := 60) +contextual only [State.laneTx_inv, State.snapEnd_inv, forL_inv, implies_true, hI]

theorem State.tuneCheck_inv (s : State) (l : Nat)
    (hI : s.Inv) : (State.tuneCheck s l).Inv := by
  unfold State.tuneCheck
  simp (maxDischargeDepth := 60) +contextual only [State.sched_inv, ite_inv, hI]

theorem State.trainTake_inv (s : State) (l : Nat) (p : Option (List Byte)) (eye : Nat)
    (hI : s.Inv) : (State.trainTake s l p eye).Inv := by
  unfold State.trainTake
  (repeat' split) <;> simp (maxDischargeDepth := 60) +contextual only [State.updLane_inv, State.setB_inv,
    State.tuneCheck_inv, State.laneBackoff_inv, State.linkCheck_inv, ite_inv, hI]

theorem State.trainFrame_inv (s : State) (l : Nat) (f : List Byte) (eye : Nat)
    (hI : s.Inv) : (State.trainFrame s l f eye).Inv := by
  unfold State.trainFrame
  (repeat' split) <;> simp (maxDischargeDepth := 60) +contextual only [State.violation_inv, State.count_inv,
    State.trainTake_inv, State.retrain_inv, State.evtLnk_inv, ite_inv, hI]

theorem State.tapUpdate_inv (s : State) (l : Nat)
    (hI : s.Inv) : (State.tapUpdate s l).Inv := by
  unfold State.tapUpdate
  simp (maxDischargeDepth := 60) +contextual only [State.setF_inv, State.updLane_inv, ite_inv, hI]

theorem State.ctleDone_inv (s : State) (l boost : Nat)
    (hI : s.Inv) : (State.ctleDone s l boost).Inv := by
  unfold State.ctleDone
  simp (maxDischargeDepth := 60) +contextual only [State.setF_inv, State.updLane_inv, ite_inv, hI]

theorem State.tuneEval_inv (s : State) (l : Nat)
    (hI : s.Inv) : (State.tuneEval s l).Inv := by
  unfold State.tuneEval
  simp (maxDischargeDepth := 60) +contextual only [State.updLane_inv, State.setB_inv, State.linkCheck_inv, ite_inv, hI]

theorem State.tuneRestart_inv (s : State) (l : Nat)
    (hI : s.Inv) : (State.tuneRestart s l).Inv := by
  unfold State.tuneRestart
  simp (maxDischargeDepth := 60) +contextual only [State.updLane_inv, ite_inv, hI]

theorem State.laneLinkUp_inv (s : State) (l : Nat)
    (hI : s.Inv) : (State.laneLinkUp s l).Inv := by
  unfold State.laneLinkUp
  simp (maxDischargeDepth := 60) +contextual only [State.unsched_inv, State.setF_inv, State.updDly_inv, State.updLane_inv,
    State.setLane_inv, ite_inv, forL_inv, implies_true, hI]

theorem State.prbsEnable_inv (s : State) (l : Nat)
    (hI : s.Inv) : (State.prbsEnable s l).Inv := by
  unfold State.prbsEnable
  simp (maxDischargeDepth := 60) +contextual only [State.setB_inv, State.laneLeave_inv, State.setLane_inv, State.evtLnk_inv,
    ite_inv, hI]

theorem State.prbsDisable_inv (s : State) (l : Nat)
    (hI : s.Inv) : (State.prbsDisable s l).Inv := by
  unfold State.prbsDisable
  simp (maxDischargeDepth := 60) +contextual only [State.setB_inv, State.prbsUnlock_inv, State.blindStart_inv, ite_inv, hI]

theorem State.prbsErrinj_inv (s : State) (l : Nat)
    (hI : s.Inv) : (State.prbsErrinj s l).Inv := by
  unfold State.prbsErrinj
  simp (maxDischargeDepth := 60) +contextual only [State.emit_inv, ite_inv, hI]

theorem State.lnkPrbs_inv (s : State) (l w : Nat)
    (hI : s.Inv) : (State.lnkPrbs s l w).Inv := by
  unfold State.lnkPrbs
  simp (maxDischargeDepth := 60) +contextual only [State.evtLnk_inv, State.prbsUnlock_inv, State.setF_inv, State.setB_inv,
    State.prbsEnable_inv, State.prbsDisable_inv, State.prbsErrinj_inv, ite_inv, hI]

theorem State.prbsLock_inv (s : State) (l : Nat)
    (hI : s.Inv) : (State.prbsLock s l).Inv := by
  unfold State.prbsLock
  simp (maxDischargeDepth := 60) +contextual only [State.setB_inv, State.updLane_inv, ite_inv, hI]

theorem State.prbsErrors_inv (s : State) (l n : Nat)
    (hI : s.Inv) : (State.prbsErrors s l n).Inv := by
  unfold State.prbsErrors
  simp (maxDischargeDepth := 60) +contextual only [State.prbsFold_inv, State.count48_inv, State.setB_inv, State.evtLnk_inv,
    ite_inv, hI]

theorem State.eyeStart_inv (s : State) (l : Nat)
    (hI : s.Inv) : (State.eyeStart s l).Inv := by
  unfold State.eyeStart
  simp (maxDischargeDepth := 60) +contextual only [State.setB_inv, State.updLane_inv, ite_inv, hI]

theorem State.ageEye_inv (s : State) (l height : Nat)
    (hI : s.Inv) : (State.ageEye s l height).Inv := by
  unfold State.ageEye
  simp (maxDischargeDepth := 60) +contextual only [State.updAge_inv, State.setB_inv, State.evtAge_inv, State.setF_inv,
    State.ageRecord_inv, ite_inv, hI]

theorem State.eyeDone_inv (s : State) (l height width : Nat)
    (hI : s.Inv) : (State.eyeDone s l height width).Inv := by
  unfold State.eyeDone
  simp (maxDischargeDepth := 60) +contextual only [State.setB_inv, State.setF_inv, State.ageEye_inv, ite_inv, hI]

theorem State.ageEyePeriod_inv (s : State)
    (hI : s.Inv) : (State.ageEyePeriod s).Inv := by
  unfold State.ageEyePeriod
  dsimp only
  (repeat' split) <;> simp (maxDischargeDepth := 60) +contextual only [State.timer_inv, State.eyeStart_inv, State.updAge_inv,
    State.setF_inv, State.setB_inv, hI]

theorem State.ctleTrack_inv (s : State) (l : Nat) (up : Bool)
    (hI : s.Inv) : (State.ctleTrack s l up).Inv := by
  unfold State.ctleTrack
  simp (maxDischargeDepth := 60) +contextual only [State.setF_inv, State.updLane_inv, ite_inv, hI]

theorem execLaneEnable_inv (m : Master) (lane : Fin 26) (s : State)
    (hI : s.Inv) : nextInv (execLaneEnable m lane s) := by
  exact nextInv_next (by simp (maxDischargeDepth := 60) +contextual only [State.gate_inv, State.startGate_inv,
    State.laneEnable_inv, implies_true, hI])

theorem execLaneDisable_inv (m : Master) (lane : Fin 26) (s : State)
    (hI : s.Inv) : nextInv (execLaneDisable m lane s) := by
  exact nextInv_next (by simp (maxDischargeDepth := 60) +contextual only [State.gate_inv, State.laneDisable_inv,
    implies_true, hI])

theorem execLaneSignalLock_inv (lane : Fin 26) (s : State)
    (hI : s.Inv) : nextInv (execLaneSignalLock lane s) := by
  exact nextInv_next (by simp (maxDischargeDepth := 60) +contextual only [State.signalLock_inv, hI])

theorem execLaneAligned_inv (lane : Fin 26) (inverted : Bool) (s : State)
    (hI : s.Inv) : nextInv (execLaneAligned lane inverted s) := by
  exact nextInv_next (by simp (maxDischargeDepth := 60) +contextual only [State.laneAligned_inv, hI])

theorem execTrainFrameRx_inv (lane : Fin 26) (head body : List Byte) (eye : Byte) (s : State)
    (hI : s.Inv) : nextInv (execTrainFrameRx lane head body eye s) := by
  exact nextInv_next (by simp (maxDischargeDepth := 60) +contextual only [State.trainFrame_inv, hI])

theorem execFfeTapUpdate_inv (lane : Fin 26) (s : State)
    (hI : s.Inv) : nextInv (execFfeTapUpdate lane s) := by
  exact nextInv_next (by simp (maxDischargeDepth := 60) +contextual only [State.tapUpdate_inv, hI])

theorem execTrainCtleDone_inv (lane : Fin 26) (boost : Fin 16) (s : State)
    (hI : s.Inv) : nextInv (execTrainCtleDone lane boost s) := by
  exact nextInv_next (by simp (maxDischargeDepth := 60) +contextual only [State.ctleDone_inv, hI])

theorem execTrainTuneEval_inv (lane : Fin 26) (s : State)
    (hI : s.Inv) : nextInv (execTrainTuneEval lane s) := by
  exact nextInv_next (by simp (maxDischargeDepth := 60) +contextual only [State.tuneEval_inv, hI])

theorem execTrainTuneRestart_inv (lane : Fin 26) (s : State)
    (hI : s.Inv) : nextInv (execTrainTuneRestart lane s) := by
  exact nextInv_next (by simp (maxDischargeDepth := 60) +contextual only [State.tuneRestart_inv, hI])

theorem execLaneLinkUp_inv (lane : Fin 26) (s : State)
    (hI : s.Inv) : nextInv (execLaneLinkUp lane s) := by
  exact nextInv_next (by simp (maxDischargeDepth := 60) +contextual only [State.laneLinkUp_inv, hI])

theorem State.trainTimeout_inv (s : State) (l : Nat)
    (hI : s.Inv) : (State.trainTimeout s l).Inv := by
  unfold State.trainTimeout
  simp (maxDischargeDepth := 60) +contextual only [State.laneBackoff_inv, ite_inv, hI]

theorem execLaneTrainTimeout_inv (lane : Fin 26) (s : State)
    (hI : s.Inv) : nextInv (execLaneTrainTimeout lane s) := by
  exact nextInv_next (by simp (maxDischargeDepth := 60) +contextual only [State.trainTimeout_inv, hI])

theorem execLaneLoss_inv (lane : Fin 26) (signal clock : Bool) (codes : Fin 17) (s : State)
    (hI : s.Inv) : nextInv (execLaneLoss lane signal clock codes s) := by
  exact nextInv_next (by simp (maxDischargeDepth := 60) +contextual only [State.laneLoss_inv, hI])

theorem execLaneBackoffEnd_inv (lane : Fin 26) (s : State)
    (hI : s.Inv) : nextInv (execLaneBackoffEnd lane s) := by
  exact nextInv_next (by simp (maxDischargeDepth := 60) +contextual only [State.blindStart_inv, ite_inv, hI])

theorem execLaneRetrain_inv (m : Master) (lane : Fin 26) (s : State)
    (hI : s.Inv) : nextInv (execLaneRetrain m lane s) := by
  exact nextInv_next (by simp (maxDischargeDepth := 60) +contextual only [State.gate_inv, State.laneRetrain_inv,
    implies_true, hI])

theorem execLanePllLoss_inv (pll : Fin 4) (s : State)
    (hI : s.Inv) : nextInv (execLanePllLoss pll s) := by
  exact nextInv_next (by simp (maxDischargeDepth := 60) +contextual only [State.pllLoss_inv, hI])

theorem execLanePllLock_inv (pll : Fin 4) (s : State)
    (hI : s.Inv) : nextInv (execLanePllLock pll s) := by
  exact nextInv_next (by simp (maxDischargeDepth := 60) +contextual only [State.pllLock_inv, hI])

theorem execLanePrbsEnable_inv (m : Master) (lane : Fin 26) (s : State)
    (hI : s.Inv) : nextInv (execLanePrbsEnable m lane s) := by
  exact nextInv_next (by simp (maxDischargeDepth := 60) +contextual only [State.gate_inv, State.prbsEnable_inv, implies_true,
    hI])

theorem execLanePrbsDisable_inv (m : Master) (lane : Fin 26) (s : State)
    (hI : s.Inv) : nextInv (execLanePrbsDisable m lane s) := by
  exact nextInv_next (by simp (maxDischargeDepth := 60) +contextual only [State.gate_inv, State.prbsDisable_inv,
    implies_true, hI])

theorem execPrbsErrinj_inv (m : Master) (lane : Fin 26) (s : State)
    (hI : s.Inv) : nextInv (execPrbsErrinj m lane s) := by
  exact nextInv_next (by simp (maxDischargeDepth := 60) +contextual only [State.gate_inv, State.prbsErrinj_inv, implies_true,
    hI])

theorem execPrbsCheckerLock_inv (lane : Fin 26) (s : State)
    (hI : s.Inv) : nextInv (execPrbsCheckerLock lane s) := by
  exact nextInv_next (by simp (maxDischargeDepth := 60) +contextual only [State.prbsLock_inv, hI])

theorem execPrbsCheckerLoss_inv (lane : Fin 26) (errs : Fin 65) (s : State)
    (hI : s.Inv) : nextInv (execPrbsCheckerLoss lane errs s) := by
  exact nextInv_next (by simp (maxDischargeDepth := 60) +contextual only [State.prbsErrors_inv, hI])

theorem execEyeScanStart_inv (m : Master) (lane : Fin 26) (s : State)
    (hI : s.Inv) : nextInv (execEyeScanStart m lane s) := by
  exact nextInv_next (by simp (maxDischargeDepth := 60) +contextual only [State.gate_inv, State.eyeStart_inv, implies_true, hI])

theorem execEyeScanDone_inv (lane : Fin 26) (height width : Fin 65) (s : State)
    (hI : s.Inv) : nextInv (execEyeScanDone lane height width s) := by
  exact nextInv_next (by simp (maxDischargeDepth := 60) +contextual only [State.eyeDone_inv, hI])

theorem execElasticRecenter_inv (lane : Fin 26) (s : State)
    (hI : s.Inv) : nextInv (execElasticRecenter lane s) := by
  exact nextInv_next (by simp (maxDischargeDepth := 60) +contextual only [State.count_inv, ite_inv, hI])

theorem execCtleTrackStep_inv (lane : Fin 26) (up : Bool) (s : State)
    (hI : s.Inv) : nextInv (execCtleTrackStep lane up s) := by
  exact nextInv_next (by simp (maxDischargeDepth := 60) +contextual only [State.ctleTrack_inv, hI])

theorem execAgeEyeScanPeriod_inv (s : State)
    (hI : s.Inv) : nextInv (execAgeEyeScanPeriod s) := by
  exact nextInv_next (by simp (maxDischargeDepth := 60) +contextual only [State.ageEyePeriod_inv, hI])

end Sys2Proof.Machine
end

