-- ==== Sys2Proof/Laws/InvAdc.lean ====
section
/-!
SUPPORT. The canonical forms (State.Inv): each operation and meaning of Machine/Adc.lean keeps them.
-/

namespace Sys2Proof.Machine

theorem State.evtAdc_inv (s : State) (f : Fld) (inst : Nat)
    (hI : s.Inv) : (State.evtAdc s f inst).Inv := by
  unfold State.evtAdc
  simp (maxDischargeDepth := 60) +contextual only [State.evt_inv, hI]

theorem State.updConv_inv (s : State) (n : Nat) (f : ConvSt → ConvSt)
    (hI : s.Inv) : (State.updConv s n f).Inv := by
  unfold State.updConv
  simp (maxDischargeDepth := 60) +contextual only [State.updAdc_inv, hI]

theorem State.startJob_inv (s : State) (n : Nat) (j : SarJob) (t : Nat)
    (hI : s.Inv) : (State.startJob s n j t).Inv := by
  unfold State.startJob
  simp (maxDischargeDepth := 60) +contextual only [State.updConv_inv, hI]

theorem State.bgStart_inv (s : State) (n : Nat)
    (hI : s.Inv) : (State.bgStart s n).Inv := by
  unfold State.bgStart
  (repeat' split) <;> simp (maxDischargeDepth := 60) +contextual only [State.startJob_inv, hI]

theorem State.sarTick_inv (s : State) (n : Nat)
    (hI : s.Inv) : (State.sarTick s n).Inv := by
  unfold State.sarTick
  simp (maxDischargeDepth := 60) +contextual only [State.updConv_inv, State.setF_inv, State.bgStart_inv, ite_inv, hI]

theorem State.bgAbort_inv (s : State) (n : Nat)
    (hI : s.Inv) : (State.bgAbort s n).Inv := by
  unfold State.bgAbort
  (repeat' split) <;> simp (maxDischargeDepth := 60) +contextual only [State.updConv_inv, State.count_inv, hI]

theorem State.seqStart_inv (s : State) (n t : Nat) (delayed : Bool)
    (hI : s.Inv) : (State.seqStart s n t delayed).Inv := by
  unfold State.seqStart
  simp (maxDischargeDepth := 60) +contextual only [State.setBit_inv, State.incr_inv, State.wrN_inv, State.setF_inv,
    State.setB_inv, State.updConv_inv, State.startJob_inv, forN_inv, implies_true, hI]

theorem State.seqDrop_inv (s : State) (n : Nat)
    (hI : s.Inv) : (State.seqDrop s n).Inv := by
  unfold State.seqDrop
  simp (maxDischargeDepth := 60) +contextual only [State.count_inv, State.evtAdc_inv, hI]

theorem State.seqTrig_inv (s : State) (n : Nat) (src : TrigSrc)
    (hI : s.Inv) : (State.seqTrig s n src).1.Inv := by
  unfold State.seqTrig
  (repeat' split) <;> simp (maxDischargeDepth := 60) +contextual only [State.setF_inv, State.setB_inv, State.bgAbort_inv,
    State.seqStart_inv, State.updConv_inv, State.seqDrop_inv, ite_inv_fst, hI]

theorem State.urgentReq_inv (s : State) (n input : Nat)
    (hI : s.Inv) : (State.urgentReq s n input).Inv := by
  unfold State.urgentReq
  simp (maxDischargeDepth := 60) +contextual only [State.bgAbort_inv, State.startJob_inv, State.count_inv, State.evtAdc_inv,
    ite_inv, hI]

theorem State.openRecov_inv (s : State) (n h : Nat) (far : Bool)
    (hI : s.Inv) : (State.openRecov s n h far).Inv := by
  unfold State.openRecov
  simp (maxDischargeDepth := 60) +contextual only [State.updConv_inv, ite_inv, hI]

theorem State.convOut_inv (s : State) (n : Nat) (j : SarJob) (ideal : Int)
    (hI : s.Inv) : (State.convOut s n j ideal).2.Inv := by
  unfold State.convOut
  simp (maxDischargeDepth := 60) +contextual only [State.updConv_inv, State.free_inv, State.openRecov_inv, State.setBit_inv,
    State.evtAdc_inv, ite_inv, ite_inv_snd, hI]

theorem State.angleEntry_inv (s : State) (n k : Nat)
    (hI : s.Inv) : (State.angleEntry s n k).Inv := by
  unfold State.angleEntry
  simp (maxDischargeDepth := 60) +contextual only [State.updH0_inv, State.updH1_inv, ite_inv, hI]

theorem State.seqNext_inv (s : State) (n k : Nat)
    (hI : s.Inv) : (State.seqNext s n k).Inv := by
  unfold State.seqNext
  simp (maxDischargeDepth := 60) +contextual only [State.updConv_inv, State.setF_inv, State.startJob_inv, State.seqStart_inv,
    ite_inv, hI]

theorem State.urgentNext_inv (s : State) (n : Nat)
    (hI : s.Inv) : (State.urgentNext s n).Inv := by
  unfold State.urgentNext
  simp (maxDischargeDepth := 60) +contextual only [State.updConv_inv, State.seqStart_inv, State.bgStart_inv, ite_inv, hI]

theorem State.roundCheck_inv (s : State)
    (hI : s.Inv) : (State.roundCheck s).Inv := by
  unfold State.roundCheck
  simp (maxDischargeDepth := 60) +contextual only [State.setB_inv, State.setF_inv, ite_inv, hI]

theorem State.testPoint_inv (s : State) (n p code : Nat)
    (hI : s.Inv) : (State.testPoint s n p code).Inv := by
  unfold State.testPoint
  simp (maxDischargeDepth := 60) +contextual only [State.updAdc_inv, State.setB_inv, State.setF_inv, State.evtAdc_inv,
    State.roundCheck_inv, ite_inv, hI]

theorem State.hkResult_inv (s : State) (i : Nat) (o : SarOut)
    (hI : s.Inv) : (State.hkResult s i o).Inv := by
  unfold State.hkResult
  simp (maxDischargeDepth := 60) +contextual only [State.wrN_inv, State.updAdc_inv, State.thmNtc_inv, ite_inv, hI]

theorem State.bgNext_inv (s : State) (n : Nat)
    (hI : s.Inv) : (State.bgNext s n).Inv := by
  unfold State.bgNext
  simp (maxDischargeDepth := 60) +contextual only [State.updConv_inv, State.bgStart_inv, hI]

theorem State.sarEnable_inv (s : State) (n : Nat)
    (hI : s.Inv) : (State.sarEnable s n).Inv := by
  unfold State.sarEnable
  simp (maxDischargeDepth := 60) +contextual only [State.setBit_inv, hI]

theorem State.sarReady_inv (s : State) (n : Nat)
    (hI : s.Inv) : (State.sarReady s n).Inv := by
  unfold State.sarReady
  simp (maxDischargeDepth := 60) +contextual only [State.setF_inv, State.bgStart_inv, ite_inv, hI]

theorem State.sarDisable_inv (s : State) (n : Nat)
    (hI : s.Inv) : (State.sarDisable s n).Inv := by
  unfold State.sarDisable
  simp (maxDischargeDepth := 60) +contextual only [State.setBit_inv, State.setF_inv, State.setB_inv, State.updConv_inv,
    State.updAdc_inv, State.roundCheck_inv, ite_inv, hI]

theorem State.hkScan_inv (s : State)
    (hI : s.Inv) : (State.hkScan s).Inv := by
  unfold State.hkScan
  simp (maxDischargeDepth := 60) +contextual only [State.count_inv, State.evtAdc_inv, State.thmHkPeriod_inv,
    State.updAdc_inv, State.bgStart_inv, ite_inv, hI]

theorem State.scPeriod_inv (s : State)
    (hI : s.Inv) : (State.scPeriod s).Inv := by
  unfold State.scPeriod
  simp (maxDischargeDepth := 60) +contextual only [State.updAdc_inv, State.evtAdc_inv, State.setB_inv, State.bgStart_inv,
    ite_inv, hI]

theorem State.scCfg_inv (s : State) (w : Nat)
    (hI : s.Inv) : (State.scCfg s w).Inv := by
  unfold State.scCfg
  simp (maxDischargeDepth := 60) +contextual only [State.wrN_inv, State.unsched_inv, State.sched_inv, ite_inv, hI]

theorem State.refSelect_inv (s : State) (sel vnom : Nat)
    (hI : s.Inv) : (State.refSelect s sel vnom).Inv := by
  unfold State.refSelect
  simp (maxDischargeDepth := 60) +contextual only [State.setF_inv, State.setB_inv, ite_inv, hI]

theorem State.refSettled_inv (s : State) (settled : Bool)
    (hI : s.Inv) : (State.refSettled s settled).Inv := by
  unfold State.refSettled
  simp (maxDischargeDepth := 60) +contextual only [State.setB_inv, ite_inv, hI]

theorem State.refLoss_inv (s : State)
    (hI : s.Inv) : (State.refLoss s).Inv := by
  unfold State.refLoss
  simp (maxDischargeDepth := 60) +contextual only [State.setB_inv, State.evtAdc_inv, ite_inv, hI]

theorem State.wcCompare_inv (s : State) (k : Nat)
    (hI : s.Inv) : (State.wcCompare s k).Inv := by
  unfold State.wcCompare
  simp (maxDischargeDepth := 60) +contextual only [State.updAdc_inv, State.sched_inv, ite_inv, hI]

theorem State.wcUpdate_inv (s : State) (k : Nat)
    (hI : s.Inv) : (State.wcUpdate s k).Inv := by
  unfold State.wcUpdate
  simp (maxDischargeDepth := 60) +contextual only [State.wcCompare_inv, State.setBit_inv, State.selvCondition_inv,
    State.setSelvLive_inv, ite_inv, hI]

theorem State.wcChange_inv (s : State) (k : Nat) (level : Int)
    (hI : s.Inv) : (State.wcChange s k level).Inv := by
  unfold State.wcChange
  simp (maxDischargeDepth := 60) +contextual only [State.updAdc_inv, State.wcUpdate_inv, hI]

theorem State.adcInj_inv (s : State) (w : Nat)
    (hI : s.Inv) : (State.adcInj s w).Inv := by
  unfold State.adcInj
  simp (maxDischargeDepth := 60) +contextual only [State.updConv_inv, State.updAdc_inv, State.evtAdc_inv, State.wcUpdate_inv,
    State.sched_inv, ite_inv, forL_inv, forN_inv, implies_true, hI]

theorem State.streamStart_inv (s : State)
    (hI : s.Inv) : (State.streamStart s).Inv := by
  unfold State.streamStart
  simp (maxDischargeDepth := 60) +contextual only [State.setB_inv, State.wrN_inv, State.updAdc_inv, ite_inv, hI]

theorem State.fastSample_inv (s : State) (c j : Nat)
    (hI : s.Inv) : (State.fastSample s c j).Inv := by
  unfold State.fastSample
  simp (maxDischargeDepth := 60) +contextual only [State.free_inv, State.setMemN_inv, State.updAdc_inv, State.evtAdc_inv,
    ite_inv, ite_inv_snd, hI]

theorem State.fastTick_inv (s : State)
    (hI : s.Inv) : (State.fastTick s).Inv := by
  unfold State.fastTick
  simp (maxDischargeDepth := 60) +contextual only [State.fastSample_inv, ite_inv, forL_inv, implies_true, hI]

theorem State.streamStop_inv (s : State)
    (hI : s.Inv) : (State.streamStop s).Inv := by
  unfold State.streamStop
  simp (maxDischargeDepth := 60) +contextual only [State.setB_inv, State.wrN_inv, State.setF_inv, ite_inv, hI]

theorem State.fctrl_inv (s : State) (w : Nat)
    (hI : s.Inv) : (State.fctrl s w).Inv := by
  unfold State.fctrl
  simp (maxDischargeDepth := 60) +contextual only [State.evtAdc_inv, State.setF_inv, State.streamStart_inv,
    State.streamStop_inv, ite_inv, hI]

theorem State.streamOwnStop_inv (s : State)
    (hI : s.Inv) : (State.streamOwnStop s).Inv := by
  unfold State.streamOwnStop
  simp (maxDischargeDepth := 60) +contextual only [State.streamStop_inv, State.setB_inv, State.evtAdc_inv, ite_inv, hI]

theorem State.fastClip_inv (s : State) (c : Nat) (clip : Bool)
    (hI : s.Inv) : (State.fastClip s c clip).Inv := by
  unfold State.fastClip
  simp (maxDischargeDepth := 60) +contextual only [State.evtAdc_inv, State.setBit_inv, State.count_inv, State.fastSample_inv,
    ite_inv, hI]

theorem execAdcSeqTrig_inv (mask : BitVec 2) (s : State)
    (hI : s.Inv) : nextInv (execAdcSeqTrig mask s) := by
  exact nextInv_next (by simp (maxDischargeDepth := 60) +contextual only [State.seqTrig_inv, forL_inv, implies_true, hI])

theorem execSarEnable_inv (m : Master) (conv : Fin 2) (s : State)
    (hI : s.Inv) : nextInv (execSarEnable m conv s) := by
  exact nextInv_next (by simp (maxDischargeDepth := 60) +contextual only [State.gate_inv, State.sarEnable_inv, implies_true,
    hI])

theorem execSarReady_inv (conv : Fin 2) (s : State)
    (hI : s.Inv) : nextInv (execSarReady conv s) := by
  exact nextInv_next (by simp (maxDischargeDepth := 60) +contextual only [State.sarReady_inv, hI])

theorem State.seqSw_inv (s : State) (mask : Nat)
    (hI : s.Inv) : (State.seqSw s mask).Inv := by
  unfold State.seqSw
  simp (maxDischargeDepth := 60) +contextual only [State.seqTrig_inv, forL_inv, implies_true, hI]

theorem execAdcSeqswGo_inv (m : Master) (mask : BitVec 2) (s : State)
    (hI : s.Inv) : nextInv (execAdcSeqswGo m mask s) := by
  exact nextInv_next (by simp (maxDischargeDepth := 60) +contextual only [State.gate_inv, State.seqSw_inv, implies_true, hI])

theorem execAdcUrgentRequest_inv (m : Master) (conv : Fin 2) (input : BitVec 5) (s : State)
    (hI : s.Inv) : nextInv (execAdcUrgentRequest m conv input s) := by
  exact nextInv_next (by simp (maxDischargeDepth := 60) +contextual only [State.gate_inv, State.urgentReq_inv, implies_true,
    hI])

theorem execHkScanPeriod_inv (s : State)
    (hI : s.Inv) : nextInv (execHkScanPeriod s) := by
  exact nextInv_next (by simp (maxDischargeDepth := 60) +contextual only [State.hkScan_inv, State.timer_inv, hI])

theorem execSelfCheckPeriod_inv (s : State)
    (hI : s.Inv) : nextInv (execSelfCheckPeriod s) := by
  exact nextInv_next (by simp (maxDischargeDepth := 60) +contextual only [State.scPeriod_inv, State.timer_inv, ite_inv, hI])

theorem execRefSelect_inv (m : Master) (sel : BitVec 2) (vnom : BitVec 12) (s : State)
    (hI : s.Inv) : nextInv (execRefSelect m sel vnom s) := by
  exact nextInv_next (by simp (maxDischargeDepth := 60) +contextual only [State.gate_inv, State.refSelect_inv, implies_true,
    hI])

theorem execRefSettled_inv (settled : Bool) (s : State)
    (hI : s.Inv) : nextInv (execRefSettled settled s) := by
  exact nextInv_next (by simp (maxDischargeDepth := 60) +contextual only [State.refSettled_inv, hI])

theorem execRefInbandLoss_inv (s : State)
    (hI : s.Inv) : nextInv (execRefInbandLoss s) := by
  exact nextInv_next (by simp (maxDischargeDepth := 60) +contextual only [State.refLoss_inv, hI])

theorem execWindowComparatorChange_inv (k : Fin 8) (level : Option Int) (s : State)
    (hI : s.Inv) : nextInv (execWindowComparatorChange k level s) := by
  unfold execWindowComparatorChange
  refine nextInv_next ?_
  (repeat' split) <;> simp (maxDischargeDepth := 60) +contextual only [State.wcChange_inv, State.wcUpdate_inv, hI]

theorem execAdcInject_inv (m : Master) (w : Word) (s : State)
    (hI : s.Inv) : nextInv (execAdcInject m w s) := by
  exact nextInv_next (by simp (maxDischargeDepth := 60) +contextual only [State.gate_inv, State.adcInj_inv, implies_true, hI])

theorem execFastStreamStart_inv (m : Master) (chen : BitVec 4) (s : State)
    (hI : s.Inv) : nextInv (execFastStreamStart m chen s) := by
  exact nextInv_next (by simp (maxDischargeDepth := 60) +contextual only [State.gate_inv, State.fctrl_inv, implies_true, hI])

theorem execFastStreamStop_inv (m : Master) (s : State)
    (hI : s.Inv) : nextInv (execFastStreamStop m s) := by
  exact nextInv_next (by simp (maxDischargeDepth := 60) +contextual only [State.gate_inv, State.streamStop_inv, implies_true,
    hI])

theorem execFastChannelClip_inv (c : Fin 4) (clip : Bool) (s : State)
    (hI : s.Inv) : nextInv (execFastChannelClip c clip s) := by
  exact nextInv_next (by simp (maxDischargeDepth := 60) +contextual only [State.fastClip_inv, hI])

end Sys2Proof.Machine
end

