-- ==== Sys2Proof/Laws/InvPhu.lean ====
section
/-!
SUPPORT. The canonical forms (State.Inv): each operation and meaning of Machine/Phu.lean keeps them.
-/

namespace Sys2Proof.Machine

theorem State.evtPhu_inv (s : State) (f : Fld) (inst : Nat)
    (hI : s.Inv) : (State.evtPhu s f inst).Inv := by
  unfold State.evtPhu
  simp (maxDischargeDepth := 60) +contextual only [State.evt_inv, hI]

theorem State.phuClear_inv (s : State) (mask : Nat)
    (hI : s.Inv) : (State.phuClear s mask).Inv := by
  unfold State.phuClear
  simp (maxDischargeDepth := 60) +contextual only [State.updPhu_inv, forL_inv, implies_true, hI]

theorem State.phuFresh_inv (s : State)
    (hI : s.Inv) : (State.phuFresh s).Inv := by
  unfold State.phuFresh
  simp (maxDischargeDepth := 60) +contextual only [State.unsched_inv, State.updPhu_inv, State.phuClear_inv, State.setB_inv, hI]

theorem State.phuEmit_inv (s : State)
    (hI : s.Inv) : (State.phuEmit s).Inv := by
  unfold State.phuEmit
  simp (maxDischargeDepth := 60) +contextual only [State.setB_inv, hI]

theorem State.phuStart_inv (s : State)
    (hI : s.Inv) : (State.phuStart s).Inv := by
  unfold State.phuStart
  simp (maxDischargeDepth := 60) +contextual only [State.wrN_inv, State.evtPhu_inv, State.setB_inv, State.phuFresh_inv,
    State.phuEmit_inv, ite_inv, hI]

theorem State.phuStop_inv (s : State)
    (hI : s.Inv) : (State.phuStop s).Inv := by
  unfold State.phuStop
  simp (maxDischargeDepth := 60) +contextual only [State.setB_inv, State.unsched_inv, State.phuEmit_inv, hI]

theorem State.phuCtrl_inv (s : State) (w : Nat)
    (hI : s.Inv) : (State.phuCtrl s w).Inv := by
  unfold State.phuCtrl
  simp (maxDischargeDepth := 60) +contextual only [State.evtPhu_inv, State.wrN_inv, State.phuStop_inv, State.phuStart_inv,
    ite_inv, hI]

theorem State.phuLocked_inv (s : State) (a w : Nat)
    (hI : s.Inv) : (State.phuLocked s a w).Inv := by
  unfold State.phuLocked
  simp (maxDischargeDepth := 60) +contextual only [State.evtPhu_inv, State.wrN_inv, ite_inv, hI]

theorem execPhuEnable_inv (m : Master) (s : State)
    (hI : s.Inv) : nextInv (execPhuEnable m s) := by
  exact nextInv_next (by simp (maxDischargeDepth := 60) +contextual only [State.gate_inv, State.phuCtrl_inv, implies_true, hI])

theorem State.phuAlign_inv (s : State) (mask : Nat)
    (hI : s.Inv) : (State.phuAlign s mask).Inv := by
  unfold State.phuAlign
  simp (maxDischargeDepth := 60) +contextual only [State.phuClear_inv, State.setB_inv, State.phuEmit_inv, State.wrN_inv,
    ite_inv, hI]

theorem execPhuAlign_inv (mask : BitVec 12) (s : State)
    (hI : s.Inv) : nextInv (execPhuAlign mask s) := by
  exact nextInv_next (by simp (maxDischargeDepth := 60) +contextual only [State.phuAlign_inv, hI])

theorem State.phuDecide_inv (s : State)
    (hI : s.Inv) : (State.phuDecide s).Inv := by
  unfold State.phuDecide
  dsimp only
  (repeat' split) <;> simp (maxDischargeDepth := 60) +contextual only [State.updPhu_inv, State.setF_inv, State.schedAt_inv,
    State.count_inv, State.evtPhu_inv, hI]

theorem execPhuGuardDecision_inv (s : State)
    (hI : s.Inv) : nextInv (execPhuGuardDecision s) := by
  exact nextInv_next (by simp (maxDischargeDepth := 60) +contextual only [State.phuDecide_inv, hI])

theorem State.phuSample_inv (s : State) (n : Nat) (x : PhuSample)
    (hI : s.Inv) : (State.phuSample s n x).Inv := by
  unfold State.phuSample
  simp (maxDischargeDepth := 60) +contextual only [State.updPhu_inv, hI]

theorem State.phuBad_inv (s : State) (n g : Nat)
    (hI : s.Inv) : (State.phuBad s n g).Inv := by
  unfold State.phuBad
  simp (maxDischargeDepth := 60) +contextual only [State.count_inv, State.evtPhu_inv, State.phuSample_inv, hI]

theorem State.phuSeqEnd_inv (s : State) (written : Nat)
    (hI : s.Inv) : (State.phuSeqEnd s written).Inv := by
  unfold State.phuSeqEnd
  (repeat' split) <;> simp (maxDischargeDepth := 60) +contextual only [State.phuBad_inv, State.updPhu_inv, forL_inv,
    implies_true, hI]

theorem State.phuTrig_inv (s : State)
    (hI : s.Inv) : (State.phuTrig s).Inv := by
  unfold State.phuTrig
  (repeat' split) <;> simp (maxDischargeDepth := 60) +contextual only [State.updPhu_inv, State.seqTrig_inv,
    State.phuBad_inv, ite_inv, forL_inv, implies_true, hI]

theorem execPhuTrigger_inv (s : State)
    (hI : s.Inv) : nextInv (execPhuTrigger s) := by
  exact nextInv_next (by simp (maxDischargeDepth := 60) +contextual only [State.phuTrig_inv, hI])

theorem State.phuEntry_inv (s : State) (conv k code : Nat) (flagged lastOne : Bool)
    (hI : s.Inv) : (State.phuEntry s conv k code flagged lastOne).Inv := by
  unfold State.phuEntry
  (repeat' split) <;> simp (maxDischargeDepth := 60) +contextual only [State.phuBad_inv, State.phuSample_inv,
    State.phuSeqEnd_inv, forL_inv, implies_true, hI]

theorem State.sarResult_inv (s : State) (n : Nat) (ideal : Int)
    (hI : s.Inv) : (State.sarResult s n ideal).Inv := by
  unfold State.sarResult
  dsimp only
  (repeat' split) <;> simp (maxDischargeDepth := 60) +contextual only [State.convOut_inv, State.wrN_inv,
    State.angleEntry_inv, State.phuEntry_inv, State.seqNext_inv, State.updConv_inv, State.urgentNext_inv, State.hkResult_inv,
    State.bgNext_inv, State.testPoint_inv, hI]

theorem execSarConversionResult_inv (conv : Fin 2) (code : BitVec 20) (s : State)
    (hI : s.Inv) : nextInv (execSarConversionResult conv code s) := by
  exact nextInv_next (by simp (maxDischargeDepth := 60) +contextual only [State.sarResult_inv, hI])

theorem State.sarOff_inv (s : State) (n : Nat)
    (hI : s.Inv) : (State.sarOff s n).Inv := by
  unfold State.sarOff
  (repeat' split) <;> simp (maxDischargeDepth := 60) +contextual only [State.sarDisable_inv, State.phuSeqEnd_inv, ite_inv, hI]

theorem execSarDisable_inv (m : Master) (conv : Fin 2) (s : State)
    (hI : s.Inv) : nextInv (execSarDisable m conv s) := by
  exact nextInv_next (by simp (maxDischargeDepth := 60) +contextual only [State.gate_inv, State.sarOff_inv, implies_true, hI])

theorem State.adcCtrl_inv (s : State) (w : Nat)
    (hI : s.Inv) : (State.adcCtrl s w).Inv := by
  unfold State.adcCtrl
  simp (maxDischargeDepth := 60) +contextual only [State.setF_inv, State.sarEnable_inv, State.sarOff_inv, State.bgStart_inv,
    ite_inv, forN_inv, implies_true, hI]

theorem State.toFloat_inv (s : State) (x : Rat)
    (hI : s.Inv) : (State.toFloat s x).2.Inv := by
  unfold State.toFloat
  simp (maxDischargeDepth := 60) +contextual only [State.free_inv, hI]

theorem State.phuTick_inv (s : State)
    (hI : s.Inv) : (State.phuTick s).Inv := by
  unfold State.phuTick
  simp (maxDischargeDepth := 60) +contextual only [State.updPhu_inv, ite_inv, hI]

theorem State.perUnit_inv (s : State) (x : Rat) (unit : Nat)
    (hI : s.Inv) : (State.perUnit s x unit).2.Inv := by
  unfold State.perUnit
  simp (maxDischargeDepth := 60) +contextual only [State.free_inv, ite_inv_snd, hI]

theorem State.c37Phasor_inv (s : State) (p : PhOut)
    (hI : s.Inv) : (State.c37Phasor s p).2.Inv := by
  unfold State.c37Phasor
  simp (maxDischargeDepth := 60) +contextual only [State.toFloat_inv, State.perUnit_inv, ite_inv_snd, hI]

theorem State.c37Phasors_inv (s : State) (l : List PhOut) (hI : s.Inv) : (State.c37Phasors s l).2.Inv := by
  induction l generalizing s with
  | nil => exact hI
  | cons p t ih => exact ih _ (State.c37Phasor_inv _ _ hI)

theorem State.phuC37_inv (s : State) (frame stat : Nat) (out : List PhOut) (fvalid : Bool) (freq rocof : Nat)
    (hI : s.Inv) : (State.phuC37 s frame stat out fvalid freq rocof).2.Inv := by
  unfold State.phuC37
  simp (maxDischargeDepth := 60) +contextual only [State.c37Phasors_inv, hI]

theorem State.phuWrite_inv (s : State) (bytes : List Byte)
    (hI : s.Inv) : (State.phuWrite s bytes).Inv := by
  unfold State.phuWrite
  simp (maxDischargeDepth := 60) +contextual only [State.ringRecord_inv, State.incr_inv, State.count_inv, State.evtPhu_inv,
    ite_inv, hI]

theorem State.phuFormat_inv (s : State) (frame stat : Nat) (out : List PhOut) (fv : Bool) (fr : Nat × Nat)
    (hI : s.Inv) : (State.phuFormat s frame stat out fv fr).Inv := by
  unfold State.phuFormat
  simp (maxDischargeDepth := 60) +contextual only [State.phuC37_inv, State.phuWrite_inv, ite_inv, hI]

theorem State.phuInvalid_inv (s : State) (w : Nat × Nat) (complete : Bool)
    (hI : s.Inv) : (State.phuInvalid s w complete).Inv := by
  unfold State.phuInvalid
  simp (maxDischargeDepth := 60) +contextual only [State.evtPhu_inv, ite_inv, forL_inv, implies_true, hI]

theorem State.phuReport_inv (s : State) (frame : Nat) (w : Nat × Nat) (complete : Bool) (up : List Bool × Bool × Bool)
    (hI : s.Inv) : (State.phuReport s frame w complete up).Inv := by
  unfold State.phuReport
  split
  · exact hI
  · split
    · exact State.evtPhu_inv _ _ _ (State.count_inv _ _ hI)
    · exact State.phuFormat_inv _ _ _ _ _ _ (State.phuInvalid_inv _ _ _ hI)

theorem State.phuFrame_inv (s : State) (up : List Bool × Bool × Bool)
    (hI : s.Inv) : (State.phuFrame s up).Inv := by
  unfold State.phuFrame
  simp (maxDischargeDepth := 60) +contextual only [State.updPhu_inv, State.setB_inv, State.phuReport_inv, ite_inv, hI]

theorem execPhuFrameEmit_inv (phasors : List Bool) (freq rocof : Bool) (s : State)
    (hI : s.Inv) : nextInv (execPhuFrameEmit phasors freq rocof s) := by
  exact nextInv_next (by simp (maxDischargeDepth := 60) +contextual only [State.phuFrame_inv, hI])

theorem State.phuRebuild_inv (s : State) (next : Nat)
    (hI : s.Inv) : (State.phuRebuild s next).Inv := by
  unfold State.phuRebuild
  simp (maxDischargeDepth := 60) +contextual only [State.phuReport_inv, State.phuFresh_inv, ite_inv, forN_inv, implies_true, hI]

theorem State.phuWarm_inv (s : State)
    (hI : s.Inv) : (State.phuWarm s).Inv := by
  unfold State.phuWarm
  simp (maxDischargeDepth := 60) +contextual only [State.phuRebuild_inv, hI]

theorem State.phuStep_inv (s : State) (next : Nat)
    (hI : s.Inv) : (State.phuStep s next).Inv := by
  unfold State.phuStep
  simp (maxDischargeDepth := 60) +contextual only [State.phuRebuild_inv, State.evtPhu_inv, ite_inv, hI]

end Sys2Proof.Machine
end

