-- ==== Sys2Proof/Laws/InvTwu.lean ====
section
/-!
SUPPORT. The canonical forms (State.Inv): each operation and meaning of Machine/Twu.lean keeps them.
-/

namespace Sys2Proof.Machine

theorem State.evtTwu_inv (s : State) (f : Fld)
    (hI : s.Inv) : (State.evtTwu s f).Inv := by
  unfold State.evtTwu
  simp (maxDischargeDepth := 60) +contextual only [State.evt_inv, hI]

theorem State.twArm_inv (s : State) (mask window : Nat)
    (hI : s.Inv) : (State.twArm s mask window).Inv := by
  unfold State.twArm
  simp (maxDischargeDepth := 60) +contextual only [State.evtTwu_inv, State.updTwu_inv, State.unsched_inv, State.schedAt_inv,
    State.setB_inv, ite_inv, hI]

theorem execTwArm_inv (mask : BitVec 4) (window : Word) (s : State)
    (hI : s.Inv) : nextInv (execTwArm mask window s) := by
  exact nextInv_next (by simp (maxDischargeDepth := 60) +contextual only [State.twArm_inv, hI])

theorem execTwArmExpire_inv (s : State)
    (hI : s.Inv) : nextInv (execTwArmExpire s) := by
  exact nextInv_next (by simp (maxDischargeDepth := 60) +contextual only [State.setB_inv, hI])

theorem State.twuCtrl_inv (s : State) (w : Nat)
    (hI : s.Inv) : (State.twuCtrl s w).Inv := by
  unfold State.twuCtrl
  simp (maxDischargeDepth := 60) +contextual only [State.evtTwu_inv, State.setF_inv, State.setB_inv, ite_inv, hI]

theorem State.twuLocked_inv (s : State) (a w : Nat)
    (hI : s.Inv) : (State.twuLocked s a w).Inv := by
  unfold State.twuLocked
  simp (maxDischargeDepth := 60) +contextual only [State.evtTwu_inv, State.wrN_inv, ite_inv, hI]

theorem State.putSets_inv (s : State) (j : Nat) (xs : List FastSet)
    (hI : s.Inv) : (State.putSets s j xs).Inv := by
  unfold State.putSets
  simp (maxDischargeDepth := 60) +contextual only [State.setMemN_inv, ite_inv, forL_inv, implies_true, hI]

theorem State.twStart_inv (s : State) (j mode : Nat)
    (hI : s.Inv) : (State.twStart s j mode).Inv := by
  unfold State.twStart
  simp (maxDischargeDepth := 60) +contextual only [State.updTwu_inv, State.setB_inv, hI]

theorem State.twTriggerNow_inv (s : State)
    (hI : s.Inv) : (State.twTriggerNow s).Inv := by
  unfold State.twTriggerNow
  dsimp only
  (repeat' split) <;> simp (maxDischargeDepth := 60) +contextual only [State.twStart_inv, hI]

theorem State.twTrigger_inv (s : State) (xs : List FastSet)
    (hI : s.Inv) : (State.twTrigger s xs).Inv := by
  unfold State.twTrigger
  simp (maxDischargeDepth := 60) +contextual only [State.putSets_inv, State.twTriggerNow_inv, hI]

theorem execTwTrigger_inv (xs : List FastSet) (s : State)
    (hI : s.Inv) : nextInv (execTwTrigger xs s) := by
  exact nextInv_next (by simp (maxDischargeDepth := 60) +contextual only [State.twTrigger_inv, hI])

theorem State.front_inv (s : State) (d : Nat → Int) (j first : Nat)
    (hI : s.Inv) : (State.front s d j first).2.Inv := by
  unfold State.front
  dsimp only
  (repeat' split) <;> simp (maxDischargeDepth := 60) +contextual only [State.free_inv, hI]

theorem State.reflections_inv (d : Nat → Int) (mode thr e first fuel n j : Nat) (s : State) (hI : s.Inv) :
    (State.reflections d mode thr e first fuel n j s).2.Inv := by
  induction fuel generalizing n j s with
  | zero => exact hI
  | succ k ih =>
    cases n with
    | zero => exact hI
    | succ n =>
      unfold State.reflections
      simp (maxDischargeDepth := 60) +contextual only [State.front_inv, ite_inv_snd, ih, hI]

theorem State.twCopy_inv (s : State) (e : TwEvent) (get : Nat → FastSet)
    (hI : s.Inv) : (State.twCopy s e get).Inv := by
  unfold State.twCopy
  simp (maxDischargeDepth := 60) +contextual only [State.count_inv, State.evtTwu_inv, State.updTwu_inv, State.setB_inv,
    ite_inv, hI]

theorem State.twEmit_inv (s : State) (e : TwEvent) (get : Nat → FastSet) (first : Nat) (f : Front) (rs : List Front)
    (hI : s.Inv) : (State.twEmit s e get first f rs).Inv := by
  unfold State.twEmit
  simp (maxDischargeDepth := 60) +contextual only [State.incr_inv, State.updTwu_inv, State.ringRecord_inv, State.count_inv,
    State.evtTwu_inv, ite_inv, hI]

theorem State.twRecord_inv (s : State) (e : TwEvent) (get : Nat → FastSet) (first : Nat)
    (hI : s.Inv) : (State.twRecord s e get first).Inv := by
  unfold State.twRecord
  simp (maxDischargeDepth := 60) +contextual only [State.front_inv, State.reflections_inv, State.twEmit_inv,
    State.twCopy_inv, hI]

theorem State.twPostNow_inv (s : State)
    (hI : s.Inv) : (State.twPostNow s).Inv := by
  unfold State.twPostNow
  (repeat' split) <;> simp (maxDischargeDepth := 60) +contextual only [State.twRecord_inv, State.setB_inv, State.schedAt_inv,
    ite_inv, hI]

theorem State.twPost_inv (s : State) (first : Nat) (xs : List FastSet)
    (hI : s.Inv) : (State.twPost s first xs).Inv := by
  unfold State.twPost
  simp (maxDischargeDepth := 60) +contextual only [State.putSets_inv, State.twPostNow_inv, hI]

theorem execTwPostEnd_inv (first : BitVec 64) (xs : List FastSet) (s : State)
    (hI : s.Inv) : nextInv (execTwPostEnd first xs s) := by
  exact nextInv_next (by simp (maxDischargeDepth := 60) +contextual only [State.twPost_inv, hI])

theorem execTwHoldoffEnd_inv (s : State)
    (hI : s.Inv) : nextInv (execTwHoldoffEnd s) := by
  exact nextInv_next (by simp (maxDischargeDepth := 60) +contextual only [State.setB_inv, hI])

theorem State.twCapture_inv (s : State)
    (hI : s.Inv) : (State.twCapture s).Inv := by
  unfold State.twCapture
  (repeat' split) <;> simp (maxDischargeDepth := 60) +contextual only [State.ringPut_inv, State.updTwu_inv, State.setB_inv,
    State.count_inv, State.evtTwu_inv, ite_inv, hI]

theorem execTwCaptureDone_inv (s : State)
    (hI : s.Inv) : nextInv (execTwCaptureDone s) := by
  exact nextInv_next (by simp (maxDischargeDepth := 60) +contextual only [State.twCapture_inv, hI])

theorem State.twLocate_inv (s : State)
    (hI : s.Inv) : (State.twLocate s).Inv := by
  unfold State.twLocate
  simp (maxDischargeDepth := 60) +contextual only [State.updTwu_inv, State.setB_inv, ite_inv, hI]

theorem execTwLocate_inv (m : Master) (s : State)
    (hI : s.Inv) : nextInv (execTwLocate m s) := by
  exact nextInv_next (by simp (maxDischargeDepth := 60) +contextual only [State.gate_inv, State.twLocate_inv, implies_true, hI])

theorem State.locateDone_inv (s : State)
    (hI : s.Inv) : (State.locateDone s).Inv := by
  unfold State.locateDone
  simp (maxDischargeDepth := 60) +contextual only [State.setB_inv, State.setF_inv, State.wrN_inv, State.evtTwu_inv, ite_inv, hI]

theorem execTwLocateDone_inv (s : State)
    (hI : s.Inv) : nextInv (execTwLocateDone s) := by
  exact nextInv_next (by simp (maxDischargeDepth := 60) +contextual only [State.locateDone_inv, hI])

end Sys2Proof.Machine
end

