-- ==== Sys2Proof/Laws/InvMem.lean ====
section
/-!
SUPPORT. The canonical forms (State.Inv): each operation and meaning of Machine/Mem.lean keeps them.
-/

namespace Sys2Proof.Machine

theorem State.evtMem_inv (s : State) (f : Fld) (inst : Nat)
    (hI : s.Inv) : (State.evtMem s f inst).Inv := by
  unfold State.evtMem
  simp (maxDischargeDepth := 60) +contextual only [State.evt_inv, hI]

theorem State.clearRange_inv (s : State) (a n : Nat)
    (hI : s.Inv) : (State.clearRange s a n).Inv := by
  unfold State.clearRange
  simp (maxDischargeDepth := 60) +contextual only [inv_mk, regs_wf, mem_wf, Sparse.wf_filter, and_self, hI]

theorem State.ownRefused_inv (s : State) (n : Nat)
    (hI : s.Inv) : (State.ownRefused s n).Inv := by
  unfold State.ownRefused
  simp (maxDischargeDepth := 60) +contextual only [State.count_inv, State.evtMem_inv, hI]

theorem State.ownTake_inv (s : State) (m : Master) (n w : Nat)
    (hI : s.Inv) : (State.ownTake s m n w).Inv := by
  unfold State.ownTake
  simp (maxDischargeDepth := 60) +contextual only [State.updBank_inv, State.wrN_inv, State.setB_inv, State.streamOwnStop_inv,
    ite_inv, hI]

theorem State.ownWrite_inv (s : State) (m : Master) (n w : Nat)
    (hI : s.Inv) : (State.ownWrite s m n w).Inv := by
  unfold State.ownWrite
  (repeat' split) <;> simp (maxDischargeDepth := 60) +contextual only [State.wrN_inv, State.setB_inv, State.evtMem_inv,
    State.ownTake_inv, ite_inv, hI]

theorem State.bankServe_inv (s : State) (n : Nat)
    (hI : s.Inv) : (State.bankServe s n).Inv := by
  unfold State.bankServe
  simp (maxDischargeDepth := 60) +contextual only [State.updBank_inv, State.sched_inv, forL_inv, implies_true, hI]

theorem State.drainEnd_inv (s : State) (n : Nat)
    (hI : s.Inv) : (State.drainEnd s n).Inv := by
  unfold State.drainEnd
  simp (maxDischargeDepth := 60) +contextual only [State.setB_inv, State.evtMem_inv, State.streamStart_inv,
    State.bankServe_inv, ite_inv, hI]

theorem State.setPstate_inv (s : State) (n p : Nat)
    (hI : s.Inv) : (State.setPstate s n p).Inv := by
  unfold State.setPstate
  simp (maxDischargeDepth := 60) +contextual only [State.setF_inv, State.setBit_inv, hI]

theorem State.setGo_inv (s : State) (n : Nat) (g : BankGo)
    (hI : s.Inv) : (State.setGo s n g).Inv := by
  unfold State.setGo
  simp (maxDischargeDepth := 60) +contextual only [State.updBank_inv, hI]

theorem State.bankStart_inv (s : State) (n : Nat) (g : BankGo) (d : Nat)
    (hI : s.Inv) : (State.bankStart s n g d).Inv := by
  unfold State.bankStart
  simp (maxDischargeDepth := 60) +contextual only [State.setGo_inv, State.sched_inv, hI]

theorem State.bankTo_inv (s : State) (n req : Nat)
    (hI : s.Inv) : (State.bankTo s n req).Inv := by
  unfold State.bankTo
  simp (maxDischargeDepth := 60) +contextual only [State.setPstate_inv, State.bankStart_inv, ite_inv, hI]

theorem State.bankReq_inv (s : State) (n req : Nat)
    (hI : s.Inv) : (State.bankReq s n req).Inv := by
  unfold State.bankReq
  simp (maxDischargeDepth := 60) +contextual only [State.bankTo_inv, State.updBank_inv, ite_inv, hI]

theorem State.pwrWrite_inv (s : State) (n w : Nat)
    (hI : s.Inv) : (State.pwrWrite s n w).Inv := by
  unfold State.pwrWrite
  simp (maxDischargeDepth := 60) +contextual only [State.setF_inv, State.evtMem_inv, State.bankReq_inv, ite_inv, hI]

theorem State.bankLost_inv (s : State) (n : Nat)
    (hI : s.Inv) : (State.bankLost s n).Inv := by
  unfold State.bankLost
  simp (maxDischargeDepth := 60) +contextual only [State.clearRange_inv, State.setB_inv, ite_inv, hI]

theorem State.bankSettled_inv (s : State) (n : Nat)
    (hI : s.Inv) : (State.bankSettled s n).Inv := by
  unfold State.bankSettled
  simp (maxDischargeDepth := 60) +contextual only [State.setGo_inv, State.bankServe_inv, State.updBank_inv, State.bankTo_inv,
    ite_inv, hI]

theorem State.bankDone_inv (s : State) (n : Nat)
    (hI : s.Inv) : (State.bankDone s n).Inv := by
  unfold State.bankDone
  (repeat' split) <;> simp (maxDischargeDepth := 60) +contextual only [State.setPstate_inv, State.bankSettled_inv,
    State.bankLost_inv, State.bankStart_inv, hI]

theorem State.autoWake_inv (s : State) (n : Nat)
    (hI : s.Inv) : (State.autoWake s n).Inv := by
  unfold State.autoWake
  simp (maxDischargeDepth := 60) +contextual only [State.count_inv, State.bankTo_inv, State.updBank_inv, ite_inv, hI]

theorem State.bankWait_inv (s : State) (n : Nat) (c : Instr)
    (hI : s.Inv) : (State.bankWait s n c).Inv := by
  unfold State.bankWait
  simp (maxDischargeDepth := 60) +contextual only [State.autoWake_inv, State.updBank_inv, hI]

theorem State.eccWord_inv (s : State) (n a k : Nat)
    (hI : s.Inv) : (State.eccWord s n a k).Inv := by
  unfold State.eccWord
  simp (maxDischargeDepth := 60) +contextual only [State.free_inv, State.wrN_inv, State.updBank_inv, State.sched_inv,
    State.count_inv, State.evtMem_inv, ite_inv, hI]

theorem State.nvmWord_inv (s : State) (a k : Nat)
    (hI : s.Inv) : (State.nvmWord s a k).Inv := by
  unfold State.nvmWord
  simp (maxDischargeDepth := 60) +contextual only [State.wrN_inv, State.count_inv, State.setWrong_inv, State.evt_inv,
    ite_inv, hI]

theorem State.eccRead_inv (s : State) (a n : Nat)
    (hI : s.Inv) : (State.eccRead s a n).Inv := by
  unfold State.eccRead
  refine forL_inv _ _ (fun x t ht => ?_) hI
  (repeat' split) <;> simp (maxDischargeDepth := 60) +contextual only [State.eccWord_inv, State.nvmWord_inv, ht]

theorem State.writeBack_inv (s : State)
    (hI : s.Inv) : (State.writeBack s).Inv := by
  unfold State.writeBack
  (repeat' split) <;> simp (maxDischargeDepth := 60) +contextual only [State.updBank_inv, State.setWrong_inv, hI]

theorem State.scrub_inv (s : State)
    (hI : s.Inv) : (State.scrub s).Inv := by
  unfold State.scrub
  simp (maxDischargeDepth := 60) +contextual only [State.eccRead_inv, State.timer_inv, ite_inv, forL_inv, implies_true, hI]

theorem State.bar4Refused_inv (s : State)
    (hI : s.Inv) : (State.bar4Refused s).Inv := by
  unfold State.bar4Refused
  simp (maxDischargeDepth := 60) +contextual only [State.count_inv, State.raise_inv, hI]

theorem State.mapTouched_inv (s : State) (a n : Nat)
    (hI : s.Inv) : (State.mapTouched s a n).Inv := by
  unfold State.mapTouched
  simp (maxDischargeDepth := 60) +contextual only [State.mapChanged_inv, forL_inv, implies_true, hI]

theorem State.tableStore_inv (s : State) (a : Nat) (bs : List Byte)
    (hI : s.Inv) : (State.tableStore s a bs).1.Inv := by
  unfold State.tableStore
  simp (maxDischargeDepth := 60) +contextual only [State.setMemBytes_inv, State.mapTouched_inv, forL_inv, implies_true, hI]

theorem State.bar4ReadPart_inv (s : State) (p : Nat × Nat)
    (hI : s.Inv) : (State.bar4ReadPart s p).2.Inv := by
  unfold State.bar4ReadPart
  (repeat' split) <;> simp (maxDischargeDepth := 60) +contextual only [State.bar4Refused_inv, State.eccRead_inv,
    State.ownRefused_inv, State.evtMem_inv, hI]

theorem State.bar4WritePart_inv (s : State) (p : Nat × Nat) (bs : List Byte)
    (hI : s.Inv) : (State.bar4WritePart s p bs).Inv := by
  unfold State.bar4WritePart
  (repeat' split) <;> simp (maxDischargeDepth := 60) +contextual only [State.bar4Refused_inv, State.tableStore_inv,
    State.setMemBytes_inv, State.ownRefused_inv, State.evtMem_inv, ite_inv, hI]

theorem State.bar4Read_inv (s : State) (off len : Nat) (c : Instr)
    (hI : s.Inv) : (State.bar4Read s off len c).Inv := by
  unfold State.bar4Read
  dsimp only
  (repeat' split) <;> simp (maxDischargeDepth := 60) +contextual only [State.emit_inv, State.bankWait_inv,
    State.bar4ReadPart_inv, foldl_inv_snd, implies_true, hI]

theorem execBar4Read_inv (off : BitVec 26) (len : Fin 65) (s : State)
    (hI : s.Inv) : nextInv (execBar4Read off len s) := by
  exact nextInv_next (by simp (maxDischargeDepth := 60) +contextual only [State.bar4Read_inv, hI])

theorem State.bar4Write_inv (s : State) (off : Nat) (data : List Byte) (c : Instr)
    (hI : s.Inv) : (State.bar4Write s off data c).Inv := by
  unfold State.bar4Write
  dsimp only
  (repeat' split) <;> simp (maxDischargeDepth := 60) +contextual only [State.count_inv, State.bankWait_inv,
    State.bar4WritePart_inv, forL_inv, implies_true, hI]

theorem execBar4Write_inv (off : BitVec 26) (data : List Byte) (s : State)
    (hI : s.Inv) : nextInv (execBar4Write off data s) := by
  exact nextInv_next (by simp (maxDischargeDepth := 60) +contextual only [State.bar4Write_inv, hI])

theorem State.bankRefuse_inv (s : State) (b : Nat) (write : Bool)
    (hI : s.Inv) : (State.bankRefuse s b write).Inv := by
  unfold State.bankRefuse
  simp (maxDischargeDepth := 60) +contextual only [State.ownRefused_inv, State.bar4Refused_inv, State.evtMem_inv, ite_inv, hI]

theorem State.memRead_inv (s : State) (d : Desc) (a : Nat)
    (hI : s.Inv) : (State.memRead s d a).1.Inv := by
  unfold State.memRead
  dsimp only
  (repeat' split) <;> simp (maxDischargeDepth := 60) +contextual only [State.bankRefuse_inv, State.eccRead_inv,
    State.emit_inv, hI]

theorem State.memWrite_inv (s : State) (d : Desc) (a : Nat) (data : List Byte)
    (hI : s.Inv) : (State.memWrite s d a data).1.Inv := by
  unfold State.memWrite
  dsimp only
  (repeat' split) <;> simp (maxDischargeDepth := 60) +contextual only [State.bankRefuse_inv, State.bar4Refused_inv,
    State.setMemBytes_inv, State.mapTouched_inv, hI]

theorem execMemRead_inv (ring : Fin 8) (d : Desc) (addr : Word) (s : State)
    (hI : s.Inv) : nextInv (execMemRead ring d addr s) := by
  unfold execMemRead
  refine nextInv_next ?_
  (repeat' split) <;> simp (maxDischargeDepth := 60) +contextual only [State.bankWait_inv, State.memRead_inv,
    State.runCmd_inv, implies_true, hI]

theorem execMemWrite_inv (ring : Fin 8) (d : Desc) (addr : Word) (data : List Byte) (s : State)
    (hI : s.Inv) : nextInv (execMemWrite ring d addr data s) := by
  unfold execMemWrite
  refine nextInv_next ?_
  (repeat' split) <;> simp (maxDischargeDepth := 60) +contextual only [State.bankWait_inv, State.memWrite_inv,
    State.runCmd_inv, implies_true, hI]

theorem execMemOwnerWrite_inv (m : Master) (n : Fin 21) (w : Word) (s : State)
    (hI : s.Inv) : nextInv (execMemOwnerWrite m n w s) := by
  exact nextInv_next (by simp (maxDischargeDepth := 60) +contextual only [State.gate_inv, State.ownWrite_inv, implies_true, hI])

theorem execOwnershipDrainEnd_inv (n : Fin 21) (s : State)
    (hI : s.Inv) : nextInv (execOwnershipDrainEnd n s) := by
  exact nextInv_next (by simp (maxDischargeDepth := 60) +contextual only [State.drainEnd_inv, hI])

theorem execBankPowerRequest_inv (m : Master) (n : Fin 21) (w : Word) (s : State)
    (hI : s.Inv) : nextInv (execBankPowerRequest m n w s) := by
  exact nextInv_next (by simp (maxDischargeDepth := 60) +contextual only [State.gate_inv, State.pwrWrite_inv, implies_true, hI])

theorem execBankPowerDone_inv (n : Fin 21) (s : State)
    (hI : s.Inv) : nextInv (execBankPowerDone n s) := by
  exact nextInv_next (by simp (maxDischargeDepth := 60) +contextual only [State.bankDone_inv, hI])

theorem execScrubPass_inv (s : State)
    (hI : s.Inv) : nextInv (execScrubPass s) := by
  exact nextInv_next (by simp (maxDischargeDepth := 60) +contextual only [State.scrub_inv, hI])

theorem execEccWriteback_inv (s : State)
    (hI : s.Inv) : nextInv (execEccWriteback s) := by
  exact nextInv_next (by simp (maxDischargeDepth := 60) +contextual only [State.writeBack_inv, hI])

theorem execStarveTimeout_inv (s : State)
    (hI : s.Inv) : nextInv (execStarveTimeout s) := by
  exact nextInv_next (by simp (maxDischargeDepth := 60) +contextual only [State.count_inv, State.evtMem_inv, hI])

end Sys2Proof.Machine
end

