-- ==== Sys2Proof/Laws/InvRegOps.lean ====
section
/-!
SUPPORT. The canonical forms (State.Inv): each operation and meaning of Machine/RegOps.lean keeps them.
-/

namespace Sys2Proof.Machine

theorem State.regStore_inv (s : State) (a : Nat) (locked : Bool) (w : Nat)
    (hI : s.Inv) : (State.regStore s a locked w).Inv := by
  unfold State.regStore
  (repeat' split) <;> simp (maxDischargeDepth := 60) +contextual only [State.wrN_inv, hI]

end Sys2Proof.Machine
end

