-- ==== Sys2Proof/Laws/InvHif.lean ====
section
/-!
SUPPORT. The canonical forms (State.Inv): each operation and meaning of Machine/Hif.lean keeps them.
-/

namespace Sys2Proof.Machine

theorem State.evtHif_inv (s : State) (f : Fld)
    (hI : s.Inv) : (State.evtHif s f).Inv := by
  unfold State.evtHif
  simp (maxDischargeDepth := 60) +contextual only [State.evt_inv, hI]

theorem State.ringEnable_inv (s : State) (r : Nat)
    (hI : s.Inv) : (State.ringEnable s r).Inv := by
  unfold State.ringEnable
  simp (maxDischargeDepth := 60) +contextual only [State.setB_inv, State.setF_inv, State.wrN_inv, State.updRing_inv, ite_inv,
    hI]

theorem State.ringDisable_inv (s : State) (r : Nat)
    (hI : s.Inv) : (State.ringDisable s r).Inv := by
  unfold State.ringDisable
  simp (maxDischargeDepth := 60) +contextual only [State.setB_inv, State.setF_inv, State.sched_inv, ite_inv, hI]

theorem State.rcfgWrite_inv (s : State) (m : Master) (r w : Nat)
    (hI : s.Inv) : (State.rcfgWrite s m r w).Inv := by
  unfold State.rcfgWrite
  simp (maxDischargeDepth := 60) +contextual only [State.setB_inv, State.setF_inv, State.refuse_inv, State.ringEnable_inv,
    State.ringDisable_inv, ite_inv, hI]

theorem execRingEnable_inv (m : Master) (ring : Fin 32) (s : State)
    (hI : s.Inv) : nextInv (execRingEnable m ring s) := by
  exact nextInv_next (by simp (maxDischargeDepth := 60) +contextual only [State.gate_inv, State.rcfgWrite_inv, implies_true,
    hI])

theorem execRingDisable_inv (m : Master) (ring : Fin 32) (s : State)
    (hI : s.Inv) : nextInv (execRingDisable m ring s) := by
  exact nextInv_next (by simp (maxDischargeDepth := 60) +contextual only [State.gate_inv, State.rcfgWrite_inv, implies_true,
    hI])

theorem execRingStopDone_inv (ring : Fin 32) (s : State)
    (hI : s.Inv) : nextInv (execRingStopDone ring s) := by
  exact nextInv_next (by simp (maxDischargeDepth := 60) +contextual only [State.ringStopCheck_inv, hI])

theorem State.dmaError_inv (s : State) (r : Nat) (write : Bool) (cpl addr : Nat)
    (hI : s.Inv) : (State.dmaError s r write cpl addr).Inv := by
  unfold State.dmaError
  simp (maxDischargeDepth := 60) +contextual only [State.setF_inv, State.wrN_inv, State.evtHif_inv, ite_inv, hI]

theorem execDmaError_inv (ring : Fin 32) (write : Bool) (cpl : Byte) (addr : BitVec 64) (s : State)
    (hI : s.Inv) : nextInv (execDmaError ring write cpl addr s) := by
  exact nextInv_next (by simp (maxDischargeDepth := 60) +contextual only [State.dmaError_inv, hI])

theorem State.mailWake_inv (s : State) (r : Nat)
    (hI : s.Inv) : (State.mailWake s r).Inv := by
  unfold State.mailWake
  simp (maxDischargeDepth := 60) +contextual only [State.wake_inv, ite_inv, forN_inv, implies_true, hI]

theorem State.doorbell_inv (s : State) (r v : Nat) (slots : List Slot)
    (hI : s.Inv) : (State.doorbell s r v slots).Inv := by
  unfold State.doorbell
  simp (maxDischargeDepth := 60) +contextual only [State.setF_inv, State.updRing_inv, State.sched_inv, State.setB_inv,
    State.mailWake_inv, State.count_inv, State.evtHif_inv, ite_inv, hI]

theorem execRingDoorbell_inv (ring : Fin 32) (v : Word) (slots : List Slot) (s : State)
    (hI : s.Inv) : nextInv (execRingDoorbell ring v slots s) := by
  exact nextInv_next (by simp (maxDischargeDepth := 60) +contextual only [State.count_inv, State.doorbell_inv, ite_inv, hI])

theorem execCommandComplete_inv (cq : Fin 8) (s : State)
    (hI : s.Inv) : nextInv (execCommandComplete cq s) := by
  exact nextInv_next (by simp (maxDischargeDepth := 60) +contextual only [State.completeOne_inv, State.sched_inv, ite_inv, hI])

theorem execNop_inv (ring : Fin 8) (d : Desc) (s : State)
    (hI : s.Inv) : nextInv (execNop ring d s) := by
  exact nextInv_next (by simp (maxDischargeDepth := 60) +contextual only [State.runCmd_inv, ite_inv_fst, implies_true, hI])

theorem State.prkCmd_inv (s : State) (ring : Nat) (d : Desc) (c : Instr) (op : State → Option (State × Nat × Nat × Nat))
    (h_op : ∀ t r, t.Inv → op t = some r → r.1.Inv) (hI : s.Inv) : (State.prkCmd s ring d c op).Inv := by
  have h := State.cmdFetch_inv s ring hI
  unfold State.prkCmd
  split
  · exact State.cmdLater_inv _ _ _ hI
  · split
    · exact State.sched_inv _ _ _ hI
    · dsimp only
      split
      · exact State.finish_inv _ _ h
      · rename_i r hr
        exact State.portHold_inv _ _ _ _ _ (State.updHif_inv _ _ (h_op _ r h hr))

theorem portOps_inv {α : Type} (op : α → State → EdRes) (h_op : ∀ x t, t.Inv → (op x t).st.Inv) (l : List α) (p : PortRun)
    (hI : p.st.Inv) : (portOps op l p).st.Inv := by
  induction l generalizing p with
  | nil => exact hI
  | cons x t ih =>
    unfold portOps
    dsimp only
    split
    · exact ih _ (h_op _ _ hI)
    · exact h_op _ _ hI

theorem State.prkOps_inv {α : Type} (s : State) (d : Desc) (len : Bool) (op : α → State → EdRes)
    (h_op : ∀ x t, t.Inv → (op x t).st.Inv) (items : List α) (r : State × Nat × Nat × Nat) (hI : s.Inv)
    (hr : s.prkOps d len op items = some r) : r.1.Inv := by
  unfold State.prkOps at hr
  split at hr
  · cases hr
  · cases hr
    exact ite_inv (portOps_inv _ h_op _ _ hI) (State.emit_inv _ _ (portOps_inv _ h_op _ _ hI))

theorem execPrkRead_inv (ring : Fin 8) (d : Desc) (page : Fin 4) (idx cnt : Fin 65536) (s : State)
    (hI : s.Inv) : nextInv (execPrkRead ring d page idx cnt s) :=
  nextInv_next (State.prkCmd_inv _ _ _ _ _ (fun _ r ht hr => State.prkOps_inv _ _ _ _
    (fun _ _ hu => State.prkRead_inv _ _ _ hu) _ r ht hr) hI)

theorem execPrkWrite_inv (ring : Fin 8) (d : Desc) (page : Fin 4) (idx : Fin 65536) (entries : List (BitVec 128)) (s : State)
    (hI : s.Inv) : nextInv (execPrkWrite ring d page idx entries s) :=
  nextInv_next (State.prkCmd_inv _ _ _ _ _ (fun _ r ht hr => State.prkOps_inv _ _ _ _
    (fun _ _ hu => State.prkWrite_inv _ _ _ _ hu) _ r ht hr) hI)

theorem execPrkInsert_inv (ring : Fin 8) (d : Desc) (page : Fin 4) (entries : List (BitVec 128)) (s : State)
    (hI : s.Inv) : nextInv (execPrkInsert ring d page entries s) :=
  nextInv_next (State.prkCmd_inv _ _ _ _ _ (fun _ r ht hr => State.prkOps_inv _ _ _ _
    (fun _ _ hu => State.prkInsert_inv _ _ _ hu) _ r ht hr) hI)

theorem execPrkDelete_inv (ring : Fin 8) (d : Desc) (page : Fin 4) (idx cnt : Fin 65536) (s : State)
    (hI : s.Inv) : nextInv (execPrkDelete ring d page idx cnt s) :=
  nextInv_next (State.prkCmd_inv _ _ _ _ _ (fun _ r ht hr => State.prkOps_inv _ _ _ _
    (fun _ _ hu => State.prkDelete_inv _ _ _ hu) _ r ht hr) hI)

theorem execPrkClear_inv (ring : Fin 8) (d : Desc) (page : Fin 4) (s : State)
    (hI : s.Inv) : nextInv (execPrkClear ring d page s) :=
  nextInv_next (State.prkCmd_inv _ _ _ _ _ (fun _ r ht hr => by
    cases hr; exact State.prkClear_inv _ _ ht) hI)

theorem execPrkCommit_inv (ring : Fin 8) (d : Desc) (page : Fin 4) (s : State)
    (hI : s.Inv) : nextInv (execPrkCommit ring d page s) :=
  nextInv_next (State.prkCmd_inv _ _ _ _ _ (fun _ r ht hr => by
    cases hr; exact State.prkCommit_inv _ _ ht) hI)

theorem State.prkSwapCmd_inv (s : State) (ring : Nat) (d : Desc) (page : Nat) (c : Instr)
    (hI : s.Inv) : (State.prkSwapCmd s ring d page c).Inv := by
  unfold State.prkSwapCmd
  simp (maxDischargeDepth := 60) +contextual only [State.cmdLater_inv, State.sched_inv, State.cmdFetch_inv,
    State.swapReq_inv, State.updHif_inv, State.finish_inv, ite_inv, hI]

theorem execPrkSwap_inv (ring : Fin 8) (d : Desc) (page : Fin 4) (s : State)
    (hI : s.Inv) : nextInv (execPrkSwap ring d page s) := by
  exact nextInv_next (by simp (maxDischargeDepth := 60) +contextual only [State.prkSwapCmd_inv, hI])

theorem State.holdoffEnd_inv (s : State) (r : Nat)
    (hI : s.Inv) : (State.holdoffEnd s r).Inv := by
  unfold State.holdoffEnd
  simp (maxDischargeDepth := 60) +contextual only [State.updRing_inv, State.ringSignal_inv, ite_inv, hI]

theorem execIrqHoldoffEnd_inv (ring : Fin 32) (s : State)
    (hI : s.Inv) : nextInv (execIrqHoldoffEnd ring s) := by
  exact nextInv_next (by simp (maxDischargeDepth := 60) +contextual only [State.holdoffEnd_inv, hI])

theorem State.msixTake_inv (s : State) (vec : Nat)
    (hI : s.Inv) : (State.msixTake s vec).Inv := by
  unfold State.msixTake
  simp (maxDischargeDepth := 60) +contextual only [State.updHif_inv, State.msix_inv, ite_inv, hI]

theorem State.msixFlush_inv (s : State)
    (hI : s.Inv) : (State.msixFlush s).Inv := by
  unfold State.msixFlush
  simp (maxDischargeDepth := 60) +contextual only [State.msixTake_inv, forN_inv, implies_true, hI]

theorem State.msixEntry_inv (s : State) (vec : Nat) (masked : Bool) (addr : BitVec 64) (data : Word)
    (hI : s.Inv) : (State.msixEntry s vec masked addr data).Inv := by
  unfold State.msixEntry
  simp (maxDischargeDepth := 60) +contextual only [State.updHif_inv, State.msixTake_inv, hI]

theorem execMsixUnmask_inv (vec : Fin 64) (masked : Bool) (addr : BitVec 64) (data : Word) (s : State)
    (hI : s.Inv) : nextInv (execMsixUnmask vec masked addr data s) := by
  exact nextInv_next (by simp (maxDischargeDepth := 60) +contextual only [State.msixEntry_inv, hI])

theorem State.setMbox_inv (s : State) (k : Nat) (l : List (List Byte))
    (hI : s.Inv) : (State.setMbox s k l).Inv := by
  unfold State.setMbox
  simp (maxDischargeDepth := 60) +contextual only [State.updHif_inv, State.setF_inv, hI]

theorem State.mailFetch_inv (s : State) (k : Nat) (msg : List Byte)
    (hI : s.Inv) : (State.mailFetch s k msg).Inv := by
  unfold State.mailFetch
  simp (maxDischargeDepth := 60) +contextual only [State.ringAdvance_inv, State.updRing_inv, State.setMbox_inv, ite_inv, hI]

theorem execMailboxFetch_inv (k : Fin 4) (msg : List Byte) (s : State)
    (hI : s.Inv) : nextInv (execMailboxFetch k msg s) := by
  exact nextInv_next (by simp (maxDischargeDepth := 60) +contextual only [State.mailFetch_inv, hI])

theorem State.mailPop_inv (s : State) (k : Nat)
    (hI : s.Inv) : (State.mailPop s k).Inv := by
  unfold State.mailPop
  (repeat' split) <;> simp (maxDischargeDepth := 60) +contextual only [State.setMbox_inv, hI]

theorem execMailboxPop_inv (m : Master) (k : Fin 4) (s : State)
    (hI : s.Inv) : nextInv (execMailboxPop m k s) := by
  exact nextInv_next (by simp (maxDischargeDepth := 60) +contextual only [State.gate_inv, State.mailPop_inv, implies_true, hI])

theorem State.mailPost_inv (s : State) (k : Nat)
    (hI : s.Inv) : (State.mailPost s k).Inv := by
  unfold State.mailPost
  simp (maxDischargeDepth := 60) +contextual only [State.ringEntry_inv, State.setB_inv, State.count_inv, ite_inv, hI]

theorem execMailboxPost_inv (m : Master) (k : Fin 4) (s : State)
    (hI : s.Inv) : nextInv (execMailboxPost m k s) := by
  exact nextInv_next (by simp (maxDischargeDepth := 60) +contextual only [State.gate_inv, State.mailPost_inv, implies_true, hI])

theorem execPcieLinkDown_inv (s : State)
    (hI : s.Inv) : nextInv (execPcieLinkDown s) := by
  exact nextInv_next (by simp (maxDischargeDepth := 60) +contextual only [State.setB_inv, State.setF_inv, State.evtHif_inv,
    ite_inv, hI])

theorem execPcieLinkUp_inv (speed : Fin 16) (width : Fin 8) (s : State)
    (hI : s.Inv) : nextInv (execPcieLinkUp speed width s) := by
  exact nextInv_next (by simp (maxDischargeDepth := 60) +contextual only [State.setB_inv, State.setF_inv, hI])

theorem execPcieConfigWrite_inv (bme msixen d3hot : Bool) (s : State)
    (hI : s.Inv) : nextInv (execPcieConfigWrite bme msixen d3hot s) := by
  exact nextInv_next (by simp (maxDischargeDepth := 60) +contextual only [State.setB_inv, State.updHif_inv,
    State.msixFlush_inv, hI])

end Sys2Proof.Machine
end

