-- ==== Sys2Proof/Laws/InvSec.lean ====
section
/-!
SUPPORT. The canonical forms (State.Inv): each operation and meaning of Machine/Sec.lean keeps them.
-/

namespace Sys2Proof.Machine

theorem State.longEnd_inv (s : State) (result : Nat)
    (hI : s.Inv) : (State.longEnd s result).Inv := by
  unfold State.longEnd
  simp (maxDischargeDepth := 60) +contextual only [State.setF_inv, State.setB_inv, State.updBst_inv, State.msix_inv, ite_inv,
    hI]

theorem State.commitCut_inv (s : State)
    (hI : s.Inv) : (State.commitCut s).Inv := by
  unfold State.commitCut
  simp (maxDischargeDepth := 60) +contextual only [State.setMemBytes_inv, ite_inv, hI]

theorem State.evtSec_inv (s : State) (f : Fld)
    (hI : s.Inv) : (State.evtSec s f).Inv := by
  unfold State.evtSec
  simp (maxDischargeDepth := 60) +contextual only [State.evt_inv, hI]

theorem State.wipeStart_inv (s : State) (cause : Nat)
    (hI : s.Inv) : (State.wipeStart s cause).Inv := by
  unfold State.wipeStart
  simp (maxDischargeDepth := 60) +contextual only [State.setB_inv, State.setF_inv, State.count_inv, State.wrN_inv,
    State.evtSec_inv, State.commitCut_inv, State.longEnd_inv, ite_inv, hI]

theorem State.tamperForce_inv (s : State)
    (hI : s.Inv) : (State.tamperForce s).Inv := by
  unfold State.tamperForce
  simp (maxDischargeDepth := 60) +contextual only [State.setB_inv, ite_inv, hI]

theorem State.tampCfg_inv (s : State) (w : Nat)
    (hI : s.Inv) : (State.tampCfg s w).Inv := by
  unfold State.tampCfg
  simp (maxDischargeDepth := 60) +contextual only [State.regStore_inv, ite_inv, hI]

theorem State.tamper_inv (s : State) (lvl en ev : Fld) (cause : Nat) (ok : Bool)
    (hI : s.Inv) : (State.tamper s lvl en ev cause ok).Inv := by
  unfold State.tamper
  simp (maxDischargeDepth := 60) +contextual only [State.setB_inv, State.evtSec_inv, State.wipeStart_inv, ite_inv, hI]

theorem execTamperPin_inv (high : Bool) (s : State)
    (hI : s.Inv) : nextInv (execTamperPin high s) := by
  exact nextInv_next (by simp (maxDischargeDepth := 60) +contextual only [State.tamper_inv, hI])

theorem execVoltageTamper_inv (ok : Bool) (s : State)
    (hI : s.Inv) : nextInv (execVoltageTamper ok s) := by
  exact nextInv_next (by simp (maxDischargeDepth := 60) +contextual only [State.tamper_inv, hI])

theorem execClockTamper_inv (ok : Bool) (s : State)
    (hI : s.Inv) : nextInv (execClockTamper ok s) := by
  exact nextInv_next (by simp (maxDischargeDepth := 60) +contextual only [State.tamper_inv, hI])

theorem execSecureWipeDone_inv (s : State)
    (hI : s.Inv) : nextInv (execSecureWipeDone s) := by
  exact nextInv_next (by simp (maxDischargeDepth := 60) +contextual only [State.clearRange_inv, State.setB_inv, ite_inv, hI])

theorem State.thimbleRuns_inv (s : State)
    (hI : s.Inv) : (State.thimbleRuns s).Inv := by
  unfold State.thimbleRuns
  simp (maxDischargeDepth := 60) +contextual only [State.setB_inv, State.timer_inv, hI]

theorem execThimbleRestartDone_inv (s : State)
    (hI : s.Inv) : nextInv (execThimbleRestartDone s) := by
  exact nextInv_next (by simp (maxDischargeDepth := 60) +contextual only [State.setB_inv, State.thimbleRuns_inv, ite_inv, hI])

theorem State.nvmGo_inv (s : State)
    (hI : s.Inv) : (State.nvmGo s).Inv := by
  unfold State.nvmGo
  simp (maxDischargeDepth := 60) +contextual only [State.count_inv, State.evt_inv, State.setB_inv, State.updNvm_inv, ite_inv,
    hI]

theorem execNvmWriteGo_inv (m : Master) (s : State)
    (hI : s.Inv) : nextInv (execNvmWriteGo m s) := by
  exact nextInv_next (by simp (maxDischargeDepth := 60) +contextual only [State.gate_inv, State.nvmGo_inv, implies_true, hI])

theorem execMramLineWritten_inv (s : State)
    (hI : s.Inv) : nextInv (execMramLineWritten s) := by
  unfold execMramLineWritten
  refine nextInv_next ?_
  (repeat' split) <;> simp (maxDischargeDepth := 60) +contextual only [State.setMemBytes_inv, State.setB_inv, State.incr_inv,
    State.updNvm_inv, hI]

theorem State.setTb_inv (s : State) (b : Bool)
    (hI : s.Inv) : (State.setTb s b).Inv := by
  unfold State.setTb
  simp (maxDischargeDepth := 60) +contextual only [State.setB_inv, State.updEnerg_inv, hI]

theorem execTimebasePllLock_inv (s : State)
    (hI : s.Inv) : nextInv (execTimebasePllLock s) := by
  exact nextInv_next (by simp (maxDischargeDepth := 60) +contextual only [State.setTb_inv, State.fltEnd_inv, hI])

theorem execTimebasePllLoss_inv (s : State)
    (hI : s.Inv) : nextInv (execTimebasePllLoss s) := by
  exact nextInv_next (by simp (maxDischargeDepth := 60) +contextual only [State.setTb_inv, State.setB_inv, State.raise_inv, hI])

theorem execCorePllLoss_inv (s : State)
    (hI : s.Inv) : nextInv (execCorePllLoss s) := by
  exact nextInv_next (by simp (maxDischargeDepth := 60) +contextual only [State.setB_inv, State.raise_inv, hI])

theorem execCorePllLock_inv (s : State)
    (hI : s.Inv) : nextInv (execCorePllLock s) := by
  exact nextInv_next (by simp (maxDischargeDepth := 60) +contextual only [State.setB_inv, State.fltEnd_inv, hI])

theorem execPcieRefLoss_inv (s : State)
    (hI : s.Inv) : nextInv (execPcieRefLoss s) := by
  exact nextInv_next (by simp (maxDischargeDepth := 60) +contextual only [State.setB_inv, hI])

theorem execPcieRefDetect_inv (s : State)
    (hI : s.Inv) : nextInv (execPcieRefDetect s) := by
  exact nextInv_next (by simp (maxDischargeDepth := 60) +contextual only [State.setB_inv, hI])

theorem execSupplyMonitorTrip_inv (rail : Fin 9) (s : State)
    (hI : s.Inv) : nextInv (execSupplyMonitorTrip rail s) := by
  exact nextInv_next (by simp (maxDischargeDepth := 60) +contextual only [State.setB_inv, State.raise_inv, ite_inv, hI])

end Sys2Proof.Machine
end

