-- ==== Sys2Proof/Laws/InvImage.lean ====
section
/-!
SUPPORT. The canonical forms (State.Inv): each operation and meaning of Machine/Image.lean keeps them.
-/

namespace Sys2Proof.Machine

theorem State.thimbleLine_inv (s : State) (a : Nat) (bs : List Byte)
    (hI : s.Inv) : (State.thimbleLine s a bs).Inv := by
  unfold State.thimbleLine
  simp (maxDischargeDepth := 60) +contextual only [State.setMemBytes_inv, State.wrN_inv, ite_inv, hI]

theorem State.writePref_inv (s : State) (pref trial : Bool) (tries : Nat)
    (hI : s.Inv) : (State.writePref s pref trial tries).Inv := by
  unfold State.writePref
  simp (maxDischargeDepth := 60) +contextual only [State.thimbleLine_inv, hI]

theorem State.bistRun_inv (s : State) (run : Nat) (lb mb : Bool) (fails : List BistFail)
    (hI : s.Inv) : (State.bistRun s run lb mb fails).Inv := by
  unfold State.bistRun
  (repeat' split) <;> simp (maxDischargeDepth := 60) +contextual only [State.incr_inv, State.thimbleLine_inv, State.wrN_inv,
    State.setB_inv, State.countN_inv, State.evt_inv, State.evtMem_inv, forL_inv, implies_true, hI]

theorem State.loadEngine_inv (s : State) (b : List Byte) (e : Nat)
    (hI : s.Inv) : (State.loadEngine s b e).Inv := by
  unfold State.loadEngine
  simp (maxDischargeDepth := 60) +contextual only [State.setMemBytes_inv, State.setB_inv, ite_inv, forL_inv, implies_true, hI]

theorem State.engKill_inv (s : State) (e : Nat)
    (hI : s.Inv) : (State.engKill s e).Inv := by
  unfold State.engKill
  simp (maxDischargeDepth := 60) +contextual only [State.setB_inv, State.wrN_inv, State.setSlotState_inv, State.updEng_inv,
    forN_inv, implies_true, hI]

theorem State.demandStart_inv (s : State)
    (hI : s.Inv) : (State.demandStart s).Inv := by
  unfold State.demandStart
  simp (maxDischargeDepth := 60) +contextual only [State.engKill_inv, State.streamOwnStop_inv, State.setB_inv, forN_inv,
    implies_true, hI]

theorem State.demandEnd_inv (s : State) (arg : Nat) (fails : List BistFail)
    (hI : s.Inv) : (State.demandEnd s arg fails).Inv := by
  unfold State.demandEnd
  simp (maxDischargeDepth := 60) +contextual only [State.clearRange_inv, State.bistRun_inv, ite_inv, forL_inv, implies_true, hI]

theorem State.longStart_inv (s : State) (w : Nat)
    (hI : s.Inv) : (State.longStart s w).Inv := by
  unfold State.longStart
  simp (maxDischargeDepth := 60) +contextual only [State.count_inv, State.setF_inv, State.longEnd_inv, State.setB_inv,
    State.updBst_inv, State.demandStart_inv, State.wipeStart_inv, ite_inv, hI]

theorem State.commitEnd_inv (s : State) (arg : Nat)
    (hI : s.Inv) : (State.commitEnd s arg).Inv := by
  unfold State.commitEnd
  simp (maxDischargeDepth := 60) +contextual only [State.longEnd_inv, State.thimbleLine_inv, State.writePref_inv, ite_inv, hI]

theorem State.showFuses_inv (s : State)
    (hI : s.Inv) : (State.showFuses s).Inv := by
  unfold State.showFuses
  simp (maxDischargeDepth := 60) +contextual only [State.setF_inv, State.setB_inv, State.tamperForce_inv, hI]

theorem State.advanceEnd_inv (s : State)
    (hI : s.Inv) : (State.advanceEnd s).Inv := by
  unfold State.advanceEnd
  simp (maxDischargeDepth := 60) +contextual only [State.updBst_inv, State.showFuses_inv, State.wipeStart_inv,
    State.longEnd_inv, hI]

theorem State.fuseEnd_inv (s : State) (arg : Nat)
    (hI : s.Inv) : (State.fuseEnd s arg).Inv := by
  unfold State.fuseEnd
  simp (maxDischargeDepth := 60) +contextual only [State.updBst_inv, State.longEnd_inv, ite_inv, hI]

theorem State.longDone_inv (s : State) (fails : List BistFail)
    (hI : s.Inv) : (State.longDone s fails).Inv := by
  unfold State.longDone
  (repeat' split) <;> simp (maxDischargeDepth := 60) +contextual only [State.commitEnd_inv, State.advanceEnd_inv,
    State.fuseEnd_inv, State.demandEnd_inv, State.longEnd_inv, State.free_inv, hI]

theorem execLongopComplete_inv (fails : List BistFail) (s : State)
    (hI : s.Inv) : nextInv (execLongopComplete fails s) := by
  exact nextInv_next (by simp (maxDischargeDepth := 60) +contextual only [State.longDone_inv, hI])

theorem State.hostLong_inv (s : State) (op : Nat)
    (hI : s.Inv) : (State.hostLong s op).Inv := by
  unfold State.hostLong
  simp (maxDischargeDepth := 60) +contextual only [State.loaderGate_inv, State.longStart_inv, implies_true, hI]

theorem execMramImageCommit_inv (s : State)
    (hI : s.Inv) : nextInv (execMramImageCommit s) := by
  exact nextInv_next (by simp (maxDischargeDepth := 60) +contextual only [State.hostLong_inv, hI])

theorem execLifecycleAdvance_inv (s : State)
    (hI : s.Inv) : nextInv (execLifecycleAdvance s) := by
  exact nextInv_next (by simp (maxDischargeDepth := 60) +contextual only [State.hostLong_inv, hI])

theorem execFuseProgram_inv (s : State)
    (hI : s.Inv) : nextInv (execFuseProgram s) := by
  exact nextInv_next (by simp (maxDischargeDepth := 60) +contextual only [State.hostLong_inv, hI])

theorem execOnDemandBist_inv (s : State)
    (hI : s.Inv) : nextInv (execOnDemandBist s) := by
  exact nextInv_next (by simp (maxDischargeDepth := 60) +contextual only [State.hostLong_inv, hI])

theorem execSecureWipe_inv (s : State)
    (hI : s.Inv) : nextInv (execSecureWipe s) := by
  exact nextInv_next (by simp (maxDischargeDepth := 60) +contextual only [State.hostLong_inv, hI])

end Sys2Proof.Machine
end

