-- ==== Sys2Proof/Laws/InvBoot.lean ====
section
/-!
SUPPORT. The canonical forms (State.Inv): each operation and meaning of Machine/Boot.lean keeps them.
-/

namespace Sys2Proof.Machine

theorem State.lineFinish_inv (s : State)
    (hI : s.Inv) : (State.lineFinish s).Inv := by
  unfold State.lineFinish
  (repeat' split) <;> simp (maxDischargeDepth := 60) +contextual only [State.setMemBytes_inv, State.incr_inv,
    State.updNvm_inv, hI]

theorem State.sampleAfresh_inv (s : State) (fb : Nat)
    (hI : s.Inv) : (State.sampleAfresh s fb).Inv := by
  unfold State.sampleAfresh
  simp (maxDischargeDepth := 60) +contextual only [State.wrN_inv, State.pinAssert_inv, State.bsuvInput_inv, forL_inv,
    implies_true, hI]

theorem State.powerReset_inv (s : State) (kind : BootKind) (at_ : BootAt) (cause : Nat) (hI : s.Inv) :
    (State.powerReset s kind at_ cause).Inv := by
  have h := State.lineFinish_inv _ (State.commitCut_inv _ hI)
  unfold State.powerReset
  refine State.sampleAfresh_inv _ _ (State.wrN_inv _ _ _ (State.wrN_inv _ _ _ ?_))
  exact ⟨reset_inv.1, Sparse.wf_filter memReset _ h.2⟩

theorem execPowerOnReset_inv (s : State)
    (hI : s.Inv) : nextInv (execPowerOnReset s) := by
  exact nextInv_next (by simp (maxDischargeDepth := 60) +contextual only [State.powerReset_inv, hI])

theorem execPerstReset_inv (s : State)
    (hI : s.Inv) : nextInv (execPerstReset s) := by
  exact nextInv_next (by simp (maxDischargeDepth := 60) +contextual only [State.powerReset_inv, hI])

theorem execPowerDown_inv (s : State)
    (hI : s.Inv) : nextInv (execPowerDown s) := by
  exact nextInv_next (by simp (maxDischargeDepth := 60) +contextual only [State.powerReset_inv, hI])

theorem State.legRest_inv (s : State) (n : Nat)
    (hI : s.Inv) : (State.legRest s n).Inv := by
  unfold State.legRest
  simp (maxDischargeDepth := 60) +contextual only [State.setB_inv, State.setF_inv, State.legHalt_inv, State.legSafe_inv, hI]

theorem State.bankWarm_inv (s : State) (n was : Nat) (wakeRet : Bool)
    (hI : s.Inv) : (State.bankWarm s n was wakeRet).Inv := by
  unfold State.bankWarm
  simp (maxDischargeDepth := 60) +contextual only [State.setPstate_inv, State.bankTo_inv, ite_inv, hI]

theorem State.warmReset_inv (s : State) (kind : BootKind) (cause : Nat)
    (hI : s.Inv) : (State.warmReset s kind cause).Inv := by
  unfold State.warmReset
  simp (maxDischargeDepth := 60) +contextual only [State.commitCut_inv, State.lineFinish_inv, State.ctrlStop_inv,
    State.wrN_inv, State.setB_inv, State.clearRange_inv, State.setF_inv, State.bankWarm_inv, State.legRest_inv,
    State.lanesRestart_inv, State.pllCheck_inv, State.phuWarm_inv, State.prkWarm_inv, State.rdnEnter_inv, State.updFlt_inv,
    State.updBst_inv, State.celStatus_inv, State.masterWatch_inv, inv_mk, ite_inv, regs_wf, mem_wf, Sparse.wf_filter,
    forL_inv, forN_inv, and_self, implies_true, hI]

theorem State.resetWrite_inv (s : State) (m : Master) (w : Nat)
    (hI : s.Inv) : (State.resetWrite s m w).Inv := by
  unfold State.resetWrite
  simp (maxDischargeDepth := 60) +contextual only [State.refuse_inv, State.warmReset_inv, ite_inv, hI]

theorem execWarmReset_inv (m : Master) (w : Word) (s : State)
    (hI : s.Inv) : nextInv (execWarmReset m w s) := by
  exact nextInv_next (by simp (maxDischargeDepth := 60) +contextual only [State.loaderGate_inv, State.resetWrite_inv,
    implies_true, hI])

theorem execThimbleWatchdogReset_inv (s : State)
    (hI : s.Inv) : nextInv (execThimbleWatchdogReset s) := by
  exact nextInv_next (by simp (maxDischargeDepth := 60) +contextual only [State.warmReset_inv, ite_inv, hI])

theorem State.logResolve_inv (s : State)
    (hI : s.Inv) : (State.logResolve s).Inv := by
  unfold State.logResolve
  dsimp only
  (repeat' split) <;> simp (maxDischargeDepth := 60) +contextual only [State.countN_inv, State.evt_inv, State.wrN_inv,
    State.setF_inv, State.updFlt_inv, hI]

theorem State.fusesLoad_inv (s : State)
    (hI : s.Inv) : (State.fusesLoad s).Inv := by
  unfold State.fusesLoad
  simp (maxDischargeDepth := 60) +contextual only [State.updBst_inv, State.showFuses_inv, State.setF_inv, hI]

theorem State.stampCheck_inv (s : State)
    (hI : s.Inv) : (State.stampCheck s).Inv := by
  unfold State.stampCheck
  simp (maxDischargeDepth := 60) +contextual only [State.setF_inv, State.thimbleLine_inv, State.setB_inv, State.wrN_inv,
    ite_inv, hI]

theorem State.bootFirst_inv (s : State)
    (hI : s.Inv) : (State.bootFirst s).1.Inv := by
  unfold State.bootFirst
  simp (maxDischargeDepth := 60) +contextual only [State.writePref_inv, ite_inv_fst, hI]

theorem State.bootImage_inv (s : State) (img : Bool) (b : List Byte) (alt : Bool)
    (hI : s.Inv) : (State.bootImage s img b alt).Inv := by
  unfold State.bootImage
  simp (maxDischargeDepth := 60) +contextual only [State.setB_inv, State.loadEngine_inv, State.wrN_inv, State.setF_inv,
    State.updRdn_inv, State.thimbleRuns_inv, State.updBst_inv, State.evt_inv, ite_inv, forN_inv, implies_true, hI]

theorem State.bootSelect_inv (s : State)
    (hI : s.Inv) : (State.bootSelect s).Inv := by
  unfold State.bootSelect
  dsimp only
  (repeat' split) <;> simp (maxDischargeDepth := 60) +contextual only [State.bootFirst_inv, State.bootImage_inv,
    State.setB_inv, State.updBst_inv, hI]

theorem State.thimbleBoot_inv (s : State)
    (hI : s.Inv) : (State.thimbleBoot s).Inv := by
  unfold State.thimbleBoot
  simp (maxDischargeDepth := 60) +contextual only [State.fusesLoad_inv, State.bootSelect_inv, State.logResolve_inv,
    State.ageRestore_inv, State.stampCheck_inv, State.setF_inv, ite_inv, hI]

theorem execThimbleBoot_inv (s : State)
    (hI : s.Inv) : nextInv (execThimbleBoot s) := by
  exact nextInv_next (by simp (maxDischargeDepth := 60) +contextual only [State.thimbleBoot_inv, ite_inv, hI])

theorem State.readySet_inv (s : State) (fails : List BistFail)
    (hI : s.Inv) : (State.readySet s fails).Inv := by
  unfold State.readySet
  simp (maxDischargeDepth := 60) +contextual only [State.bistRun_inv, State.setB_inv, State.setF_inv, State.updBst_inv,
    State.updEnerg_inv, ite_inv, hI]

theorem execReadySet_inv (fails : List BistFail) (s : State)
    (hI : s.Inv) : nextInv (execReadySet fails s) := by
  exact nextInv_next (by simp (maxDischargeDepth := 60) +contextual only [State.readySet_inv, ite_inv, hI])

theorem State.bootCfg_inv (s : State) (m : Master) (w : Nat)
    (hI : s.Inv) : (State.bootCfg s m w).Inv := by
  unfold State.bootCfg
  simp (maxDischargeDepth := 60) +contextual only [State.refuse_inv, State.writePref_inv, ite_inv, hI]

theorem execBootConfirm_inv (s : State)
    (hI : s.Inv) : nextInv (execBootConfirm s) := by
  exact nextInv_next (by simp (maxDischargeDepth := 60) +contextual only [State.gate_inv, State.bootCfg_inv, implies_true, hI])

theorem execBootSelect_inv (m : Master) (sel : Bool) (s : State)
    (hI : s.Inv) : nextInv (execBootSelect m sel s) := by
  exact nextInv_next (by simp (maxDischargeDepth := 60) +contextual only [State.gate_inv, State.bootCfg_inv, implies_true, hI])

theorem State.shutdownCmd_inv (s : State) (m : Master) (w : Nat)
    (hI : s.Inv) : (State.shutdownCmd s m w).Inv := by
  unfold State.shutdownCmd
  simp (maxDischargeDepth := 60) +contextual only [State.refuse_inv, State.setB_inv, State.selvTrip_inv, State.sched_inv,
    ite_inv, hI]

theorem execShutdownStart_inv (s : State)
    (hI : s.Inv) : nextInv (execShutdownStart s) := by
  exact nextInv_next (by simp (maxDischargeDepth := 60) +contextual only [State.gate_inv, State.shutdownCmd_inv,
    implies_true, hI])

theorem State.linksOff_inv (s : State)
    (hI : s.Inv) : (State.linksOff s).Inv := by
  unfold State.linksOff
  simp (maxDischargeDepth := 60) +contextual only [State.ethCtrl_inv, State.laneDisable_inv, State.pllCheck_inv, forN_inv,
    implies_true, hI]

theorem execShutdownPadHold_inv (s : State)
    (hI : s.Inv) : nextInv (execShutdownPadHold s) := by
  exact nextInv_next (by simp (maxDischargeDepth := 60) +contextual only [State.updSelv_inv, State.linksOff_inv,
    State.ageSave_inv, State.setB_inv, ite_inv, hI])

theorem State.fifoCommit_inv (s : State)
    (hI : s.Inv) : (State.fifoCommit s).Inv := by
  unfold State.fifoCommit
  simp (maxDischargeDepth := 60) +contextual only [State.commitRec_inv, State.updFlt_inv, State.fifoAfter_inv, forL_inv,
    implies_true, hI]

theorem State.shutdownEnd_inv (s : State) (fails : List BistFail)
    (hI : s.Inv) : (State.shutdownEnd s fails).Inv := by
  unfold State.shutdownEnd
  simp (maxDischargeDepth := 60) +contextual only [State.fifoCommit_inv, State.bistRun_inv, State.thimbleLine_inv,
    State.setB_inv, inv_mk, regs_wf, mem_wf, and_self, hI]

theorem execShutdownBistDone_inv (fails : List BistFail) (s : State)
    (hI : s.Inv) : nextInv (execShutdownBistDone fails s) := by
  exact nextInv_next (by simp (maxDischargeDepth := 60) +contextual only [State.shutdownEnd_inv, ite_inv, hI])

theorem State.quietEnter_inv (s : State)
    (hI : s.Inv) : (State.quietEnter s).Inv := by
  unfold State.quietEnter
  simp (maxDischargeDepth := 60) +contextual only [State.setB_inv, State.setF_inv, State.incr_inv, State.updBst_inv,
    State.legRest_inv, State.engCtrl_inv, State.laneDisable_inv, State.ageSave_inv, forN_inv, implies_true, hI]

theorem State.quietBank_inv (s : State) (n : Nat)
    (hI : s.Inv) : (State.quietBank s n).Inv := by
  unfold State.quietBank
  simp (maxDischargeDepth := 60) +contextual only [State.unsched_inv, State.setGo_inv, State.bankTo_inv, State.setPstate_inv,
    State.bankLost_inv, ite_inv, hI]

theorem State.quietWake_inv (s : State) (src : Nat)
    (hI : s.Inv) : (State.quietWake s src).Inv := by
  unfold State.quietWake
  simp (maxDischargeDepth := 60) +contextual only [State.setF_inv, State.updBst_inv, State.bankReq_inv, State.sched_inv,
    forN_inv, implies_true, hI]

theorem State.wakeEvent_inv (s : State) (src : Nat)
    (hI : s.Inv) : (State.wakeEvent s src).Inv := by
  unfold State.wakeEvent
  simp (maxDischargeDepth := 60) +contextual only [State.updBst_inv, State.quietWake_inv, State.setF_inv, ite_inv, hI]

theorem State.quietCmd_inv (s : State) (m : Master) (w : Nat)
    (hI : s.Inv) : (State.quietCmd s m w).Inv := by
  unfold State.quietCmd
  simp (maxDischargeDepth := 60) +contextual only [State.refuse_inv, State.setB_inv, State.quietEnter_inv,
    State.wakeEvent_inv, ite_inv, hI]

theorem execQuietEnter_inv (s : State)
    (hI : s.Inv) : nextInv (execQuietEnter s) := by
  exact nextInv_next (by simp (maxDischargeDepth := 60) +contextual only [State.gate_inv, State.quietCmd_inv, implies_true, hI])

theorem execQuietWakeCmd_inv (s : State)
    (hI : s.Inv) : nextInv (execQuietWakeCmd s) := by
  exact nextInv_next (by simp (maxDischargeDepth := 60) +contextual only [State.gate_inv, State.quietCmd_inv, implies_true, hI])

theorem State.quietEntered_inv (s : State)
    (hI : s.Inv) : (State.quietEntered s).Inv := by
  unfold State.quietEntered
  simp (maxDischargeDepth := 60) +contextual only [State.setF_inv, State.setB_inv, State.quietBank_inv, State.quietWake_inv,
    ite_inv, forN_inv, implies_true, hI]

theorem execQuietEntryDone_inv (s : State)
    (hI : s.Inv) : nextInv (execQuietEntryDone s) := by
  exact nextInv_next (by simp (maxDischargeDepth := 60) +contextual only [State.quietEntered_inv, ite_inv, hI])

theorem execWakePin_inv (s : State)
    (hI : s.Inv) : nextInv (execWakePin s) := by
  exact nextInv_next (by simp (maxDischargeDepth := 60) +contextual only [State.wakeEvent_inv, ite_inv, hI])

theorem State.quietAwake_inv (s : State)
    (hI : s.Inv) : (State.quietAwake s).Inv := by
  unfold State.quietAwake
  simp (maxDischargeDepth := 60) +contextual only [State.setF_inv, State.setB_inv, State.loadEngine_inv, State.engCtrl_inv,
    State.laneEnable_inv, State.rdnEnter_inv, State.updRdn_inv, State.updBst_inv, ite_inv, forL_inv, implies_true, hI]

theorem execQuietAwake_inv (s : State)
    (hI : s.Inv) : nextInv (execQuietAwake s) := by
  exact nextInv_next (by simp (maxDischargeDepth := 60) +contextual only [State.quietAwake_inv, ite_inv, hI])

theorem execNtmAlarm_inv (s : State)
    (hI : s.Inv) : nextInv (execNtmAlarm s) := by
  exact nextInv_next (by simp (maxDischargeDepth := 60) +contextual only [State.setB_inv, State.evtNtm_inv,
    State.wakeEvent_inv, ite_inv, hI])

theorem State.tapPins_inv (s : State) (n : Nat) (high on : Bool)
    (hI : s.Inv) : (State.tapPins s n high on).Inv := by
  unfold State.tapPins
  simp (maxDischargeDepth := 60) +contextual only [State.setBit_inv, State.emit_inv, ite_inv, hI]

theorem State.tapInstr_inv (s : State) (ir : TapIr)
    (hI : s.Inv) : (State.tapInstr s ir).Inv := by
  unfold State.tapInstr
  simp (maxDischargeDepth := 60) +contextual only [State.updBst_inv, State.tapPins_inv, State.emit_inv, ite_inv, forN_inv,
    implies_true, hI]

theorem execTapInstruction_inv (ir : TapIr) (s : State)
    (hI : s.Inv) : nextInv (execTapInstruction ir s) := by
  exact nextInv_next (by simp (maxDischargeDepth := 60) +contextual only [State.tapInstr_inv, hI])

theorem State.bistAbort_inv (s : State)
    (hI : s.Inv) : (State.bistAbort s).Inv := by
  unfold State.bistAbort
  simp (maxDischargeDepth := 60) +contextual only [State.wrN_inv, ite_inv, hI]

theorem State.thermalHalt_inv (s : State)
    (hI : s.Inv) : (State.thermalHalt s).Inv := by
  unfold State.thermalHalt
  simp (maxDischargeDepth := 60) +contextual only [State.bistAbort_inv, State.linksOff_inv, State.updSelv_inv,
    State.setB_inv, State.updFlt_inv, State.updFifo_inv, State.updEnerg_inv, State.updThm_inv, inv_mk, regs_wf, mem_wf,
    and_self, hI]

theorem execThermalHalt_inv (s : State)
    (hI : s.Inv) : nextInv (execThermalHalt s) := by
  exact nextInv_next (by simp (maxDischargeDepth := 60) +contextual only [State.thermalHalt_inv, ite_inv, hI])

theorem execThermalRestart_inv (s : State)
    (hI : s.Inv) : nextInv (execThermalRestart s) := by
  exact nextInv_next (by simp (maxDischargeDepth := 60) +contextual only [State.powerReset_inv, ite_inv, hI])

end Sys2Proof.Machine
end

