-- ==== Sys2Proof/Laws/InvRegs.lean ====
section
/-!
SUPPORT. The canonical forms (State.Inv): each operation and meaning of Machine/Regs.lean keeps them.
-/

namespace Sys2Proof.Machine

theorem State.pairHi_inv (s : State) (m : Master) (a w : Nat)
    (hI : s.Inv) : (State.pairHi s m a w).Inv := by
  unfold State.pairHi
  simp (maxDischargeDepth := 60) +contextual only [State.hold_inv, hI]

theorem State.pairLo_inv (s : State) (m : Master) (lo w : Nat)
    (hI : s.Inv) : (State.pairLo s m lo w).Inv := by
  unfold State.pairLo
  simp (maxDischargeDepth := 60) +contextual only [State.wrN_inv, State.unhold_inv, State.regStore_inv, hI]

theorem State.clrMax_inv (s : State) (a lo width w : Nat)
    (hI : s.Inv) : (State.clrMax s a lo width w).Inv := by
  unfold State.clrMax
  simp (maxDischargeDepth := 60) +contextual only [State.setF_inv, ite_inv, hI]

theorem State.writeGlb_inv (s : State) (m : Master) (a w : Nat)
    (hI : s.Inv) : (State.writeGlb s m a w).Inv := by
  unfold State.writeGlb
  simp (maxDischargeDepth := 60) +contextual only [State.startGate_inv, State.glbCtrl_inv, State.resetWrite_inv,
    State.longStart_inv, State.refuse_inv, State.regStore_inv, ite_inv, implies_true, hI]

theorem State.writeSec_inv (s : State) (a w : Nat)
    (hI : s.Inv) : (State.writeSec s a w).Inv := by
  unfold State.writeSec
  simp (maxDischargeDepth := 60) +contextual only [State.tampCfg_inv, State.regStore_inv, ite_inv, hI]

theorem State.writeHif_inv (s : State) (m : Master) (a w : Nat)
    (hI : s.Inv) : (State.writeHif s m a w).Inv := by
  unfold State.writeHif
  simp (maxDischargeDepth := 60) +contextual only [State.pairLo_inv, State.refuse_inv, State.pairHi_inv, State.rcfgWrite_inv,
    State.mailPop_inv, State.mailPost_inv, State.regStore_inv, ite_inv, hI]

theorem State.writeHoop_inv (s : State) (a w : Nat)
    (hI : s.Inv) : (State.writeHoop s a w).Inv := by
  unfold State.writeHoop
  simp (maxDischargeDepth := 60) +contextual only [State.hoopCtrl_inv, State.h0Nom_inv, State.h1AngleWrite_inv,
    State.regStore_inv, ite_inv, hI]

theorem State.writePrk_inv (s : State) (m : Master) (a w : Nat)
    (hI : s.Inv) : (State.writePrk s m a w).Inv := by
  unfold State.writePrk
  simp (maxDischargeDepth := 60) +contextual only [State.prkCtrl_inv, State.swapReq_inv, State.edCmd_inv, State.clrMax_inv,
    State.regStore_inv, ite_inv, hI]

theorem State.writeNtm_inv (s : State) (m : Master) (a w : Nat)
    (hI : s.Inv) : (State.writeNtm s m a w).Inv := by
  unfold State.writeNtm
  simp (maxDischargeDepth := 60) +contextual only [State.ntmCtrl_inv, State.regStore_inv, State.masterArm_inv,
    State.holdCheck_inv, State.pairHi_inv, State.ntmIncWrite_inv, State.pairLo_inv, State.masterId_inv, State.masterPort_inv,
    State.ntmAdj_inv, State.ntmAdjCtl_inv, State.ppsOfs_inv, ite_inv, hI]

theorem State.writeEth_inv (s : State) (m : Master) (a w : Nat)
    (hI : s.Inv) : (State.writeEth s m a w).Inv := by
  unfold State.writeEth
  simp (maxDischargeDepth := 60) +contextual only [State.ethCtrl_inv, State.pllCheck_inv, State.masterWatch_inv,
    State.prpCfg_inv, State.pairHi_inv, State.pairLo_inv, State.regStore_inv, ite_inv, hI]

theorem State.writeEng_inv (s : State) (m : Master) (e a w : Nat)
    (hI : s.Inv) : (State.writeEng s m e a w).Inv := by
  unfold State.writeEng
  simp (maxDischargeDepth := 60) +contextual only [State.startGate_inv, State.engCtrl_inv, State.bobWake_inv,
    State.bobKick_inv, State.slotCfg_inv, State.clrMax_inv, State.regStore_inv, ite_inv, implies_true, hI]

theorem State.writeBob_inv (s : State) (m : Master) (a w : Nat)
    (hI : s.Inv) : (State.writeBob s m a w).Inv := by
  unfold State.writeBob
  simp (maxDischargeDepth := 60) +contextual only [State.writeEng_inv, hI]

theorem State.writeThb_inv (s : State) (m : Master) (a w : Nat)
    (hI : s.Inv) : (State.writeThb s m a w).Inv := by
  unfold State.writeThb
  (repeat' split) <;> simp (maxDischargeDepth := 60) +contextual only [State.refuse_inv, State.bwdCfg_inv,
    State.regStore_inv, hI]

theorem State.writeStch_inv (s : State) (a w : Nat)
    (hI : s.Inv) : (State.writeStch s a w).Inv := by
  unfold State.writeStch
  simp (maxDischargeDepth := 60) +contextual only [State.stitchCtrl_inv, State.phCfg_inv, State.stitchLocked_inv,
    State.clrMax_inv, State.regStore_inv, ite_inv, hI]

theorem State.writeTat_inv (s : State) (a w : Nat)
    (hI : s.Inv) : (State.writeTat s a w).Inv := by
  unfold State.writeTat
  simp (maxDischargeDepth := 60) +contextual only [State.clrMax_inv, State.regStore_inv, ite_inv, hI]

theorem State.writeLane_inv (s : State) (m : Master) (l a w : Nat)
    (hI : s.Inv) : (State.writeLane s m l a w).Inv := by
  unfold State.writeLane
  simp (maxDischargeDepth := 60) +contextual only [State.startGate_inv, State.lnkCtrl_inv, State.lnkPrbs_inv, State.setF_inv,
    State.eyeStart_inv, State.wrN_inv, State.prbsFold_inv, State.regStore_inv, ite_inv, implies_true, hI]

theorem State.writeLnk_inv (s : State) (m : Master) (a w : Nat)
    (hI : s.Inv) : (State.writeLnk s m a w).Inv := by
  unfold State.writeLnk
  simp (maxDischargeDepth := 60) +contextual only [State.writeLane_inv, hI]

theorem State.writeCel_inv (s : State) (m : Master) (a w : Nat)
    (hI : s.Inv) : (State.writeCel s m a w).Inv := by
  unfold State.writeCel
  simp (maxDischargeDepth := 60) +contextual only [State.enumGo_inv, State.regStore_inv, State.celStatus_inv,
    State.slotIdle_inv, ite_inv, hI]

theorem State.writeAdc_inv (s : State) (a w : Nat)
    (hI : s.Inv) : (State.writeAdc s a w).Inv := by
  unfold State.writeAdc
  simp (maxDischargeDepth := 60) +contextual only [State.adcCtrl_inv, State.refSelect_inv, State.adcInj_inv, State.seqSw_inv,
    State.urgentReq_inv, State.scCfg_inv, State.regStore_inv, State.wcUpdate_inv, State.fctrl_inv, ite_inv, hI]

theorem State.writePhu_inv (s : State) (a w : Nat)
    (hI : s.Inv) : (State.writePhu s a w).Inv := by
  unfold State.writePhu
  simp (maxDischargeDepth := 60) +contextual only [State.phuCtrl_inv, State.phuLocked_inv, State.clrMax_inv,
    State.regStore_inv, ite_inv, hI]

theorem State.writeTwu_inv (s : State) (a w : Nat)
    (hI : s.Inv) : (State.writeTwu s a w).Inv := by
  unfold State.writeTwu
  simp (maxDischargeDepth := 60) +contextual only [State.twuCtrl_inv, State.twuLocked_inv, State.twLocate_inv,
    State.regStore_inv, ite_inv, hI]

theorem State.pwmCfg_inv (s : State) (n w : Nat)
    (hI : s.Inv) : (State.pwmCfg s n w).Inv := by
  unfold State.pwmCfg
  simp (maxDischargeDepth := 60) +contextual only [State.selvCfgRef_inv, State.evtLeg_inv, State.regStore_inv,
    State.legSafe_inv, ite_inv, hI]

theorem State.writePwmLeg_inv (s : State) (m : Master) (n a w : Nat)
    (hI : s.Inv) : (State.writePwmLeg s m n a w).Inv := by
  unfold State.writePwmLeg
  simp (maxDischargeDepth := 60) +contextual only [State.gstart_inv, State.commitPair_inv, State.startGate_inv,
    State.legEnable_inv, State.legDisable_inv, State.pwmCfg_inv, State.regStore_inv, ite_inv, implies_true, hI]

theorem State.writePwm_inv (s : State) (m : Master) (a w : Nat)
    (hI : s.Inv) : (State.writePwm s m a w).Inv := by
  unfold State.writePwm
  simp (maxDischargeDepth := 60) +contextual only [State.writePwmLeg_inv, hI]

theorem State.writeSelv_inv (s : State) (a w : Nat)
    (hI : s.Inv) : (State.writeSelv s a w).Inv := by
  unfold State.writeSelv
  simp (maxDischargeDepth := 60) +contextual only [State.selvClear_inv, State.selvForce_inv, State.selvCfgRef_inv,
    State.regStore_inv, State.selvRecheck_inv, ite_inv, hI]

theorem State.fltSource_inv (s : State) (m : Master) (n a w : Nat)
    (hI : s.Inv) : (State.fltSource s m n a w).Inv := by
  unfold State.fltSource
  simp (maxDischargeDepth := 60) +contextual only [State.refuse_inv, State.regStore_inv, State.eccMeet_inv, ite_inv, hI]

theorem State.fltTable_inv (s : State) (m : Master) (a w : Nat)
    (hI : s.Inv) : (State.fltTable s m a w).Inv := by
  unfold State.fltTable
  simp (maxDischargeDepth := 60) +contextual only [State.fltSource_inv, hI]

theorem State.causeClear_inv (s : State) (a w : Nat)
    (hI : s.Inv) : (State.causeClear s a w).Inv := by
  unfold State.causeClear
  simp (maxDischargeDepth := 60) +contextual only [State.regStore_inv, State.updFlt_inv, State.setB_inv, hI]

theorem State.writeFlt_inv (s : State) (m : Master) (a w : Nat)
    (hI : s.Inv) : (State.writeFlt s m a w).Inv := by
  unfold State.writeFlt
  simp (maxDischargeDepth := 60) +contextual only [State.fltTable_inv, State.refuse_inv, State.regStore_inv,
    State.writeHold_inv, State.fltRelease_inv, State.inject_inv, State.armEcc_inv, State.logClear_inv, State.causeClear_inv,
    State.clearEsc_inv, State.releaseCell_inv, ite_inv, hI]

theorem State.writeThm_inv (s : State) (a w : Nat)
    (hI : s.Inv) : (State.writeThm s a w).Inv := by
  unfold State.writeThm
  simp (maxDischargeDepth := 60) +contextual only [State.thmCtrl_inv, State.thmAck_inv, State.thmScfg_inv,
    State.regStore_inv, ite_inv, hI]

theorem State.writeAge_inv (s : State) (a w : Nat)
    (hI : s.Inv) : (State.writeAge s a w).Inv := by
  unfold State.writeAge
  simp (maxDischargeDepth := 60) +contextual only [State.regStore_inv, State.setB_inv, State.cellRst_inv, State.wrN_inv,
    ite_inv, hI]

theorem State.writeMem_inv (s : State) (m : Master) (a w : Nat)
    (hI : s.Inv) : (State.writeMem s m a w).Inv := by
  unfold State.writeMem
  simp (maxDischargeDepth := 60) +contextual only [State.ownWrite_inv, State.pwrWrite_inv, State.regStore_inv, ite_inv, hI]

theorem State.writeBst_inv (s : State) (m : Master) (a w : Nat)
    (hI : s.Inv) : (State.writeBst s m a w).Inv := by
  unfold State.writeBst
  simp (maxDischargeDepth := 60) +contextual only [State.bootCfg_inv, State.shutdownCmd_inv, State.quietCmd_inv,
    State.regStore_inv, ite_inv, hI]

theorem State.writeRdn_inv (s : State) (m : Master) (a w : Nat)
    (hI : s.Inv) : (State.writeRdn s m a w).Inv := by
  unfold State.writeRdn
  simp (maxDischargeDepth := 60) +contextual only [State.rdnCtrl_inv, State.regStore_inv, ite_inv, hI]

theorem State.regWrite_inv (s : State) (m : Master) (a w : Nat)
    (hI : s.Inv) : (State.regWrite s m a w).Inv := by
  unfold State.regWrite
  (repeat' split) <;> simp (maxDischargeDepth := 60) +contextual only [State.writeGlb_inv, State.writeSec_inv,
    State.writeHif_inv, State.writeHoop_inv, State.writePrk_inv, State.writeNtm_inv, State.writeEth_inv, State.writeBob_inv,
    State.writeThb_inv, State.writeStch_inv, State.writeTat_inv, State.writeLnk_inv, State.writeCel_inv, State.writeAdc_inv,
    State.writePhu_inv, State.writeTwu_inv, State.writePwm_inv, State.writeSelv_inv, State.writeFlt_inv, State.writeThm_inv,
    State.writeAge_inv, State.writeMem_inv, State.nvmGo_inv, State.regStore_inv, State.writeBst_inv, State.writeRdn_inv, hI]

theorem State.busWrite_inv (s : State) (m : Master) (a size w : Nat)
    (hI : s.Inv) : (State.busWrite s m a size w).Inv := by
  unfold State.busWrite
  simp (maxDischargeDepth := 60) +contextual only [State.refuse_inv, State.regWrite_inv, ite_inv, hI]

theorem State.writeGate_inv (s : State) (m : Master) (a : Nat) (op : State → State)
    (h_op : ∀ t, t.Inv → (op t).Inv) (hI : s.Inv) : (State.writeGate s m a op).Inv := by
  unfold State.writeGate
  simp (maxDischargeDepth := 60) +contextual only [State.loaderGate_inv, State.gate_inv, ite_inv, implies_true, hI, h_op]

theorem execRegisterWrite_inv (m : Master) (a : BitVec 20) (size : Fin 9) (v : Word) (s : State)
    (hI : s.Inv) : nextInv (execRegisterWrite m a size v s) := by
  exact nextInv_next (by simp (maxDischargeDepth := 60) +contextual only [State.writeGate_inv, State.busWrite_inv,
    implies_true, hI])

theorem State.regRead_inv (s : State) (m : Master) (a : Nat)
    (hI : s.Inv) : (State.regRead s m a).2.Inv := by
  unfold State.regRead
  simp (maxDischargeDepth := 60) +contextual only [State.capture_inv, forL_inv, implies_true, hI]

theorem State.busRead_inv (s : State) (m : Master) (a size : Nat)
    (hI : s.Inv) : (State.busRead s m a size).2.Inv := by
  unfold State.busRead
  simp (maxDischargeDepth := 60) +contextual only [State.regRead_inv, hI]

theorem State.readReg_inv (s : State) (m : Master) (a size : Nat)
    (hI : s.Inv) : (State.readReg s m a size).Inv := by
  unfold State.readReg
  simp (maxDischargeDepth := 60) +contextual only [State.setRdata_inv, State.busRead_inv, ite_inv, hI]

theorem execPairLoRead_inv (m : Master) (a : BitVec 20) (size : Fin 9) (s : State)
    (hI : s.Inv) : nextInv (execPairLoRead m a size s) := by
  exact nextInv_next (by simp (maxDischargeDepth := 60) +contextual only [State.readReg_inv, hI])

theorem execNtmTimeNsRead_inv (m : Master) (pps : Bool) (s : State)
    (hI : s.Inv) : nextInv (execNtmTimeNsRead m pps s) := by
  exact nextInv_next (by simp (maxDischargeDepth := 60) +contextual only [State.readReg_inv, hI])

end Sys2Proof.Machine
end

