-- ==== Sys2Proof/Laws/InvEngine.lean ====
section
/-!
SUPPORT. The canonical forms (State.Inv): each operation and meaning of Machine/Engine.lean keeps them.
-/

namespace Sys2Proof.Machine

theorem State.updCtx_inv (s : State) (e : Nat) (f : SlotSt → SlotSt)
    (hI : s.Inv) : (State.updCtx s e f).Inv := by
  unfold State.updCtx
  simp (maxDischargeDepth := 60) +contextual only [State.updSlot_inv, hI]

theorem State.setX_inv (s : State) (e r v : Nat)
    (hI : s.Inv) : (State.setX s e r v).Inv := by
  unfold State.setX
  simp (maxDischargeDepth := 60) +contextual only [State.updCtx_inv, ite_inv, hI]

theorem State.setFr_inv (s : State) (e r v : Nat)
    (hI : s.Inv) : (State.setFr s e r v).Inv := by
  unfold State.setFr
  simp (maxDischargeDepth := 60) +contextual only [State.updCtx_inv, hI]

theorem State.addFlags_inv (s : State) (e flags : Nat)
    (hI : s.Inv) : (State.addFlags s e flags).Inv := by
  unfold State.addFlags
  simp (maxDischargeDepth := 60) +contextual only [State.updCtx_inv, hI]

theorem State.occupy_inv (s : State) (e issue : Nat)
    (hI : s.Inv) : (State.occupy s e issue).Inv := by
  unfold State.occupy
  simp (maxDischargeDepth := 60) +contextual only [State.updEng_inv, hI]

theorem State.stallTo_inv (s : State) (e c : Nat)
    (hI : s.Inv) : (State.stallTo s e c).Inv := by
  unfold State.stallTo
  simp (maxDischargeDepth := 60) +contextual only [State.updEng_inv, hI]

theorem State.stallTick_inv (s : State) (e : Nat)
    (hI : s.Inv) : (State.stallTick s e).Inv := by
  unfold State.stallTick
  simp (maxDischargeDepth := 60) +contextual only [State.stallTo_inv, hI]

theorem State.avail_inv (s : State) (e r lat mac : Nat)
    (hI : s.Inv) : (State.avail s e r lat mac).Inv := by
  unfold State.avail
  simp (maxDischargeDepth := 60) +contextual only [State.updEng_inv, ite_inv, hI]

theorem State.retire_inv (s : State) (e pc issue : Nat)
    (hI : s.Inv) : (State.retire s e pc issue).Inv := by
  unfold State.retire
  simp (maxDischargeDepth := 60) +contextual only [State.updCtx_inv, State.updEng_inv, State.occupy_inv, hI]

theorem State.retireJump_inv (s : State) (e pc : Nat)
    (hI : s.Inv) : (State.retireJump s e pc).Inv := by
  unfold State.retireJump
  simp (maxDischargeDepth := 60) +contextual only [State.retire_inv, State.updEng_inv, hI]

theorem State.retireX_inv (s : State) (e len rd v lat mac issue : Nat)
    (hI : s.Inv) : (State.retireX s e len rd v lat mac issue).Inv := by
  unfold State.retireX
  simp (maxDischargeDepth := 60) +contextual only [State.setX_inv, State.avail_inv, State.retire_inv, hI]

theorem State.retireF_inv (s : State) (e len rd v lat issue : Nat)
    (hI : s.Inv) : (State.retireF s e len rd v lat issue).Inv := by
  unfold State.retireF
  simp (maxDischargeDepth := 60) +contextual only [State.setFr_inv, State.avail_inv, State.retire_inv, hI]

theorem State.insFault_inv (s : State) (e cause addr : Nat)
    (hI : s.Inv) : (State.insFault s e cause addr).Inv := by
  unfold State.insFault
  simp (maxDischargeDepth := 60) +contextual only [State.slotAbort_inv, hI]

theorem State.pwrAcc_inv (s : State) (off : Option Nat)
    (hI : s.Inv) : (State.pwrAcc s off).Inv := by
  unfold State.pwrAcc
  (repeat' split) <;> simp (maxDischargeDepth := 60) +contextual only [State.evtMem_inv, hI]

theorem State.issue_inv (s : State) (e : Fin 16) (row : Instr) (act : Ins → Nat → State → State)
    (h_act : ∀ x0 x1 t, t.Inv → (act x0 x1 t).Inv) (hI : s.Inv) : (State.issue s e row act).Inv := by
  unfold State.issue
  (repeat' split) <;> simp (maxDischargeDepth := 60) +contextual only [State.pwrAcc_inv, State.insFault_inv,
    State.autoWake_inv, State.stallTick_inv, State.updEng_inv, State.stallTo_inv, State.eccRead_inv, hI, h_act]

theorem State.retireAlu_inv (s : State) (e len rd v : Nat) (f : Alu)
    (hI : s.Inv) : (State.retireAlu s e len rd v f).Inv := by
  unfold State.retireAlu
  simp (maxDischargeDepth := 60) +contextual only [State.free_inv, State.retireX_inv, ite_inv, hI]

theorem State.retireFop_inv (s : State) (e len rd rs1 rs2 rm : Nat) (f : Fop)
    (hI : s.Inv) : (State.retireFop s e len rd rs1 rs2 rm f).Inv := by
  unfold State.retireFop
  (repeat' split) <;> simp (maxDischargeDepth := 60) +contextual only [State.addFlags_inv, State.retireX_inv,
    State.retireF_inv, hI]

theorem State.baseStep_inv (s : State) (e : Nat) (i : Ins) (len : Nat)
    (hI : s.Inv) : (State.baseStep s e i len).Inv := by
  unfold State.baseStep
  (repeat' split) <;> simp (maxDischargeDepth := 60) +contextual only [State.retireX_inv, State.setX_inv,
    State.retireJump_inv, State.retire_inv, State.retireAlu_inv, State.addFlags_inv, State.retireF_inv, State.retireFop_inv, hI]

theorem execEngineBaseInstruction_inv (e : Fin 16) (s : State)
    (hI : s.Inv) : nextInv (execEngineBaseInstruction e s) := by
  exact nextInv_next (by simp (maxDischargeDepth := 60) +contextual only [State.issue_inv, State.baseStep_inv, implies_true,
    hI])

theorem State.fenceStep_inv (s : State) (e len : Nat)
    (hI : s.Inv) : (State.fenceStep s e len).Inv := by
  unfold State.fenceStep
  simp (maxDischargeDepth := 60) +contextual only [State.retire_inv, State.stallTick_inv, ite_inv, hI]

theorem execFence_inv (e : Fin 16) (s : State)
    (hI : s.Inv) : nextInv (execFence e s) := by
  exact nextInv_next (by simp (maxDischargeDepth := 60) +contextual only [State.issue_inv, State.fenceStep_inv, implies_true,
    hI])

theorem State.fenceIStep_inv (s : State) (e len : Nat)
    (hI : s.Inv) : (State.fenceIStep s e len).Inv := by
  unfold State.fenceIStep
  simp (maxDischargeDepth := 60) +contextual only [State.updEng_inv, State.retire_inv, State.stallTick_inv, ite_inv, hI]

theorem execFenceI_inv (e : Fin 16) (s : State)
    (hI : s.Inv) : nextInv (execFenceI e s) := by
  exact nextInv_next (by simp (maxDischargeDepth := 60) +contextual only [State.issue_inv, State.fenceIStep_inv,
    implies_true, hI])

theorem State.waitStep_inv (s : State) (e rd len : Nat)
    (hI : s.Inv) : (State.waitStep s e rd len).Inv := by
  unfold State.waitStep
  simp (maxDischargeDepth := 60) +contextual only [State.updEng_inv, State.slotWait_inv, hI]

theorem execWfi_inv (e : Fin 16) (s : State)
    (hI : s.Inv) : nextInv (execWfi e s) := by
  exact nextInv_next (by simp (maxDischargeDepth := 60) +contextual only [State.issue_inv, State.waitStep_inv, implies_true,
    hI])

theorem execEcall_inv (e : Fin 16) (s : State)
    (hI : s.Inv) : nextInv (execEcall e s) := by
  exact nextInv_next (by simp (maxDischargeDepth := 60) +contextual only [State.issue_inv, State.insFault_inv, implies_true,
    hI])

theorem execEbreak_inv (e : Fin 16) (s : State)
    (hI : s.Inv) : nextInv (execEbreak e s) := by
  exact nextInv_next (by simp (maxDischargeDepth := 60) +contextual only [State.issue_inv, State.insFault_inv, implies_true,
    hI])

theorem execIllegalInstruction_inv (e : Fin 16) (s : State)
    (hI : s.Inv) : nextInv (execIllegalInstruction e s) := by
  exact nextInv_next (by simp (maxDischargeDepth := 60) +contextual only [State.issue_inv, State.insFault_inv, implies_true,
    hI])

theorem State.csrRead_inv (s : State) (e n : Nat)
    (hI : s.Inv) : (State.csrRead s e n).2.Inv := by
  unfold State.csrRead
  (repeat' split) <;> simp (maxDischargeDepth := 60) +contextual only [State.capture_inv, hI]

theorem State.csrWrite_inv (s : State) (e n v : Nat)
    (hI : s.Inv) : (State.csrWrite s e n v).Inv := by
  unfold State.csrWrite
  simp (maxDischargeDepth := 60) +contextual only [State.updCtx_inv, hI]

theorem State.csrStep_inv (s : State) (e kind rd src n len : Nat)
    (hI : s.Inv) : (State.csrStep s e kind rd src n len).Inv := by
  unfold State.csrStep
  simp (maxDischargeDepth := 60) +contextual only [State.csrRead_inv, State.csrWrite_inv, State.retireX_inv, ite_inv,
    ite_inv_snd, hI]

theorem execCsrAccess_inv (e : Fin 16) (s : State) (hI : s.Inv) : nextInv (execCsrAccess e s) := by
  refine nextInv_next (State.issue_inv _ _ _ _ (fun i len t ht => ?_) hI)
  split <;> simp (maxDischargeDepth := 60) +contextual only [State.csrStep_inv, ht]

theorem State.loadData_inv (s : State) (e a n : Nat)
    (hI : s.Inv) : (State.loadData s e a n).2.Inv := by
  unfold State.loadData
  simp (maxDischargeDepth := 60) +contextual only [State.busRead_inv, State.eccRead_inv, ite_inv_snd, hI]

theorem State.loadStep_inv (s : State) (e given n : Nat) (fin : Nat → Nat → State → State)
    (h_fin : ∀ x0 x1 t, t.Inv → (fin x0 x1 t).Inv) (hI : s.Inv) : (State.loadStep s e given n fin).Inv := by
  unfold State.loadStep
  dsimp only
  (repeat' split) <;> simp (maxDischargeDepth := 60) +contextual only [State.stallTick_inv, State.pwrAcc_inv,
    State.insFault_inv, State.autoWake_inv, State.loadData_inv, hI, h_fin]

theorem execLoad_inv (e : Fin 16) (s : State) (hI : s.Inv) : nextInv (execLoad e s) := by
  refine nextInv_next (State.issue_inv _ _ _ _ (fun i len t ht => ?_) hI)
  split <;> simp (maxDischargeDepth := 60) +contextual only [State.loadStep_inv, State.retireX_inv, State.retireF_inv, implies_true, ht]

theorem State.post_inv (s : State) (e given n v : Nat)
    (hI : s.Inv) : (State.post s e given n v).Inv := by
  unfold State.post
  simp (maxDischargeDepth := 60) +contextual only [State.updEng_inv, State.sched_inv, hI]

theorem State.storeStep_inv (s : State) (e given n v len : Nat)
    (hI : s.Inv) : (State.storeStep s e given n v len).Inv := by
  unfold State.storeStep
  (repeat' split) <;> simp (maxDischargeDepth := 60) +contextual only [State.stallTick_inv, State.insFault_inv,
    State.pwrAcc_inv, State.post_inv, State.retire_inv, hI]

theorem State.storeIns_inv (s : State) (e : Nat) (i : Ins) (len : Nat)
    (hI : s.Inv) : (State.storeIns s e i len).Inv := by
  unfold State.storeIns
  (repeat' split) <;> simp (maxDischargeDepth := 60) +contextual only [State.storeStep_inv, hI]

theorem execStore_inv (e : Fin 16) (s : State)
    (hI : s.Inv) : nextInv (execStore e s) := by
  exact nextInv_next (by simp (maxDischargeDepth := 60) +contextual only [State.issue_inv, State.storeIns_inv, implies_true,
    hI])

theorem execAliasBitSet_inv (e : Fin 16) (s : State)
    (hI : s.Inv) : nextInv (execAliasBitSet e s) := by
  exact nextInv_next (by simp (maxDischargeDepth := 60) +contextual only [State.issue_inv, State.storeIns_inv, implies_true,
    hI])

theorem execAliasBitClear_inv (e : Fin 16) (s : State)
    (hI : s.Inv) : nextInv (execAliasBitClear e s) := by
  exact nextInv_next (by simp (maxDischargeDepth := 60) +contextual only [State.issue_inv, State.storeIns_inv, implies_true,
    hI])

theorem State.storeBytes_inv (s : State) (p : Posted)
    (hI : s.Inv) : (State.storeBytes s p).Inv := by
  unfold State.storeBytes
  (repeat' split) <;> simp (maxDischargeDepth := 60) +contextual only [State.setMemBytes_inv, forL_inv, implies_true, hI]

theorem State.storeFault_inv (s : State) (e : Nat) (p : Posted) (cause : Nat)
    (hI : s.Inv) : (State.storeFault s e p cause).Inv := by
  unfold State.storeFault
  simp (maxDischargeDepth := 60) +contextual only [State.slotAbort_inv, State.abortInfo_inv, State.setB_inv,
    State.updSlot_inv, State.afterRun_inv, State.raiseD_inv, ite_inv, hI]

theorem State.acceptStore_inv (s : State) (e : Nat)
    (hI : s.Inv) : (State.acceptStore s e).Inv := by
  unfold State.acceptStore
  (repeat' split) <;> simp (maxDischargeDepth := 60) +contextual only [State.updEng_inv, State.autoWake_inv, State.sched_inv,
    State.pwrAcc_inv, State.storeFault_inv, State.busWrite_inv, State.storeBytes_inv, hI]

theorem State.acceptNext_inv (s : State) (e : Nat)
    (hI : s.Inv) : (State.acceptNext s e).Inv := by
  unfold State.acceptNext
  (repeat' split) <;> simp (maxDischargeDepth := 60) +contextual only [State.schedAt_inv, hI]

theorem execPostedStoreAccepted_inv (e : Fin 16) (s : State)
    (hI : s.Inv) : nextInv (execPostedStoreAccepted e s) := by
  exact nextInv_next (by simp (maxDischargeDepth := 60) +contextual only [State.acceptStore_inv, State.acceptNext_inv, hI])

end Sys2Proof.Machine
end

