-- ==== Sys2Proof/Laws/InvXvarul.lean ====
section
/-!
SUPPORT. The canonical forms (State.Inv): each operation and meaning of Machine/Xvarul.lean keeps them.
-/

namespace Sys2Proof.Machine

theorem State.retireXv_inv (s : State) (e len rd v : Nat) (f : Xop)
    (hI : s.Inv) : (State.retireXv s e len rd v f).Inv := by
  unfold State.retireXv
  simp (maxDischargeDepth := 60) +contextual only [State.retireX_inv, hI]

theorem State.xvStep_inv (s : State) (e : Nat) (i : Ins) (len : Nat) (f : Nat → Nat → Nat → Nat)
    (hI : s.Inv) : (State.xvStep s e i len f).Inv := by
  unfold State.xvStep
  (repeat' split) <;> simp (maxDischargeDepth := 60) +contextual only [State.retireXv_inv, hI]

theorem execVaDiff_inv (e : Fin 16) (s : State)
    (hI : s.Inv) : nextInv (execVaDiff e s) := by
  exact nextInv_next (by simp (maxDischargeDepth := 60) +contextual only [State.issue_inv, State.xvStep_inv, implies_true, hI])

theorem execVaLt_inv (e : Fin 16) (s : State)
    (hI : s.Inv) : nextInv (execVaLt e s) := by
  exact nextInv_next (by simp (maxDischargeDepth := 60) +contextual only [State.issue_inv, State.xvStep_inv, implies_true, hI])

theorem execVaBtw_inv (e : Fin 16) (s : State) (hI : s.Inv) : nextInv (execVaBtw e s) := by
  refine nextInv_next (State.issue_inv _ _ _ _ (fun i len t ht => ?_) hI)
  split <;> simp (maxDischargeDepth := 60) +contextual only [State.retireX_inv, ht]

theorem execVqMacq31_inv (e : Fin 16) (s : State)
    (hI : s.Inv) : nextInv (execVqMacq31 e s) := by
  exact nextInv_next (by simp (maxDischargeDepth := 60) +contextual only [State.issue_inv, State.xvStep_inv, implies_true, hI])

theorem execVqMulq31_inv (e : Fin 16) (s : State)
    (hI : s.Inv) : nextInv (execVqMulq31 e s) := by
  exact nextInv_next (by simp (maxDischargeDepth := 60) +contextual only [State.issue_inv, State.xvStep_inv, implies_true, hI])

theorem execVqMacq15_inv (e : Fin 16) (s : State)
    (hI : s.Inv) : nextInv (execVqMacq15 e s) := by
  exact nextInv_next (by simp (maxDischargeDepth := 60) +contextual only [State.issue_inv, State.xvStep_inv, implies_true, hI])

theorem execVqRndq15_inv (e : Fin 16) (s : State)
    (hI : s.Inv) : nextInv (execVqRndq15 e s) := by
  exact nextInv_next (by simp (maxDischargeDepth := 60) +contextual only [State.issue_inv, State.xvStep_inv, implies_true, hI])

theorem execVsAdd2_inv (e : Fin 16) (s : State)
    (hI : s.Inv) : nextInv (execVsAdd2 e s) := by
  exact nextInv_next (by simp (maxDischargeDepth := 60) +contextual only [State.issue_inv, State.xvStep_inv, implies_true, hI])

theorem execVsSub2_inv (e : Fin 16) (s : State)
    (hI : s.Inv) : nextInv (execVsSub2 e s) := by
  exact nextInv_next (by simp (maxDischargeDepth := 60) +contextual only [State.issue_inv, State.xvStep_inv, implies_true, hI])

theorem execVsMac2_inv (e : Fin 16) (s : State)
    (hI : s.Inv) : nextInv (execVsMac2 e s) := by
  exact nextInv_next (by simp (maxDischargeDepth := 60) +contextual only [State.issue_inv, State.xvStep_inv, implies_true, hI])

theorem execVsMul2_inv (e : Fin 16) (s : State)
    (hI : s.Inv) : nextInv (execVsMul2 e s) := by
  exact nextInv_next (by simp (maxDischargeDepth := 60) +contextual only [State.issue_inv, State.xvStep_inv, implies_true, hI])

theorem State.cordic_inv (s : State) (w acc : Nat) (x : Int)
    (hI : s.Inv) : (State.cordic s w acc x).2.Inv := by
  unfold State.cordic
  simp (maxDischargeDepth := 60) +contextual only [State.free_inv, ite_inv_snd, hI]

theorem State.vcStep_inv (s : State) (e : Nat) (i : Ins) (len : Nat) (f : Nat → State → Nat × State)
    (h_f : ∀ x0 t, t.Inv → (f x0 t).2.Inv) (hI : s.Inv) : (State.vcStep s e i len f).Inv := by
  unfold State.vcStep
  (repeat' split) <;> simp (maxDischargeDepth := 60) +contextual only [State.stallTo_inv, State.updEng_inv,
    State.retireXv_inv, ite_inv, hI, h_f]

theorem State.vcOne_inv (s : State) (x : Int)
    (hI : s.Inv) : (State.vcOne s x).2.Inv := by
  unfold State.vcOne
  simp (maxDischargeDepth := 60) +contextual only [State.cordic_inv, hI]

theorem execVcSin_inv (e : Fin 16) (s : State)
    (hI : s.Inv) : nextInv (execVcSin e s) := by
  exact nextInv_next (by simp (maxDischargeDepth := 60) +contextual only [State.issue_inv, State.vcStep_inv, State.vcOne_inv,
    implies_true, hI])

theorem execVcCos_inv (e : Fin 16) (s : State)
    (hI : s.Inv) : nextInv (execVcCos e s) := by
  exact nextInv_next (by simp (maxDischargeDepth := 60) +contextual only [State.issue_inv, State.vcStep_inv, State.vcOne_inv,
    implies_true, hI])

theorem State.sinCos_inv (s : State) (c v : Int) (hI : s.Inv) : (State.sinCos s c v).2.Inv := by
  have h1 := State.cordic_inv s 16 1 c hI
  have h2 := State.cordic_inv _ 16 1 v h1
  exact h2

theorem execVcSc_inv (e : Fin 16) (s : State)
    (hI : s.Inv) : nextInv (execVcSc e s) := by
  exact nextInv_next (by simp (maxDischargeDepth := 60) +contextual only [State.issue_inv, State.vcStep_inv,
    State.sinCos_inv, implies_true, hI])

theorem State.vrRead_inv (s : State) (e sel : Nat)
    (hI : s.Inv) : (State.vrRead s e sel).2.Inv := by
  unfold State.vrRead
  (repeat' split) <;> simp (maxDischargeDepth := 60) +contextual only [State.capture_inv, hI]

theorem execVrRd_inv (e : Fin 16) (s : State) (hI : s.Inv) : nextInv (execVrRd e s) := by
  refine nextInv_next (State.issue_inv _ _ _ _ (fun i len t ht => ?_) hI)
  split <;> simp (maxDischargeDepth := 60) +contextual only [State.retireX_inv, State.vrRead_inv, ht]

theorem execWaitslot_inv (e : Fin 16) (s : State) (hI : s.Inv) : nextInv (execWaitslot e s) := by
  refine nextInv_next (State.issue_inv _ _ _ _ (fun i len t ht => ?_) hI)
  split <;> simp (maxDischargeDepth := 60) +contextual only [State.waitStep_inv, ht]

theorem State.vtLoadStep_inv (s : State) (e : Nat) (i : Ins) (len n : Nat) (v : Nat → Nat)
    (hI : s.Inv) : (State.vtLoadStep s e i len n v).Inv := by
  unfold State.vtLoadStep
  (repeat' split) <;> simp (maxDischargeDepth := 60) +contextual only [State.insFault_inv, State.stallTick_inv,
    State.retireX_inv, ite_inv, hI]

theorem State.vtStoreStep_inv (s : State) (e : Nat) (i : Ins) (len n : Nat)
    (hI : s.Inv) : (State.vtStoreStep s e i len n).Inv := by
  unfold State.vtStoreStep
  (repeat' split) <;> simp (maxDischargeDepth := 60) +contextual only [State.insFault_inv, State.stallTick_inv,
    State.post_inv, State.retire_inv, hI]

theorem execVtLh_inv (e : Fin 16) (s : State)
    (hI : s.Inv) : nextInv (execVtLh e s) := by
  exact nextInv_next (by simp (maxDischargeDepth := 60) +contextual only [State.issue_inv, State.vtLoadStep_inv,
    implies_true, hI])

theorem execVtLw_inv (e : Fin 16) (s : State)
    (hI : s.Inv) : nextInv (execVtLw e s) := by
  exact nextInv_next (by simp (maxDischargeDepth := 60) +contextual only [State.issue_inv, State.vtLoadStep_inv,
    implies_true, hI])

theorem execVtLhu_inv (e : Fin 16) (s : State)
    (hI : s.Inv) : nextInv (execVtLhu e s) := by
  exact nextInv_next (by simp (maxDischargeDepth := 60) +contextual only [State.issue_inv, State.vtLoadStep_inv,
    implies_true, hI])

theorem execVtSh_inv (e : Fin 16) (s : State)
    (hI : s.Inv) : nextInv (execVtSh e s) := by
  exact nextInv_next (by simp (maxDischargeDepth := 60) +contextual only [State.issue_inv, State.vtStoreStep_inv,
    implies_true, hI])

theorem execVtSw_inv (e : Fin 16) (s : State)
    (hI : s.Inv) : nextInv (execVtSw e s) := by
  exact nextInv_next (by simp (maxDischargeDepth := 60) +contextual only [State.issue_inv, State.vtStoreStep_inv,
    implies_true, hI])

end Sys2Proof.Machine
end

