-- ==== Sys2Proof/Laws/InvStep.lean ====
section
/-!
SUPPORT. The canonical forms (State.Inv): each operation and meaning of Machine/Step.lean keeps them.
-/

namespace Sys2Proof.Machine

theorem State.push_inv (s : State) (cs : List Instr)
    (hI : s.Inv) : (State.push s cs).Inv := by
  unfold State.push
  simp (maxDischargeDepth := 60) +contextual only [inv_mk, regs_wf, mem_wf, and_self, hI]

theorem State.dropDue_inv (s : State)
    (hI : s.Inv) : (State.dropDue s).Inv := by
  unfold State.dropDue
  simp (maxDischargeDepth := 60) +contextual only [inv_mk, regs_wf, mem_wf, and_self, hI]

theorem State.deliver_inv (s : State)
    (hI : s.Inv) : (State.deliver s).Inv := by
  unfold State.deliver
  simp (maxDischargeDepth := 60) +contextual only [State.prkDispatch_inv, State.dropDue_inv, State.push_inv, hI]

theorem State.nextTick_inv (s : State)
    (hI : s.Inv) : (State.nextTick s).Inv := by
  unfold State.nextTick
  simp (maxDischargeDepth := 60) +contextual only [State.hoopTick_inv, State.ntmTick_inv, State.phuStep_inv,
    State.phuTick_inv, State.sarTick_inv, State.fastTick_inv, State.txPass_inv, State.yieldPass_inv, State.saveTick_inv,
    inv_mk, ite_inv, regs_wf, mem_wf, and_self, hI]

theorem State.idle_inv (s : State)
    (hI : s.Inv) : (State.idle s).Inv := by
  unfold State.idle
  simp (maxDischargeDepth := 60) +contextual only [State.deliver_inv, State.push_inv, State.nextTick_inv, ite_inv, hI]

theorem State.withFetchWord_inv (s : State) (nbits w : Nat)
    (hI : s.Inv) : (State.withFetchWord s nbits w).Inv := by
  unfold State.withFetchWord
  (repeat' split) <;> simp (maxDischargeDepth := 60) +contextual only [inv_mk, regs_wf, mem_wf, and_self, hI]

end Sys2Proof.Machine
end

