-- ==== Sys2Proof/Laws/Legs.lean ====
section
/-!
SUPPORT. The gate outputs of the legs: which operations leave a side's commanded level as it is, and what turning a side off or
on can do to it.
-/

namespace Sys2Proof.Machine

/-- The bit of a side. -/
def sideFld (n : Nat) (high : Bool) : Fld := if high then PWM_STATUS_GH n else PWM_STATUS_GL n

theorem State.sideOn_eq (s : State) (n : Nat) (high : Bool) : s.sideOn n high = s.bit (sideFld n high) := by
  cases high <;> rfl

theorem sideFld_addr (n : Nat) (high : Bool) : (sideFld n high).addr = 0x24014 + n * 0x100 := by cases high <;> rfl

theorem sideFld_width (n : Nat) (high : Bool) : (sideFld n high).width = 1 := by cases high <;> rfl

theorem sideFld_lo (n : Nat) (high : Bool) : (sideFld n high).lo = if high then 4 else 5 := by cases high <;> rfl

theorem State.sideOn_congr {s t : State} (h : t.regs = s.regs) (n : Nat) (high : Bool) : t.sideOn n high = s.sideOn n high := by
  rw [State.sideOn_eq, State.sideOn_eq]
  exact State.bit_congr h _

/-- A field of another register does not touch a side. -/
theorem State.sideOn_setB_ne (s : State) (f : Fld) (b : Bool) (n : Nat) (high : Bool) (h : f.addr ≠ 0x24014 + n * 0x100) :
    (s.setB f b).sideOn n high = s.sideOn n high := by
  rw [State.sideOn_eq, State.sideOn_eq]
  exact State.bit_setB_ne _ _ _ _ (by rw [sideFld_addr]; exact h.symm)

/-- Another field of the leg's status register does not touch its sides. -/
theorem State.sideOn_setF_other (s : State) (f : Fld) (v n : Nat) (high : Bool) (ha : f.addr = 0x24014 + n * 0x100)
    (h : f.lo + f.width ≤ 4 ∨ 6 ≤ f.lo) : (s.setF f v).sideOn n high = s.sideOn n high := by
  rw [State.sideOn_eq, State.sideOn_eq]
  unfold State.bit
  rw [State.fld_setF_other s f _ v (by rw [sideFld_addr, ha]) (by rw [sideFld_lo, sideFld_width]; split <;> omega)
    (by rw [sideFld_lo, sideFld_width]; split <;> omega)]

theorem State.sideOn_setF_ne (s : State) (f : Fld) (v n : Nat) (high : Bool) (h : f.addr ≠ 0x24014 + n * 0x100) :
    (s.setF f v).sideOn n high = s.sideOn n high := by
  rw [State.sideOn_eq, State.sideOn_eq]
  exact State.bit_setF_ne _ _ _ _ (by rw [sideFld_addr]; exact h.symm)

/-- A field of a leg's status register that is not a side. -/
theorem State.sideOn_setF_status (s : State) (k lo w v n : Nat) (high : Bool) (h : lo + w ≤ 4 ∨ 6 ≤ lo) :
    (s.setF ⟨PWM_STATUS k, lo, w⟩ v).sideOn n high = s.sideOn n high := by
  by_cases hk : k = n
  · subst hk; exact State.sideOn_setF_other _ _ _ _ _ rfl h
  · exact State.sideOn_setF_ne _ _ _ _ _ (by show 0x24014 + k * 0x100 ≠ _; omega)

theorem State.sideOn_setBit (s : State) (a i : Nat) (b : Bool) (n : Nat) (high : Bool) (h : a ≠ 0x24014 + n * 0x100) :
    (s.setBit a i b).sideOn n high = s.sideOn n high := State.sideOn_setB_ne s ⟨a, i, 1⟩ b n high h

@[simp] theorem State.sideOn_updLeg (s : State) (k : Nat) (f : LegSt → LegSt) (n : Nat) (high : Bool) :
    (s.updLeg k f).sideOn n high = s.sideOn n high := State.sideOn_congr rfl n high

@[simp] theorem State.sideOn_sched (s : State) (d : Nat) (c : Instr) (n : Nat) (high : Bool) :
    (s.sched d c).sideOn n high = s.sideOn n high := State.sideOn_congr rfl n high

@[simp] theorem State.sideOn_unsched (s : State) (p : Instr → Bool) (n : Nat) (high : Bool) :
    (s.unsched p).sideOn n high = s.sideOn n high := State.sideOn_congr rfl n high

@[simp] theorem State.sideOn_startBlank (s : State) (k n : Nat) (high : Bool) :
    (s.startBlank k).sideOn n high = s.sideOn n high := State.sideOn_congr rfl n high

@[simp] theorem State.sideOn_startAck (s : State) (k : Nat) (x : Bool) (n : Nat) (high : Bool) :
    (s.startAck k x).sideOn n high = s.sideOn n high := State.sideOn_congr rfl n high

theorem State.sideOn_setPin (s : State) (k : Nat) (x level : Bool) (t n : Nat) (high : Bool) :
    (s.setPin k x level t).sideOn n high = s.sideOn n high := by
  unfold State.setPin
  split
  · rfl
  · refine (State.sideOn_congr (State.emit_regs _ _) n high).trans (State.sideOn_setBit _ _ _ _ _ _ ?_)
    unfold PWM_OUTSTAT
    omega

/-- Commanding a side leaves every other side as it is. -/
theorem State.sideOn_setSide_ne (s : State) (k : Nat) (x level : Bool) (t n : Nat) (high : Bool) (h : n ≠ k ∨ high ≠ x) :
    (s.setSide k x level t).sideOn n high = s.sideOn n high := by
  unfold State.setSide
  split
  · rfl
  · rw [State.sideOn_setPin]
    change (s.setB (sideFld k x) level).sideOn n high = _
    by_cases hk : n = k
    · subst hk
      have hx : high = !x := by
        rcases h with h | h
        · exact absurd rfl h
        · cases high <;> cases x <;> simp_all
      subst hx
      rw [State.sideOn_eq, State.sideOn_eq]
      refine State.bit_setB_other _ _ _ _ ?_ ?_ ?_
      · rw [sideFld_addr, sideFld_addr]
      · rw [sideFld_lo, sideFld_width]; split <;> omega
      · rw [sideFld_lo, sideFld_lo, sideFld_width, sideFld_width]; cases x <;> simp
    · exact State.sideOn_setB_ne _ _ _ _ _ (by rw [sideFld_addr]; omega)

/-- Commanding a side off turns no side on. -/
theorem State.sideOn_setSide_off (s : State) (k : Nat) (x : Bool) (t n : Nat) (high : Bool)
    (h : (s.setSide k x false t).sideOn n high = true) : s.sideOn n high = true := by
  by_cases hk : n ≠ k ∨ high ≠ x
  · rwa [State.sideOn_setSide_ne _ _ _ _ _ _ _ hk] at h
  · have h1 : n = k := by by_contra hc; exact hk (Or.inl hc)
    have h2 : high = x := by by_contra hc; exact hk (Or.inr hc)
    subst h1 h2
    unfold State.setSide at h
    split at h
    · exact h
    · rw [State.sideOn_setPin] at h
      change (s.setB (sideFld n high) false).sideOn n high = true at h
      rw [State.sideOn_eq, State.bit_setB_self _ _ _ (sideFld_width _ _) (by rw [sideFld_lo]; split <;> omega)] at h
      cases h

/-- Turning a side off turns no side on. -/
theorem State.sideOn_turnOff (s : State) (k : Nat) (x : Bool) (t n : Nat) (high : Bool)
    (h : (s.turnOff k x t).sideOn n high = true) : s.sideOn n high = true := by
  unfold State.turnOff at h
  split at h
  · dsimp only at h
    have key : ∀ u : State, (if u.bit (PWM_CFG_HSK k) = true then u.startAck k x else u).sideOn n high = u.sideOn n high := by
      intro u; split <;> simp
    rw [key] at h
    have dt : ∀ u : State, (if u.fld (PWM_CFG_DT k) = 0 then u
        else ((u.setB (PWM_STATUS_DTRUN k) true).unsched (isDeadTimeEnd k)).sched (u.fld (PWM_CFG_DT k)) (.deadTimeEnd (legIx k))).sideOn
          n high = u.sideOn n high := by
      intro u
      split
      · rfl
      · rw [State.sideOn_sched, State.sideOn_unsched]
        exact State.sideOn_setF_status _ _ _ _ _ _ _ (by omega)
    rw [dt, State.sideOn_updLeg] at h
    have hu : ∀ u : State, (if x = true then u.updLeg k (fun l => { l with hiSince := none }) else u).sideOn n high = u.sideOn n high := by
      intro u; split <;> simp
    rw [hu] at h
    exact State.sideOn_setSide_off _ _ _ _ _ _ h
  · exact h

/-- R350. What trying to turn on the waiting side can do: turn on that side, once nothing stands against it. -/
theorem State.sideOn_tryTurnOn (s : State) (k t n : Nat) (high : Bool) (h : (s.tryTurnOn k t).sideOn n high = true) :
    s.sideOn n high = true ∨
    (n = k ∧ s.sideOn n (!high) = false ∧ s.bit (PWM_STATUS_DTRUN n) = false ∧
      (s.bit (PWM_CFG_HSK n) = true → s.gateFb n (!high) = true) ∧ (s.leg n).want = if high then .high else .low) := by
  have main : ∀ x : Bool, (if s.sideOn k (!x) || s.bit (PWM_STATUS_DTRUN k) || (s.bit (PWM_CFG_HSK k) && !s.gateFb k (!x)) then s
    else
      let s := s.updLeg k (fun l => { l with want := .none })
      if s.sideOn k x then s
      else
        let s := ((s.setSide k x true t).startBlank k).updLeg k (fun l => { l with onSub := t % 8 })
        if x then
          s.updLeg k (fun l => { l with hiSince := some s.tick, picotReq := l.picotReq || (l.bsuv && s.bit (PWM_CFG_BOOT k)) })
        else s).sideOn n high = true →
      s.sideOn n high = true ∨ (n = k ∧ high = x ∧
        (s.sideOn k (!x) || s.bit (PWM_STATUS_DTRUN k) || (s.bit (PWM_CFG_HSK k) && !s.gateFb k (!x))) = false) := by
    intro x hx
    split at hx
    · exact Or.inl hx
    · rename_i hc
      by_cases hn : n = k ∧ high = x
      · exact Or.inr ⟨hn.1, hn.2, by simpa using hc⟩
      · have hk : n ≠ k ∨ high ≠ x := by
          by_contra hcon
          exact hn ⟨by by_contra h1; exact hcon (Or.inl h1), by by_contra h1; exact hcon (Or.inr h1)⟩
        left
        dsimp only at hx
        split at hx
        · rwa [State.sideOn_updLeg] at hx
        · have hu : ∀ u : State, (if x = true then u.updLeg k (fun l => { l with
                hiSince := some u.tick, picotReq := l.picotReq || (l.bsuv && u.bit (PWM_CFG_BOOT k)) }) else u).sideOn n high =
              u.sideOn n high := by
            intro u; split <;> simp
          rw [hu, State.sideOn_updLeg, State.sideOn_startBlank, State.sideOn_setSide_ne _ _ _ _ _ _ _ hk, State.sideOn_updLeg] at hx
          exact hx
  unfold State.tryTurnOn at h
  dsimp only at h
  split at h
  · exact Or.inl h
  · rename_i hw
    split at h
    · exact Or.inl h
    · rcases main true h with h1 | ⟨rfl, rfl, hc⟩
      · exact Or.inl h1
      · simp at hc
        exact Or.inr ⟨rfl, hc.1.1, hc.1.2, by simpa using hc.2, hw⟩
  · rename_i hw
    rcases main false h with h1 | ⟨rfl, rfl, hc⟩
    · exact Or.inl h1
    · simp at hc
      exact Or.inr ⟨rfl, hc.1.1, hc.1.2, by simpa using hc.2, hw⟩

/-- R350. No leg has both its sides on after one of them was tried, if none had before. -/
theorem State.tryTurnOn_noShootThrough (s : State) (k t : Nat) (h : s.noShootThrough) : (s.tryTurnOn k t).noShootThrough := by
  intro n hn hb
  rcases State.sideOn_tryTurnOn _ _ _ _ _ hb.1 with h1 | h1
  · rcases State.sideOn_tryTurnOn _ _ _ _ _ hb.2 with h2 | h2
    · exact h n hn ⟨h1, h2⟩
    · rw [Bool.not_false, h1] at h2
      cases h2.2.1
  · rcases State.sideOn_tryTurnOn _ _ _ _ _ hb.2 with h2 | h2
    · rw [Bool.not_true, h2] at h1
      cases h1.2.1
    · have := h1.2.2.2.2.symm.trans h2.2.2.2.2
      cases this

/-- What turns no side on keeps it that no leg has both on. -/
theorem State.noShootThrough_of {s t : State} (h : s.noShootThrough) (hk : ∀ n high, t.sideOn n high = true → s.sideOn n high = true) :
    t.noShootThrough := fun n hn hb => h n hn ⟨hk n true hb.1, hk n false hb.2⟩

end Sys2Proof.Machine
end

