-- ==== Sys2Proof/WellFormed.lean ====
section
/-!
DEFINITION. The commands that a sender can make. The operand types bound every number; what they leave open is checked here:
access widths, and the lengths of byte lists that the spec fixes. A meaning is given for every command all the same.
-/

namespace Sys2Proof

/-- R7. The widths of a register access in bytes. -/
def busWidth (n : Nat) : Bool := n == 1 || n == 2 || n == 4 || n == 8

/-- Whether a command is well formed. -/
def Instr.wf : Instr → Bool
  | .registerWrite _ _ size _ => busWidth size.val
  | .pairLoRead _ _ size => busWidth size.val
  | .bar4Read _ len => decide (1 ≤ len.val)
  | .bar4Write _ data => decide (1 ≤ data.length) && decide (data.length ≤ 64)
  | .mailboxFetch _ msg => msg.length == 32
  | .dieSensorSample rs => rs.length == 8
  | .pathMonitorRead slacks => slacks.length == 32
  | .cellmapWrite _ _ _ entries => entries.all (fun b => b.length == 32)
  | _ => true

end Sys2Proof
end

