-- ==== Sys2Proof/Tests/Slice0.lean ====
section
/-!
SUPPORT. The model's own tests: ill-formed commands that WellFormed refuses, for every statement with hypotheses a state and
operands that meet them, and single steps whose results the spec gives.
-/

namespace Sys2Proof.Tests

open Sys2Proof Sys2Proof.Machine

/-! ### Ill-formed commands -/

/-- R7. No access is 3 bytes wide. -/
theorem test_wf_write_width : (Instr.registerWrite .host 0x4C#20 3 0#32).wf = false := by decide

theorem test_wf_read_width : (Instr.pairLoRead .host 0#20 0).wf = false := by decide

theorem test_wf_bar4_read : (Instr.bar4Read 0#26 0).wf = false := by decide

theorem test_wf_bar4_write : (Instr.bar4Write 0#26 []).wf = false ∧ (Instr.bar4Write 0#26 (List.replicate 65 0#8)).wf = false := by
  decide

/-- R507. A mailbox message is 32 bytes. -/
theorem test_wf_mailbox : (Instr.mailboxFetch 0 (List.replicate 31 0#8)).wf = false := by decide

/-- R435. There are eight die sensors. -/
theorem test_wf_die_sensors : (Instr.dieSensorSample (List.replicate 7 0#16)).wf = false := by decide

/-- R458. There are 32 path monitors. -/
theorem test_wf_path_monitors : (Instr.pathMonitorRead (List.replicate 31 0#16)).wf = false := by decide

/-- R503. A cell map entry is 32 bytes. -/
theorem test_wf_cell_map : (Instr.cellmapWrite 0 ⟨0x30, false, 0, 0, 32⟩ 0 [List.replicate 31 0#8]).wf = false := by decide

theorem test_wf_well_formed : (Instr.registerWrite .host 0x4C#20 4 0#32).wf = true ∧ (Instr.bar4Read 0#26 64).wf = true ∧
    (Instr.mailboxFetch 0 (List.replicate 32 0#8)).wf = true := by decide

/-- No row of the table gives bits. -/
theorem test_no_word_spells_a_command : decodeTableWord 32 0x123450B7 = none := rfl

/-! ### States -/

/-- After READY. -/
def tReady : State := State.reset.setB GLB_STATUS_READY true

/-- Engine 0 runs slot 0 at 0x100, where the word stands; x5 holds a value. -/
def tRun (w x5 : Nat) : State :=
  let s := (State.reset.setB (BOB_STATUS_BUSY 0) true).setB (BOB_STATUS_RUNNING 0) true
  (s.updSlot 0 0 (fun c => { c with pc := 0x100, xs := [(5, BitVec.ofNat 32 x5)] })).pokeBytes 0x10000100 (leBytes w 4)

/-- Command ring 0 is RUN with bus mastering on, and one descriptor waits. -/
def tRing : State :=
  (((tReady.setB HIF_STATUS_BME true).setF (HIF_RSTAT_STATE 0) ringRun).setF (HIF_RCFG_LOG2SZ 0) 4).setF (HIF_RIDX_HOST 0) 1

/-- Whether an outcome is a next state with a property. -/
def nextIs (o : Host.Outcome State Fault Refusal) (p : State → Bool) : Bool :=
  match o with
  | .next t => p t
  | _ => false

/-- A descriptor of an operation. -/
def tDesc (opc : BitVec 16) : Desc := ⟨opc, false, 7#32, 0x1000#64, 0#32⟩

/-- A fault record. -/
def tRec (src : Nat) : FltRec := ⟨0, src, 0, false, false, false, false, false, false, 0xFF, 1, 0, 0, 0, 0, 0, false⟩

/-! ### States and operands that meet the statements' hypotheses -/

theorem test_witness_taken : taken .thimble State.reset ∧ taken .host tReady ∧ taken (.eng 3 1) State.reset ∧
    loaderTaken .host (State.reset.setB BST_STATUS_NOIMG true) ∧ loaderTaken .host tReady ∧ tReady.awake = true := by
  unfold taken loaderTaken
  decide

theorem test_witness_idle : (let s := { State.reset with agenda := [(0, Instr.pcieRefDetect)] };
    s.pending = [] ∧ s.alive = true ∧ s.dueFirst = [] ∧ s.dueZero = [] ∧ s.dueSteps ≠ [] ∧ s.deliver.pending ≠ []) ∧
    (State.reset.setB BST_STATUS_SHUTDOWN true).alive = false := by decide

/-- R22. Control cycles that wait for an H0 zero start right after the ANGLE_ZERO. -/
theorem test_zero_starts_cycles : (let s := (State.reset.setB GLB_CTRL_RUN true).updH0 (fun l => { l with crossed := true });
    s.hoop.h0.crossed = true ∧ s.dueZero = [.angleZero, .ctrlRunStart]) := by decide

/-- Pricking that is off dispatches nothing. -/
theorem test_witness_idle_pricking : (let s := { State.reset with agenda := [(0, Instr.pcieRefDetect)] }; s.prkDispatch = (s, [])) := rfl

/-- R94, R95. Reads and corrections of the device time. -/
theorem test_witness_time : tReady.readServed NTM_TIME_NS = true ∧ tReady.readServed NTM_PPSIN_NS = true ∧
    State.reset.readServed NTM_TIME_NS = false ∧ State.reset.readServed NTM_PPSIN_NS = false ∧
    State.reset.bit NTM_ADJCTL_MODE = true ∧ State.reset.ntmState ≠ ntmHoldover ∧
    (State.reset.setB NTM_ADJCTL_MODE false).bit NTM_ADJCTL_MODE = false ∧
    (State.reset.setF NTM_STATUS_STATE 3).ntmState = ntmHoldover := by decide

theorem test_witness_inv : State.reset.Inv ∧ ∃ t, step State.reset = .next t := ⟨by unfold State.Inv; decide, _, rfl⟩

theorem test_witness_faults : State.reset.flt.live.all (fun x => !(x.src == 5 && x.inst == 0)) = true ∧ State.reset.flt.fifo = [] ∧
    (State.reset.updFlt (fun f => { f with fifo := [tRec 7] })).flt.fifo = tRec 7 :: [] ∧ State.reset.selv.padHold = false ∧
    State.reset.flt.live.all (fun c => !bitOf c.react 3) = true ∧
    (State.reset.setB FLT_LOCK_INJOFF true).bit FLT_LOCK_INJOFF = true ∧ fltListed 0x59 = false ∧
    (State.reset.bit FLT_LOCK_INJOFF = false ∧ fltListed 0x07 = true ∧ State.reset.bit GLB_STATUS_CTRL_RUN = false ∧
      fltIsCondition 0x07 = false) := by decide

theorem test_witness_hoop : (let s := State.reset.setB GLB_STATUS_CTRL_RUN true;
    s.bit GLB_STATUS_CTRL_RUN = true ∧ bitOf (putBit (s.rdN HOOP_CTRL) 0 true) 0 ≠ s.bit HOOP_CTRL_H0EN) ∧
    (let s := (State.reset.setB GLB_STATUS_CTRL_RUN true).setB HOOP_CTRL_H0EN true;
      s.bit GLB_STATUS_CTRL_RUN = true ∧ bitOf (putBit (s.rdN HOOP_CTRL) 0 false) 0 ≠ s.bit HOOP_CTRL_H0EN) := by decide

theorem test_witness_slots : State.reset.bit (BOB_CTRL_EN 0) = false ∧ State.reset.bit (BOB_STATUS_LOADED 0) = false ∧
    (State.reset.setB (BOB_STATUS_LOADED 15) true).bit (BOB_STATUS_LOADED 15) = true ∧
    (State.reset.setB (BOB_CTRL_EN 15) true).bit (BOB_CTRL_EN 15) = true := by decide

/-- R123. Base instructions at the words of the RISC-V encodings. -/
theorem test_witness_base :
    (tRun 0x123450b7 0x0).goes 0 (.lui 1 0x12345000) 4 ∧
    (tRun 0x1097 0x0).goes 0 (.auipc 1 0x1000) 4 ∧
    (tRun 0x8000ef 0x0).goes 0 (.jal 1 8) 4 ∧
    (tRun 0x100e7 0x0).goes 0 (.jalr 1 2 0) 4 ∧
    (tRun 0x208463 0x0).goes 0 (.br 0 1 2 8) 4 := by
  unfold State.goes
  decide

theorem test_witness_arithmetic :
    (tRun 0x510093 0x0).goes 0 (.aluI .add 1 2 5) 4 ∧
    (tRun 0x3100b3 0x0).goes 0 (.alu .add 1 2 3) 4 ∧
    (tRun 0x203100c3 0x0).goes 0 (.fma 0 1 2 3 4 0) 4 ∧
    (tRun 0x3100d3 0x0).goes 0 (.fop .add 1 2 3 0) 4 := by
  unfold State.goes
  decide +kernel

/-- R125. A load from the own bank. -/
theorem test_witness_loads :
    (let s := tRun 0x20002083 0x0; let t := s.fetched 0 4;
      s.goes 0 (.load 2 1 0 0x200) 4 ∧ t.storePending 0 (engTarget 0 (t.eaddr 0 0 0x200)) 4 = false ∧
      t.engAcc 0 (engTarget 0 (t.eaddr 0 0 0x200)) 4 false = .ok) ∧
    (let s := tRun 0x20002087 0x0; let t := s.fetched 0 4;
      s.goes 0 (.flw 1 0 0x200) 4 ∧ t.storePending 0 (engTarget 0 (t.eaddr 0 0 0x200)) 4 = false ∧
      t.engAcc 0 (engTarget 0 (t.eaddr 0 0 0x200)) 4 false = .ok) := by
  unfold State.goes
  decide

/-- R25, R466. Stores to the own bank, plain and through the bit aliases. -/
theorem test_witness_stores :
    (let s := tRun 0x20102023 0x0; let t := s.fetched 0 4;
      s.goes 0 (.store 2 0 1 0x200) 4 ∧ storeKind (s.eaddr 0 0 0x200) = .plain ∧ (t.eng 0).buf.length < 4 ∧
      aliasBad (t.eaddr 0 0 0x200) 4 = false ∧ t.engAcc 0 (engTarget 0 (t.eaddr 0 0 0x200)) 4 true = .ok) ∧
    (let s := tRun 0x20102027 0x0; let t := s.fetched 0 4;
      s.goes 0 (.fsw 0 1 0x200) 4 ∧ storeKind (s.eaddr 0 0 0x200) = .plain ∧ (t.eng 0).buf.length < 4 ∧
      aliasBad (t.eaddr 0 0 0x200) 4 = false ∧ t.engAcc 0 (engTarget 0 (t.eaddr 0 0 0x200)) 4 true = .ok) ∧
    (let s := tRun 0x12a023 0x80000200; let t := s.fetched 0 4;
      s.goes 0 (.store 2 5 1 0) 4 ∧ storeKind (s.eaddr 0 5 0) = .set ∧ (t.eng 0).buf.length < 4 ∧
      aliasBad (t.eaddr 0 5 0) 4 = false ∧ t.engAcc 0 (engTarget 0 (t.eaddr 0 5 0)) 4 true = .ok) ∧
    (let s := tRun 0x12a027 0x80000200; let t := s.fetched 0 4;
      s.goes 0 (.fsw 5 1 0) 4 ∧ storeKind (s.eaddr 0 5 0) = .set ∧ (t.eng 0).buf.length < 4 ∧
      aliasBad (t.eaddr 0 5 0) 4 = false ∧ t.engAcc 0 (engTarget 0 (t.eaddr 0 5 0)) 4 true = .ok) ∧
    (let s := tRun 0x12a023 0x90000200; let t := s.fetched 0 4;
      s.goes 0 (.store 2 5 1 0) 4 ∧ storeKind (s.eaddr 0 5 0) = .clear ∧ (t.eng 0).buf.length < 4 ∧
      aliasBad (t.eaddr 0 5 0) 4 = false ∧ t.engAcc 0 (engTarget 0 (t.eaddr 0 5 0)) 4 true = .ok) ∧
    (let s := tRun 0x12a027 0x90000200; let t := s.fetched 0 4;
      s.goes 0 (.fsw 5 1 0) 4 ∧ storeKind (s.eaddr 0 5 0) = .clear ∧ (t.eng 0).buf.length < 4 ∧
      aliasBad (t.eaddr 0 5 0) 4 = false ∧ t.engAcc 0 (engTarget 0 (t.eaddr 0 5 0)) 4 true = .ok) := by
  unfold State.goes
  decide

theorem test_witness_system :
    (let s := tRun 0xff0000f 0;
      s.goes 0 .fence 4 ∧ ((s.fetched 0 4).eng 0).buf = []) ∧
    (let s := tRun 0x100f 0;
      s.goes 0 .fenceI 4 ∧ ((s.fetched 0 4).eng 0).buf = []) ∧
    (tRun 0x10500073 0x0).goes 0 (.wfi) 4 ∧
    (tRun 0x73 0x0).goes 0 (.ecall) 4 ∧
    (tRun 0x100073 0x0).goes 0 (.ebreak) 4 ∧
    (tRun 0xc00020f3 0x0).goes 0 (.csr 2 1 0 0xC00) 4 ∧
    (tRun 0xFFFFFFFF 0).overBudget 0 = false ∧ (tRun 0xFFFFFFFF 0).engDue 0 = true ∧ (tRun 0xFFFFFFFF 0).engFetch 0 = .bad 4 0 none := by
  unfold State.goes
  decide

/-- R126. Xvarul instructions at the words of the table of encodings. -/
theorem test_witness_xvarul :
    (tRun 0x31008b 0x0).goes 0 (.xv .vaDiff 1 2 3) 4 ∧
    (tRun 0x31108b 0x0).goes 0 (.xv .vaLt 1 2 3) 4 ∧
    (tRun 0x2031208b 0x0).goes 0 (.vaBtw 1 2 3 4) 4 ∧
    (tRun 0x31308b 0x0).goes 0 (.xv .vqMacq31 1 2 3) 4 ∧
    (tRun 0x231308b 0x0).goes 0 (.xv .vqMulq31 1 2 3) 4 ∧
    (tRun 0x431308b 0x0).goes 0 (.xv .vqMacq15 1 2 3) 4 ∧
    (tRun 0x601308b 0x0).goes 0 (.xv .vqRndq15 1 2 0) 4 ∧
    (tRun 0x31408b 0x0).goes 0 (.xv .vsAdd2 1 2 3) 4 := by
  unfold State.goes
  decide

/-- R126. -/
theorem test_witness_xvarul_pairs :
    (tRun 0x231408b 0x0).goes 0 (.xv .vsSub2 1 2 3) 4 ∧
    (tRun 0x431408b 0x0).goes 0 (.xv .vsMac2 1 2 3) 4 ∧
    (tRun 0x631408b 0x0).goes 0 (.xv .vsMul2 1 2 3) 4 ∧
    (tRun 0x50608b 0x0).goes 0 (.vrRd 1 5) 4 ∧
    (tRun 0x708b 0x0).goes 0 (.waitslot 1) 4 := by
  unfold State.goes
  decide

/-- R129. -/
theorem test_witness_cordic :
    (let s := tRun 0x1508b 0; let t := s.fetched 0 4;
      s.goes 0 (.xv .vcSin 1 2 0) 4 ∧ t.vcServed 0 (t.issueAt 0) < 4) ∧
    (let s := tRun 0x201508b 0; let t := s.fetched 0 4;
      s.goes 0 (.xv .vcCos 1 2 0) 4 ∧ t.vcServed 0 (t.issueAt 0) < 4) ∧
    (let s := tRun 0x401508b 0; let t := s.fetched 0 4;
      s.goes 0 (.xv .vcSc 1 2 0) 4 ∧ t.vcServed 0 (t.issueAt 0) < 4) := by
  unfold State.goes
  decide

/-- R130. Offset 0x80 is beyond the entry. -/
theorem test_witness_vt_loads :
    (let s := tRun 0x4010ab 0; let t := s.fetched 0 4;
      s.goes 0 (.vtLoad 1 1 0 4) 4 ∧ vtBad (t.xr 0 0) 4 2 false = false ∧ t.storePending 0 (vtAddr (t.xr 0 0) 4) 2 = false) ∧
    (let s := tRun 0x80010ab 0; let t := s.fetched 0 4;
      s.goes 0 (.vtLoad 1 1 0 0x80) 4 ∧ vtBad (t.xr 0 0) 0x80 2 false = true) ∧
    (let s := tRun 0x4020ab 0; let t := s.fetched 0 4;
      s.goes 0 (.vtLoad 2 1 0 4) 4 ∧ vtBad (t.xr 0 0) 4 4 false = false ∧ t.storePending 0 (vtAddr (t.xr 0 0) 4) 4 = false) ∧
    (let s := tRun 0x80020ab 0; let t := s.fetched 0 4;
      s.goes 0 (.vtLoad 2 1 0 0x80) 4 ∧ vtBad (t.xr 0 0) 0x80 4 false = true) ∧
    (let s := tRun 0x4040ab 0; let t := s.fetched 0 4;
      s.goes 0 (.vtLoad 4 1 0 4) 4 ∧ vtBad (t.xr 0 0) 4 2 false = false ∧ t.storePending 0 (vtAddr (t.xr 0 0) 4) 2 = false) ∧
    (let s := tRun 0x80040ab 0; let t := s.fetched 0 4;
      s.goes 0 (.vtLoad 4 1 0 0x80) 4 ∧ vtBad (t.xr 0 0) 0x80 2 false = true) := by
  unfold State.goes
  decide

/-- R130. Offset 0x3C is in the upstream image. -/
theorem test_witness_vt_stores :
    (let s := tRun 0x410502b 0; let t := s.fetched 0 4;
      s.goes 0 (.vtStore 5 0 1 0x40) 4 ∧ vtBad (t.xr 0 0) 0x40 2 true = false ∧ (t.eng 0).buf.length < 4) ∧
    (let s := tRun 0x2105e2b 0; let t := s.fetched 0 4;
      s.goes 0 (.vtStore 5 0 1 0x3C) 4 ∧ vtBad (t.xr 0 0) 0x3C 2 true = true) ∧
    (let s := tRun 0x410602b 0; let t := s.fetched 0 4;
      s.goes 0 (.vtStore 6 0 1 0x40) 4 ∧ vtBad (t.xr 0 0) 0x40 4 true = false ∧ (t.eng 0).buf.length < 4) ∧
    (let s := tRun 0x2106e2b 0; let t := s.fetched 0 4;
      s.goes 0 (.vtStore 6 0 1 0x3C) 4 ∧ vtBad (t.xr 0 0) 0x3C 4 true = true) := by
  unfold State.goes
  decide

theorem test_witness_cordic_range : -(2 ^ 96) ≤ (0 : Int) ∧ (0 : Int) < 2 ^ 96 ∧ -(2 ^ 96) ≤ (2 ^ 96 : Int) := by decide

/-- R41, R128, R127, R383, R8: operands of the statements on numbers. -/
theorem test_witness_numbers : (5 : Nat) < 256 ∧ (7 : Nat) < 32 ∧ 7 ≠ 5 % 32 ∧ (0xFFFFFFFF : Nat) < 2 ^ 32 ∧ (0 : Nat) < 15 ∧
    bitsOf (State.reset.rdN GLB_REJECT) 0 31 < 0x7FFFFFFE ∧
    0x7FFFFFFE ≤ bitsOf ((State.reset.wrN GLB_REJECT 0x7FFFFFFE).rdN GLB_REJECT) 0 31 ∧
    GLB_TICK_HI < 2 ^ 20 ∧ (Master.host ≠ Master.thimble) ∧ (NTM_INC_HI ≠ GLB_TICK_HI) := by decide

theorem test_witness_memory : tRing.memCmdWait 0 { tDesc 0x40 with len := 4#32 } 0x20000000 false = none ∧
    tRing.memCmdWait 0 { tDesc 0x41 with len := 4#32 } 0x20000000 true = none ∧ tRing.cmdReady 0 { tDesc 0x40 with len := 4#32 } = true ∧
    tRing.bit PRK_EDSTAT_BUSY = false ∧ State.reset.cmdReady 0 (tDesc 0) = false := by decide

/-- R508. For each operation an argument with which it may not run, and one with which it runs. -/
theorem test_witness_longops : tReady.bit GLB_STATUS_BUSY = false ∧
    (let s := tReady.setF GLB_LONGOP_OP 1; s.longBad 1 (tReady.rdN GLB_LONGARG) = true) ∧
    (let s := tReady.wrN GLB_LONGARG 1024; (s.setF GLB_LONGOP_OP 1).longBad 1 (s.rdN GLB_LONGARG) = false) ∧
    (tReady.setF GLB_LONGOP_OP 2).longBad 2 (tReady.rdN GLB_LONGARG) = true ∧
    (let s := tReady.wrN GLB_LONGARG 0x1CA50001; (s.setF GLB_LONGOP_OP 2).longBad 2 (s.rdN GLB_LONGARG) = false) ∧
    (tReady.setF GLB_LONGOP_OP 3).longBad 3 (tReady.rdN GLB_LONGARG) = true ∧
    (let s := tReady.wrN GLB_LONGARG 0x10000000; (s.setF GLB_LONGOP_OP 3).longBad 3 (s.rdN GLB_LONGARG) = false) ∧
    (let s := tReady.setB GLB_STATUS_CTRL_RUN true; (s.setF GLB_LONGOP_OP 4).longBad 4 (s.rdN GLB_LONGARG) = true) ∧
    (tReady.setF GLB_LONGOP_OP 4).longBad 4 (tReady.rdN GLB_LONGARG) = false ∧
    (tReady.setF GLB_LONGOP_OP 5).longBad 5 (tReady.rdN GLB_LONGARG) = false ∧
    (let s := tReady.setB BST_STATUS_NOIMG true; (s.setF GLB_LONGOP_OP 5).longBad 5 (s.rdN GLB_LONGARG) = true) := by decide

theorem test_witness_registers : (BitVec.ofNat 20 GLB_SCRATCH).toNat % 4 = 0 ∧ (regRow (BitVec.ofNat 20 GLB_SCRATCH).toNat).isSome = true ∧ (regRow (0xFFFFC#20).toNat).isSome = false ∧
    (2 : Fin 9).val ≠ 4 ∧ (tReady.setB GLB_STATUS_BUSY true).bit GLB_STATUS_BUSY = true ∧ tReady.bit GLB_STATUS_READY = true ∧
    tReady.bar4Open 0x400000 4 = true := by decide

/-- R350. Leg 0 waits for its high side with the handshake on and the low side acknowledged. -/
theorem test_witness_legs : State.reset.noShootThrough ∧
    (let s := ((State.reset.setB (PWM_CFG_HSK 0) true).setBit PWM_FBSTAT 12 true).updLeg 0 (fun l => { l with want := .high });
      s.sideOn 0 true = false ∧ (s.tryTurnOn 0 8).sideOn 0 true = true ∧ s.bit (PWM_CFG_HSK 0) = true) := by
  unfold State.noShootThrough
  decide

theorem test_witness_wipe_and_line :
    (let s := State.reset.updNvm (fun _ => ⟨some (0, List.replicate 32 5#8), true⟩);
      s.nvm.port = some (0, List.replicate 32 5#8) ∧ s.nvm.started = true) ∧
    (State.reset.setB SEC_STATUS_WIPING true).bit SEC_STATUS_WIPING = true ∧ State.reset.bit SEC_STATUS_WIPING = false := by decide

/-- R72. Two entries of equal key. -/
theorem test_witness_sorted : [0#128, 0#128].Pairwise (fun x y => entLe x y = true) := by decide

theorem test_witness_msix : State.reset.bit HIF_STATUS_MSIXEN = false ∧ (State.reset.setB HIF_STATUS_MSIXEN true).bit HIF_STATUS_MSIXEN = true ∧
    (State.reset.updHif (fun h => { h with msixUnmasked := 2#64 })).hif.msixUnmasked.getLsbD 1 = true ∧
    State.reset.hif.msixUnmasked.getLsbD 1 = false := by decide

theorem test_witness_fifo : (tRec 7).update = false ∧ (tRec 7).src ≠ 0xFE ∧ State.reset.flt.fifo.length < 512 ∧
    (State.reset.updFlt (fun f => { f with fifo := List.replicate 512 (tRec 7) })).flt.fifo.length = 512 :=
  ⟨rfl, by decide, by decide, List.length_replicate⟩

/-- R125. A posted store of engine 0 to its own bank. -/
theorem test_witness_posted :
    (let p : Posted := ⟨0x10000200, .plain, 4, 0x11223344, 0, false, 0, 0, 0x100, 0x200⟩;
      let s := State.reset.updEng 0 (fun g => { g with buf := [p] });
      (s.eng 0).buf = p :: [] ∧ p.kind = .plain ∧ p.due ≤ s.tick ∧ regionOf p.addr = .bank 0 ∧ s.engAcc 0 p.addr p.size true = .ok) := by
  decide

/-- Engine 1 runs; its slot 2 is in a state, with SKIP or not. -/
def tSlot (st : Nat) (skip : Bool) : State :=
  ((State.reset.setB (BOB_STATUS_RUNNING 1) true).setF (BOB_SSTAT_STATE 1 2) st).setB (BOB_SSTAT_SKIP 1 2) skip

/-- R136, R140. A slot in each state of the wake table. -/
theorem test_witness_wakes :
    (∀ st < 5, (tSlot st false).bit (BOB_STATUS_RUNNING 1) = true ∧ (tSlot st false).bit (BOB_STATUS_HELD 1) = false ∧
      (tSlot st false).slotState 1 2 = st ∧ (tSlot st true).bit (BOB_SSTAT_SKIP 1 2) = true ∧
      (tSlot st false).bit (BOB_SSTAT_SKIP 1 2) = false) ∧
    (tSlot slIdle false).deferred 1 2 = false ∧
    (((tSlot slIdle false).setF (BOB_SCFG_DEFLVL 1 2) 1).setF THM_STATUS_STEP 1).deferred 1 2 = true := by decide

theorem test_witness_doorbell : tRing.doorbellOk 0 2 = true ∧ tRing.doorbellOk 0 17 = false ∧ tRing.bit GLB_STATUS_BUSY = false := by
  decide

theorem test_witness_standby : (State.reset.setF GLB_STATUS_ROLE 2).standby = true := by decide

/-- R5. Registers with fields of each type. -/
theorem test_witness_fields : [GLB_SCRATCH, GLB_CYCCFG, GLB_LOCK, GLB_RESET, NTM_EVT, GLB_STATUS].all (fun a =>
    (regRow a).any (fun r => !r.counter && decide (r.fields.Pairwise (fun x y => x.lo + x.width ≤ y.lo ∨ y.lo + y.width ≤ x.lo)) &&
      r.fields.all (fun f => decide (f.lo + f.width ≤ 32)))) = true := by decide

theorem test_witness_frames : (∃ t, exec .pcieRefLoss State.reset = .next t) ∧ (∃ t, exec (.pwmCtrlCommit .thimble 0) State.reset = .next t) :=
  ⟨⟨_, rfl⟩, ⟨_, rfl⟩⟩

theorem test_witness_arming : ((State.reset.setB ADC_FSTAT_RUNNING true).setF ADC_FCTRL_CHEN 7).twStream 7 = true := by decide

theorem test_witness_running : (State.reset.setB GLB_STATUS_CTRL_RUN true).bit GLB_STATUS_CTRL_RUN = true := by decide

/-! ### Single steps -/

/-- R46. GLB_SCRATCH holds what a host writes. -/
theorem test_scratch : nextIs (exec (.registerWrite .host (BitVec.ofNat 20 GLB_SCRATCH) 4 0x12345678#32) tReady)
    (fun t => t.rdN GLB_SCRATCH == 0x12345678) = true := by decide

/-- R518. Before READY a host reads all ones but for a few registers. -/
theorem test_read_before_ready : nextIs (exec (.pairLoRead .host (BitVec.ofNat 20 GLB_SCRATCH) 4) State.reset)
    (fun t => t.rdata == 0xFFFFFFFF#32) = true ∧
    nextIs (exec (.pairLoRead .host (BitVec.ofNat 20 GLB_ID) 4) State.reset) (fun t => t.rdata == 0x96205610#32) = true := by decide

/-- R518. Before READY a host write is ignored and not counted. -/
theorem test_write_before_ready : exec (.registerWrite .host (BitVec.ofNat 20 GLB_SCRATCH) 4 1#32) State.reset = .next State.reset := rfl

/-- R7. A halfword write stores nothing and is an event of source 0x07. -/
theorem test_narrow_write : nextIs (exec (.registerWrite .host (BitVec.ofNat 20 GLB_SCRATCH) 2 1#32) tReady)
    (fun t => t.rdN GLB_SCRATCH == 0 && t.rdN (FLT_SCNT 7) == 1 && t.srcBit FLT_CAUSE 7) = true := by decide +kernel

/-- R46, R42. With GLB_LOCK.CFG set GLB_CYCCFG keeps its reset value. -/
theorem test_lock : nextIs (exec (.registerWrite .thimble (BitVec.ofNat 20 GLB_CYCCFG) 4 1#32) (State.reset.setB GLB_LOCK_CFG true))
    (fun t => t.rdN GLB_CYCCFG == 0x1B580000) = true ∧
    nextIs (exec (.registerWrite .thimble (BitVec.ofNat 20 GLB_CYCCFG) 4 1#32) State.reset) (fun t => t.rdN GLB_CYCCFG == 1) = true := by
  decide

/-- R93. An increment above 2.5 ns is stored as 2.5 ns. -/
theorem test_increment_limit : nextIs (exec (.ntmIncWrite .thimble 0#32) (State.reset.hold .thimble NTM_INC_HI 3))
    (fun t => t.rdN NTM_INC_HI == 2 && t.rdN NTM_INC_LO == 0x80000000) = true := by decide

/-- R127. -/
theorem test_mulq31_of_minus_one : vqMulq31 0x80000000 0x80000000 = 0x7FFFFFFF := by decide

/-- R128. The arc is half open, and empty when its ends are equal. -/
theorem test_btw : vaBtw 0x10 0x10 0x20 = 1 ∧ vaBtw 0x20 0x10 0x20 = 0 ∧ vaBtw 5 7 7 = 0 ∧ vaBtw 0 0xC0000000 0x80000000 = 1 := by decide

/-- R123. ADDI writes rd and moves on. -/
theorem test_addi : nextIs (exec (.engineBaseInstruction 0) (tRun 0x00528093 7)) (fun t => t.xr 0 1 == 12 && (t.ctx 0).pc == 0x104) = true := by
  decide +kernel

/-- R127. VS.MUL2 of −1.0 by −1.0 in the upper half saturates. -/
theorem test_mul2 : nextIs (exec (.vsMul2 0) (tRun 0x0652C08B 0x80004000)) (fun t => t.xr 0 1 == 0x7FFF2000) = true := by decide +kernel

/-- R138, R139. ECALL ends the run with cause 5. -/
theorem test_ecall : nextIs (exec (.ecall 0) (tRun 0x00000073 0)) (fun t => t.fld (BOB_FINFO_CAUSE 0) == 5) = true := by decide +kernel

/-- R9, R491. What BAR4 writes reads back little-endian at the bank's address: BAR4 0x400000 is shared bank 0. -/
theorem test_bar4_write : nextIs (exec (.bar4Write 0x400000#26 [0x11#8, 0x22#8]) (tReady.wrN (MEM_OWN 16) 0x10000000))
    (fun t => t.memN 0x20000000 2 == 0x2211) = true := by decide +kernel

/-- R492. A message of a masked vector pends; unmasked, it is sent. -/
theorem test_msix : (State.reset.setB HIF_STATUS_MSIXEN true).msix 3 =
    (State.reset.setB HIF_STATUS_MSIXEN true).updHif (fun h => { h with msixPend := 8#64 }) := by decide +kernel

/-- R36, R35. Without the key nothing is reset. -/
theorem test_reset_key : nextIs (exec (.warmReset .thimble 0x00000001#32) (State.reset.wrN GLB_SCRATCH 5))
    (fun t => t.rdN GLB_SCRATCH == 5 && t.rdN (FLT_SCNT 7) == 1) = true := by decide +kernel

/-- R480. The end of a wipe clears the secure bank. -/
theorem test_wipe : nextIs (exec .secureWipeDone ((State.reset.setB SEC_STATUS_WIPING true).setMemB 0x70000000 9#8))
    (fun t => t.memB 0x70000000 == 0#8 && t.bit SEC_STATUS_RESTART) = true := by decide

/-- R350. A leg whose low side is commanded on does not turn on its high side. -/
theorem test_interlock : ((State.reset.setB (PWM_STATUS_GL 0) true).updLeg 0 (fun l => { l with want := .high }) |>.tryTurnOn 0 8).sideOn 0 true =
    false := by decide

/-- R72, R73. An inserted entry goes after those of equal key. -/
theorem test_insert : (entInsert 5#128 [5#128, 5#128]).2 = 2 := by decide

/-- A step runs the front command. -/
theorem test_step_front : step { State.reset with pending := [.pcieRefDetect, .pcieRefLoss] } =
    exec .pcieRefDetect { State.reset with pending := [.pcieRefLoss] } := rfl

end Sys2Proof.Tests
end

