-- ==== Sys2Proof/Proofs/Scope.lean ====
section
/-!
PROOFS. The statements about register accesses in general (spec/00_scope.md): counters in the layout of R41, the captured and
held words of pairs (R8), the field types (R5), and what a write and a read of a register answer (R4, R7).
-/

namespace Sys2Proof.Machine

/-! ### Counters (R10, R41) -/

/-- A counter that reads as all ones, COUNT at its end with SAT set, stays there. -/
theorem State.count_stuck (s : State) (a : Nat) (h : s.rdN a = 0xFFFFFFFF) : (s.count a).rdN a = 0xFFFFFFFF :=
  State.count_end s a (by rw [h]; decide)

/-- Settles O35: below the end `count_below` applies, from there on `count_end`, and then the end is kept. -/
theorem countersSaturate : Obligations.CountersSaturate := by
  intro s a
  refine ⟨fun h => s.count_below a (by omega), fun h => ?_, fun b hb => s.rd_count_ne a hb, s.count_mem a, s.count_out a⟩
  have hend : (s.count a).rdN a = 0xFFFFFFFF := s.count_end a (by omega)
  exact ⟨hend, (s.count a).count_stuck a hend⟩

/-! ### Captured and held words of pairs (R8) -/

/-- No two masters have the same number: that of a slot gives back its engine and its index. -/
theorem masterKey_inj {m m' : Master} (h : masterKey m = masterKey m') : m = m' := by
  match m, m', h with
  | .host, .host, _ | .thimble, .thimble, _ => rfl
  | .host, .thimble, h | .thimble, .host, h => simp [masterKey] at h
  | .host, .eng _ _, h | .thimble, .eng _ _, h | .eng _ _, .host, h | .eng _ _, .thimble, h =>
    simp only [masterKey] at h
    omega
  | .eng e k, .eng e' k', h =>
    simp only [masterKey] at h
    have he : e = e' := Fin.ext (by omega)
    have hk : k = k' := Fin.ext (by omega)
    rw [he, hk]

/-- Another master, or another register below 2^20, has another key. -/
theorem pairKey_ne {m m' : Master} {a a' : Nat} (ha : a < 2 ^ 20) (ha' : a' < 2 ^ 20) (h : m' ≠ m ∨ a' ≠ a) :
    pairKey m' a' ≠ pairKey m a := by
  intro hk
  unfold pairKey at hk
  have hm : m' = m := masterKey_inj (by omega)
  have haa : a' = a := by omega
  exact h.elim (fun hne => hne hm) (fun hne => hne haa)

/-- A capture reads back. -/
@[simp] theorem State.captured_capture_self (s : State) (m : Master) (a n : Nat) :
    (s.capture m a n).captured m a = BitVec.ofNat 32 n := tget_tput_self _ _ _ _

/-- A capture leaves every word of another key as it was. -/
theorem State.captured_capture_ne (s : State) {m m' : Master} {a a' : Nat} (n : Nat) (h : pairKey m' a' ≠ pairKey m a) :
    (s.capture m a n).captured m' a' = s.captured m' a' := tget_tput_ne _ _ _ h

/-- A held word is the one that a write of _LO takes with it. -/
@[simp] theorem State.heldN_hold_self (s : State) (m : Master) (a n : Nat) : (s.hold m a n).heldN m a = n % 2 ^ 32 := by
  unfold State.heldN State.hold
  rw [tget_tput_self]
  exact BitVec.toNat_ofNat n 32

/-- A hold leaves what every other key holds as it was, and so what a write there takes with it. -/
theorem State.heldN_hold_ne (s : State) {m m' : Master} {a a' : Nat} (n : Nat) (h : pairKey m' a' ≠ pairKey m a) :
    (s.hold m a n).heldN m' a' = s.heldN m' a' := by
  unfold State.heldN State.hold
  rw [tget_tput_ne _ _ _ h]
  rfl

/-- Without a held word a write of _LO takes the register's own word with it. -/
@[simp] theorem State.heldN_unhold_self (s : State) (m : Master) (a : Nat) : (s.unhold m a).heldN m a = s.rdN a := by
  unfold State.heldN State.unhold
  rw [tget_tput_self]
  rfl

/-- Settles O44: the words of masters and registers stand under keys that differ. -/
theorem capturesAreSeparate : Obligations.CapturesAreSeparate := by
  intro s m a n ha hn
  refine ⟨?_, fun m' a' ha' hne => ?_, ?_, ?_, rfl, rfl, rfl, rfl⟩
  · rw [State.captured_capture_self, BitVec.toNat_ofNat, Nat.mod_eq_of_lt hn]
  · have hk : pairKey m' a' ≠ pairKey m a := pairKey_ne ha ha' hne
    exact ⟨s.captured_capture_ne n hk, s.heldN_hold_ne n hk⟩
  · rw [State.heldN_hold_self, Nat.mod_eq_of_lt hn]
  · exact State.heldN_unhold_self _ m a

/-! ### Field types (R5) -/

/-- A register that is no counter takes a written word field by field. -/
theorem RegRow.merge_fields {r : RegRow} (h : r.counter = false) (locked : Bool) (w old : Nat) :
    r.merge locked w old = r.fields.foldl (fun acc f => f.merge locked w acc) old := by
  simp [RegRow.merge, h]

/-- At an address with a register a store writes the merge of the old word and the written one. -/
theorem State.regStore_row (s : State) {a : Nat} {r : RegRow} (h : regRow a = some r) (locked : Bool) (w : Nat) :
    s.regStore a locked w = s.wrN a (r.merge locked w (s.rdN a)) := by
  simp only [State.regStore, h]

/-- A place in a word reads, after a store to a register that is no counter, as the merges of its fields leave it. -/
theorem State.bitsOf_regStore (s : State) {a : Nat} {r : RegRow} (h : regRow a = some r) (hc : r.counter = false)
    (locked : Bool) (w : Nat) {lo width : Nat} (hw : lo + width ≤ 32) :
    bitsOf ((s.regStore a locked w).rdN a) lo width =
      bitsOf (r.fields.foldl (fun acc f => f.merge locked w acc) (s.rdN a)) lo width := by
  rw [s.regStore_row h, State.rdN_wrN_self, bitsOf_mod _ _ _ hw, RegRow.merge_fields hc]

/-- A store leaves every other register as it was. -/
theorem State.rd_regStore_ne (s : State) {a b : Nat} (locked : Bool) (w : Nat) (h : b ≠ a) :
    (s.regStore a locked w).rd b = s.rd b := by
  cases hr : regRow a with
  | none => simp only [State.regStore, hr]
  | some r => rw [s.regStore_row hr, State.rd_wrN_ne s _ h]

/-- A store leaves memory as it was. -/
@[simp] theorem State.regStore_mem (s : State) (a : Nat) (locked : Bool) (w : Nat) : (s.regStore a locked w).mem = s.mem := by
  cases hr : regRow a with
  | none => simp only [State.regStore, hr]
  | some r => rw [s.regStore_row hr, State.wrN_mem]

/-- Settles O53: the merges of fields that do not overlap act each on its own field (`merges_self`) and on no other place
(`merges_other`). -/
theorem fieldTypesAct : Obligations.FieldTypesAct := by
  intro s a w locked r hr hc hdisj hin
  refine ⟨fun f hf => ?_, fun i hi hout => ?_, fun b hb => ?_, s.regStore_mem a locked w⟩
  · have hfld : (s.regStore a locked w).fld ⟨a, f.lo, f.width⟩ =
        f.after locked (bitsOf w f.lo f.width) (s.fld ⟨a, f.lo, f.width⟩) :=
      (s.bitsOf_regStore hr hc locked w (hin f hf)).trans (merges_self _ locked w _ hdisj f hf)
    exact hfld
  · have hbits : bitsOf ((s.regStore a locked w).rdN a) i 1 = bitsOf (s.rdN a) i 1 :=
      (s.bitsOf_regStore hr hc locked w (by omega)).trans
        (merges_other _ locked w _ i 1 fun f hf => by have := hout f hf; omega)
    unfold State.rbit
    rw [bitOf_eq, bitOf_eq, hbits]
  · exact s.rd_regStore_ne locked w (by simpa using hb)

/-! ### Register accesses (R4–R7, R509, R522) -/

/-- REGISTER_WRITE is a bus write behind the gate of its address. -/
theorem exec_registerWrite_eq (m : Master) (a : BitVec 20) (size : Fin 9) (v : Word) (s : State) :
    exec (.registerWrite m a size v) s =
      .next (s.writeGate m a.toNat (fun t => t.busWrite m a.toNat size.val v.toNat)) := rfl

/-- PAIR_LO_READ is a read of a register. -/
theorem exec_pairLoRead_eq (m : Master) (a : BitVec 20) (size : Fin 9) (s : State) :
    exec (.pairLoRead m a size) s = .next (s.readReg m a.toNat size.val) := rfl

/-- A write that is taken at its address, by the gate that stands there, has its effect. -/
theorem State.writeGate_taken {s : State} {m : Master} {a : Nat} (op : State → State)
    (h : if a = GLB_LONGOP ∨ a = GLB_LONGARG ∨ a = GLB_RESET then loaderTaken m s else taken m s) :
    s.writeGate m a op = op s := by
  unfold State.writeGate
  split
  · next ha => rw [if_pos ha] at h; exact State.loaderGate_taken op h
  · next ha => rw [if_neg ha] at h; exact State.gate_taken op h

/-- A write that both gates take has its effect at every address. -/
theorem State.writeGate_taken_both {s : State} {m : Master} (a : Nat) (op : State → State) (h : taken m s)
    (hl : loaderTaken m s) : s.writeGate m a op = op s :=
  State.writeGate_taken op (by split <;> assumption)

/-- R7. A write of another width, or off the word boundary, is refused. -/
theorem State.busWrite_bad (s : State) (m : Master) {a size : Nat} (w : Nat) (h : size ≠ 4 ∨ a % 4 ≠ 0) :
    s.busWrite m a size w = s.refuse m a := by
  unfold State.busWrite
  rw [if_pos h]

/-- An aligned word write acts on a register, and does nothing where no register is. -/
theorem State.busWrite_word (s : State) (m : Master) {a : Nat} (w : Nat) (h : a % 4 = 0) :
    s.busWrite m a 4 w = if (regRow a).isSome then s.regWrite m a w else s := by
  unfold State.busWrite
  rw [if_neg (by omega)]

/-- Settles O33: a write that is taken is a bus write, with one case of it per clause; a read is `readReg`. -/
theorem registerAccessesComplete : Obligations.RegisterAccessesComplete := by
  refine ⟨fun m a v s ht ha hr => ?_, fun m a size v s ht hl hbad => ?_, fun m a v s ht hl ha hr => ?_,
    fun m a size s => exec_pairLoRead_eq m a size s⟩
  · rw [exec_registerWrite_eq, State.writeGate_taken _ ht]
    exact congrArg _ ((s.busWrite_word m v.toNat ha).trans (if_pos hr))
  · rw [exec_registerWrite_eq, State.writeGate_taken_both _ _ ht hl, s.busWrite_bad m v.toNat hbad]
  · rw [exec_registerWrite_eq, State.writeGate_taken_both _ _ ht hl]
    exact congrArg _ ((s.busWrite_word m v.toNat ha).trans (if_neg (by simp [hr])))

end Sys2Proof.Machine
end

