-- ==== Sys2Proof/Proofs/Architecture.lean ====
section
/-!
PROOFS. The statements about the architecture (spec/01_architecture.md): what the commands that only report leave unchanged, the
identity, the counters and the cycle configuration of GLB (R30, R41, R43), and what the commands of the hoops, the engines, the
control cycles, the lane tests, the clocks, the long operations and the boot answer.
-/

namespace Sys2Proof.Machine

/-! ### Frames (R45, R95, R108, R119, R155, R274, R279, R295, R331, R332, R406, R514) -/

/-- What a command answers is in every frame that a state it is known to answer is in. -/
theorem frame_of_exec {as : List Nat} {c : Instr} {s t u : State} (hu : exec c s = .next u) (hf : frame as s u)
    (h : exec c s = .next t) : frame as s t := by
  have htu : u = t := Host.Outcome.next.inj (hu.symm.trans h)
  exact htu ▸ hf

/-- An answer by cases is in a frame when that of each case is. -/
theorem frame_ite {as : List Nat} {s t u : State} {c : Prop} [Decidable c] (ht : frame as s t) (hu : frame as s u) :
    frame as s (if c then t else u) := by
  split
  · exact ht
  · exact hu

/-- A loop of operations that keep a frame keeps it. -/
theorem frame_forL {as : List Nat} {α : Type} (l : List α) (f : α → State → State)
    (hf : ∀ x s t, frame as s t → frame as s (f x t)) {s t : State} (h : frame as s t) : frame as s (forL l f t) := by
  induction l generalizing t with
  | nil => exact h
  | cons x l ih => exact ih (hf x s t h)

theorem frame_schedAt {as : List Nat} {s t : State} (h : frame as s t) (n : Nat) (c : Instr) : frame as s (t.schedAt n c) :=
  frame_side h rfl rfl rfl

theorem frame_updTatPhase {as : List Nat} {s t : State} (h : frame as s t) (p : Nat) (f : TatPhase → TatPhase) :
    frame as s (t.updTatPhase p f) := frame_updTat h _

theorem frame_updDly {as : List Nat} {s t : State} (h : frame as s t) (id : Nat) (f : Dly → Dly) : frame as s (t.updDly id f) :=
  frame_updCel h _

theorem frame_delayTimer {as : List Nat} {s t : State} (h : frame as s t) (id : Nat) : frame as s (t.delayTimer id) :=
  frame_sched (frame_unsched h _) _ _

/-- R375. The close of a fault window acts on the window alone. -/
theorem frame_closeWindow (s : State) (src : Nat) : frame [] s (s.closeWindow src) := frame_updFlt (frame_refl _ s) _

/-- R107. The expiry of PRP entries acts on the table and its next expiry. -/
theorem frame_prpExpire (s : State) : frame [] s s.prpExpire := by
  have hfree : frame [] s ((s.updEth (fun x => { x with prp := x.prp.filter (fun e =>
      decide (s.tick < e.used + ms (s.fld (ETH_PRPCFG_FORGET 0)))) })).unsched (· == .prpEntryExpire)) :=
    frame_unsched (frame_updEth (frame_refl _ s) _) _
  exact frame_ite hfree (frame_schedAt hfree _ _)

/-- R118, R119. ANDONE and LINK are in ETH_STATUS. -/
theorem frame_ethLink {s t : State} {p : Nat} (h : frame [ETH_STATUS p] s t) : frame [ETH_STATUS p] s (t.ethLink p) :=
  frame_setB (frame_setB h _ (.head _)) _ (.head _)

/-- R295. INBAND and SETTLED are in ADC_REFSTAT. -/
theorem frame_refSettled (s : State) (b : Bool) : frame [ADC_REFSTAT] s (s.refSettled b) :=
  have hband := frame_setB (frame_refl _ s) (f := ADC_REFSTAT_INBAND) true (.head _)
  frame_ite (frame_setB hband true (.head _)) hband

/-- R279. LOCK is in LNK_PRBS of the lane. -/
theorem frame_prbsLock (s : State) (l : Nat) : frame [LNK_PRBS l] s (s.prbsLock l) :=
  frame_ite (frame_updLane (frame_setB (f := LNK_PRBS_LOCK l) (frame_refl _ s) true (.head _)) l _) (frame_refl _ s)

/-- R274. CTLE is in LNK_STATUS of the lane. -/
theorem frame_ctleTrack (s : State) (l : Nat) (up : Bool) : frame [LNK_STATUS l] s (s.ctleTrack l up) :=
  frame_ite (frame_updLane (frame_setF (f := LNK_STATUS_CTLE l) (frame_refl _ s) _ (.head _)) l _) (frame_refl _ s)

theorem frame_ctleDone (s : State) (l boost : Nat) : frame [LNK_STATUS l] s (s.ctleDone l boost) :=
  frame_ite (frame_updLane (frame_setF (f := LNK_STATUS_CTLE l) (frame_refl _ s) _ (.head _)) l _) (frame_refl _ s)

/-! ### Messages (R492) and 1PPS_OUT (R98) -/

@[simp] theorem State.msix_regs (s : State) (vec : Nat) : (s.msix vec).regs = s.regs := by
  unfold State.msix
  split
  · split <;> rfl
  · rfl

@[simp] theorem State.msix_mem (s : State) (vec : Nat) : (s.msix vec).mem = s.mem := by
  unfold State.msix
  split
  · split <;> rfl
  · rfl

@[simp] theorem State.msixTake_regs (s : State) (vec : Nat) : (s.msixTake vec).regs = s.regs := by
  unfold State.msixTake
  split
  · rw [State.msix_regs, State.updHif_regs]
  · rfl

@[simp] theorem State.msixTake_mem (s : State) (vec : Nat) : (s.msixTake vec).mem = s.mem := by
  unfold State.msixTake
  split
  · rw [State.msix_mem, State.updHif_mem]
  · rfl

@[simp] theorem State.msixFlush_regs (s : State) : s.msixFlush.regs = s.regs :=
  forL_keeps (·.regs) (upto 64) (fun v t => t.msixTake v) (fun v t => t.msixTake_regs v) s

@[simp] theorem State.msixFlush_mem (s : State) : s.msixFlush.mem = s.mem :=
  forL_keeps (·.mem) (upto 64) (fun v t => t.msixTake v) (fun v t => t.msixTake_mem v) s

/-- R492. Without MSI-X no message is sent. -/
theorem State.msixFlush_off {s : State} (h : s.bit HIF_STATUS_MSIXEN = false) : s.msixFlush = s := by
  have htake : ∀ v, s.msixTake v = s := fun v => if_neg (by simp [h])
  show forL (upto 64) (fun v t => t.msixTake v) s = s
  induction upto 64 with
  | nil => rfl
  | cons v l ih => rw [forL_cons, htake, ih]

/-- R489, R492. A configuration write acts on HIF_STATUS, and sends messages only with MSI-X enabled. -/
theorem pcieConfigWrite_frame {s t : State} {b x d : Bool} (h : exec (.pcieConfigWrite b x d) s = .next t) :
    sameRegsBut [HIF_STATUS] s t ∧ sameMem s t ∧ (x = false → t.out = s.out) := by
  obtain ⟨u, hu, ⟨hregs, hmem, hout⟩, hx⟩ : ∃ u : State, t = u.msixFlush ∧ frame [HIF_STATUS] s u ∧ u.bit HIF_STATUS_MSIXEN = x := by
    refine ⟨((s.setB HIF_STATUS_BME b).setB HIF_STATUS_MSIXEN x).updHif (fun h => { h with d3hot := d }),
      (Host.Outcome.next.inj h).symm, ?_, ?_⟩
    · exact frame_updHif (frame_setB (f := HIF_STATUS_MSIXEN)
        (frame_setB (f := HIF_STATUS_BME) (frame_refl _ s) b (.head _)) x (.head _)) _
    · exact (State.bit_congr rfl _).trans (State.bit_setB_self _ _ x rfl (by decide))
  subst hu
  refine ⟨fun a ha => ?_, fun a => ?_, fun hoff => ?_⟩
  · exact (State.rd_congr u.msixFlush_regs a).trans (hregs a ha)
  · exact (State.memB_congr u.msixFlush_mem a).trans (hmem a)
  · rw [State.msixFlush_off (hx.trans hoff)]
    exact hout

/-- R98, R108. 1PPS_OUT rises, or nothing happens. -/
theorem ppsOutPulse_frame {s t : State} (h : exec .ppsOutPulse s = .next t) :
    sameRegsBut [] s t ∧ sameMem s t ∧ (t.out = s.out ∨ t.out = .ppsRise s.ntm.ppsSub :: s.out) := by
  rw [← Host.Outcome.next.inj h]
  split
  · exact ⟨fun _ _ => rfl, fun _ => rfl, .inr rfl⟩
  · exact ⟨fun _ _ => rfl, fun _ => rfl, .inl rfl⟩

/-- Settles O54: the state that each command answers is built from updates of the named registers and of what is no register, so
it is in the frame. -/
theorem statusCommandsFrame : Obligations.StatusCommandsFrame := by
  intro s
  have hs : ∀ as, frame as s s := fun as => frame_refl as s
  refine ⟨fun sp w t => frame_of_exec rfl ?linkUp, fun b x d t h => pcieConfigWrite_frame h, fun t => frame_of_exec rfl ?refLoss,
    fun t => frame_of_exec rfl ?refDetect, fun t => frame_of_exec rfl ?ref10m, fun b t => frame_of_exec rfl (frame_refSettled s b),
    fun p a b c d t => frame_of_exec rfl ?ethLink, fun t => frame_of_exec rfl ?slewEnd, fun t => frame_of_exec rfl ?holdoffEnd,
    fun t => frame_of_exec rfl ?armEnd, fun t => frame_of_exec rfl ?ctlock, fun t h => ppsOutPulse_frame h,
    fun t => frame_of_exec rfl ?ppsEnd, fun t => frame_of_exec rfl (frame_prpExpire s),
    fun src t => frame_of_exec rfl (frame_closeWindow s src.val), fun t => frame_of_exec rfl ?heartbeat,
    fun l t => frame_of_exec rfl (frame_prbsLock s l.val), fun l t => frame_of_exec rfl ?recenter,
    fun l u t => frame_of_exec rfl (frame_ctleTrack s l.val u), fun l b t => frame_of_exec rfl (frame_ctleDone s l.val b.val),
    fun t => frame_of_exec rfl ?handover, fun p t => frame_of_exec rfl ?rotate, fun c t => frame_of_exec rfl ?delay⟩
  case linkUp =>
    exact frame_setF (f := HIF_STATUS_WIDTH) (frame_setF (f := HIF_STATUS_SPEED)
      (frame_setB (f := HIF_STATUS_LINKUP) (hs _) true (.head _)) sp.val (.head _)) w.val (.head _)
  case refLoss =>
    exact frame_setB (f := GLB_CLKSTAT_PCIELOSS) (frame_setB (f := GLB_CLKSTAT_PCIEREF) (hs _) false (.head _)) true (.head _)
  case refDetect => exact frame_setB (f := GLB_CLKSTAT_PCIEREF) (hs _) true (.head _)
  case ref10m =>
    exact frame_setB (f := NTM_STATUS_REF10) (frame_setB (f := GLB_CLKSTAT_REF10M) (hs _) true (.head _)) true (.tail _ (.head _))
  case ethLink =>
    have hsig : frame [ETH_STATUS p.val] s _ := frame_setB (f := ETH_STATUS_REMFLT p.val)
      (frame_setB (f := ETH_STATUS_SIGDET p.val) (hs _) a (.head _)) d (.head _)
    exact frame_ethLink (frame_ite (frame_updEth hsig _) hsig)
  case slewEnd => exact frame_ite (frame_setB (f := NTM_STATUS_SLEWING) (hs _) false (.head _)) (hs _)
  case holdoffEnd => exact frame_setB (f := TWU_STATUS_HOLDOFF) (hs _) false (.head _)
  case armEnd => exact frame_setB (f := TWU_STATUS_ARMED) (hs _) s.twArmed (.head _)
  case ctlock => exact frame_updRdn (frame_setB (f := RDN_STATUS_CTLOCK) (hs _) false (.head _)) _
  case ppsEnd => exact frame_updNtm (hs _) _
  case heartbeat => exact frame_ite (frame_timer (frame_incr (hs _) (.head _)) _ _) (hs _)
  case recenter => exact frame_ite (hs _) (frame_count (hs _) (.head _))
  case handover => exact frame_ite (hs _) (frame_ite (frame_updRdn (hs _) _) (hs _))
  case rotate => exact frame_ite (hs _) (frame_forL _ _ (fun p _ _ h => frame_updTatPhase h p _) (hs _))
  case delay => exact frame_ite (frame_delayTimer (frame_updDly (hs _) _ _) _) (hs _)

/-! ### Identity, counters and the cycle configuration (R30, R41, R43) -/

/-- A word write to a register of the GLB block that is taken acts in that block. -/
theorem exec_registerWrite_glb {s : State} {m : Master} {a : BitVec 20} (w : Word) (h : taken m s)
    (hl : ¬ (a.toNat = GLB_LONGOP ∨ a.toNat = GLB_LONGARG ∨ a.toNat = GLB_RESET)) (ha : a.toNat % 4 = 0)
    (hr : (regRow a.toNat).isSome = true) (hp : blockPage a.toNat = 0) :
    exec (.registerWrite m a 4 w) s = .next (s.writeGlb m a.toNat w.toNat) := by
  have hw : s.regWrite m a.toNat w.toNat = s.writeGlb m a.toNat w.toNat := by
    simp only [State.regWrite, hp]
  exact (registerAccessesComplete.1 m a w s (by rw [if_neg hl]; exact h) ha hr).trans (congrArg _ hw)

/-- The GLB registers whose write has no effect but to store. -/
theorem State.writeGlb_store (s : State) (m : Master) {a : Nat} (w : Nat)
    (h : ¬ (a = GLB_CTRL ∨ a = GLB_RESET ∨ a = GLB_LONGOP ∨ a = GLB_CYCCFG)) : s.writeGlb m a w = s.regStore a false w := by
  simp only [not_or] at h
  obtain ⟨h1, h2, h3, h4⟩ := h
  unfold State.writeGlb
  rw [if_neg h1, if_neg h2, if_neg h3, if_neg h4]

/-- R5. A field of the type RO keeps its value. -/
theorem FRow.merge_ro {f : FRow} (h : f.ty = .ro) (locked : Bool) (w old : Nat) : f.merge locked w old = old := by
  simp only [FRow.merge, h]

/-- R5. A register all of whose fields are RO keeps its word. -/
theorem RegRow.merge_ro {r : RegRow} (hc : r.counter = false) (hf : ∀ f ∈ r.fields, f.ty = .ro) (locked : Bool) (w old : Nat) :
    r.merge locked w old = old := by
  rw [RegRow.merge_fields hc]
  generalize r.fields = fs at hf
  induction fs with
  | nil => rfl
  | cons f fs ih =>
    rw [List.foldl_cons, FRow.merge_ro (hf f (.head _))]
    exact ih (fun g hg => hf g (.tail _ hg))

/-- Bit `i` of a machine word, as a bit of its number. -/
theorem bitOf_toNat {n : Nat} (w : BitVec n) (i : Nat) : bitOf w.toNat i = w.getLsbD i := by
  unfold bitOf BitVec.getLsbD
  rw [Nat.testBit_eq_decide_div_mod_eq, beq_eq_decide]

/-- A word write that keeps the register's word leaves every reading as it was. -/
theorem frame_wrN_same (s : State) (a : Nat) : frame [] s (s.wrN a (s.rdN a)) := by
  refine ⟨fun b _ => ?_, fun _ => rfl, rfl⟩
  by_cases hb : b = a
  · subst hb
    rw [State.wrN, State.rd_wr_self, State.rdN, BitVec.ofNat_toNat, BitVec.setWidth_eq]
  · exact s.rd_wrN_ne _ hb

/-- Settles O58: GLB_ID holds its reset word, and its merge keeps the word (`RegRow.merge_ro`). -/
theorem identityReads : Obligations.IdentityReads := by
  refine ⟨rfl, rfl, rfl, rfl, by decide, by decide, by decide, by decide, fun s m w h => ?_⟩
  have hexec := (exec_registerWrite_glb (a := BitVec.ofNat 20 GLB_ID) w h (by decide) (by decide) (by decide) (by decide)).trans
    (congrArg _ (s.writeGlb_store m w.toNat (by decide)))
  obtain ⟨r, hrow, hc, hro⟩ : ∃ r, regRow GLB_ID = some r ∧ r.counter = false ∧ ∀ f ∈ r.fields, f.ty = .ro :=
    ⟨_, rfl, by decide, by decide⟩
  refine ⟨_, hexec, ?_⟩
  show frame [] s (s.regStore GLB_ID false w.toNat)
  rw [s.regStore_row hrow, RegRow.merge_ro hc hro]
  exact frame_wrN_same s GLB_ID

/-- R43. While control cycles run a write of GLB_CYCCFG is refused, before its lock is looked at. -/
theorem State.writeGlb_cyccfg_running {s : State} (m : Master) (w : Nat) (hrun : s.bit GLB_STATUS_CTRL_RUN = true) :
    s.writeGlb m GLB_CYCCFG w = s.refuse m GLB_CYCCFG := by
  unfold State.writeGlb
  rw [if_neg (by decide), if_neg (by decide), if_neg (by decide), if_pos rfl, if_pos hrun]

/-- Settles O59: with CTRL_RUN set the write takes the branch that refuses, whatever its lock, and GLB is block 0x00. -/
theorem cycleConfigurationHeld : Obligations.CycleConfigurationHeld := by
  refine ⟨by decide, fun s m w h hrun => ?_⟩
  have hexec : exec (.registerWrite m (BitVec.ofNat 20 GLB_CYCCFG) 4 w) s = .next (s.writeGlb m GLB_CYCCFG w.toNat) :=
    exec_registerWrite_glb w h (by decide) (by decide) (by decide) (by decide)
  have hblock : blockPage GLB_CYCCFG = 0x00 := by decide
  rw [hexec, State.writeGlb_cyccfg_running m _ hrun]
  cases m with
  | host | thimble => exact congrArg (fun k => Host.Outcome.next (s.raise 0x07 k)) hblock
  | eng e k => rfl

/-- R41. A counter's register after a write: 0 where a 1 is written to SAT, else the old word. -/
theorem RegRow.merge_counter {r : RegRow} (hc : r.counter = true) (hf : r.fields = [⟨31, 1, .w1c, []⟩, ⟨0, 31, .ro, []⟩])
    (locked : Bool) (w old : Nat) : r.merge locked w old = if bitOf w 31 then 0 else old := by
  by_cases hb : bitOf w 31 = true
  · simp only [RegRow.merge, hc, hb, Bool.and_self, if_true]
  · have hz : bitsOf w 31 1 = 0 := by
      have := bitsOf_lt w 31 1
      rw [bitOf_eq, beq_iff_eq] at hb
      omega
    have hsat : (⟨31, 1, .w1c, []⟩ : FRow).merge locked w old = old := by
      simp only [FRow.merge, hz, Nat.and_zero, Nat.sub_zero, putBits_same]
    rw [RegRow.merge, hc, if_neg (by simpa using hb), if_neg hb, hf, List.foldl_cons, hsat, List.foldl_cons,
      FRow.merge_ro rfl, List.foldl_nil]

/-- R41. COUNT after a count: one more, up to its end. -/
theorem State.count_fld (s : State) (a : Nat) :
    (s.count a).fld ⟨a, 0, 31⟩ = min 0x7FFFFFFF (s.fld ⟨a, 0, 31⟩ + 1) := by
  unfold State.fld
  dsimp only
  by_cases h : bitsOf (s.rdN a) 0 31 + 1 < 0x7FFFFFFF
  · rw [(s.count_below a h).1]
    omega
  · rw [s.count_end a h, min_eq_left (by omega)]
    decide

/-- R41. SAT after a count: set when COUNT reaches its end, and kept. -/
theorem State.count_sat (s : State) (a : Nat) :
    (s.count a).bit ⟨a, 31, 1⟩ = (s.bit ⟨a, 31, 1⟩ || decide (0x7FFFFFFF ≤ s.fld ⟨a, 0, 31⟩ + 1)) := by
  unfold State.bit State.fld
  dsimp only
  by_cases h : bitsOf (s.rdN a) 0 31 + 1 < 0x7FFFFFFF
  · rw [(s.count_below a h).2, decide_eq_false (by omega), Bool.or_false]
  · rw [s.count_end a h, decide_eq_true (by omega), Bool.or_true]
    decide

/-- R41. A word write to a counter of the GLB block that is taken. -/
theorem exec_registerWrite_counter {s : State} {m : Master} {a : BitVec 20} {r : RegRow} (w : Word) (h : taken m s)
    (ha : a.toNat % 4 = 0) (hp : blockPage a.toNat = 0) (hrow : regRow a.toNat = some r) (hc : r.counter = true)
    (hf : r.fields = [⟨31, 1, .w1c, []⟩, ⟨0, 31, .ro, []⟩])
    (hplain : a.toNat ∉ [GLB_CTRL, GLB_RESET, GLB_LONGOP, GLB_LONGARG, GLB_CYCCFG]) :
    exec (.registerWrite m a 4 w) s = .next (s.wrN a.toNat (if w.getLsbD 31 then 0 else s.rdN a.toNat)) := by
  simp only [List.mem_cons, List.not_mem_nil, or_false, not_or] at hplain
  obtain ⟨h1, h2, h3, h4, h5⟩ := hplain
  rw [exec_registerWrite_glb w h (by tauto) ha (by rw [hrow]; rfl) hp, s.writeGlb_store m w.toNat (by tauto), s.regStore_row hrow,
    RegRow.merge_counter hc hf, bitOf_toNat]

/-- Settles O57: `exec_registerWrite_counter` gives the write of either register, `count_fld` and `count_sat` the count. -/
theorem counterLayout : Obligations.CounterLayout := by
  intro a ha
  have hrow : ∃ r, regRow a.toNat = some r ∧ r.counter = true ∧ r.fields = [⟨31, 1, .w1c, []⟩, ⟨0, 31, .ro, []⟩] := by
    rcases ha with rfl | rfl <;> exact ⟨_, rfl, rfl, rfl⟩
  have hplace : a.toNat % 4 = 0 ∧ blockPage a.toNat = 0 ∧
      a.toNat ∉ [GLB_CTRL, GLB_RESET, GLB_LONGOP, GLB_LONGARG, GLB_CYCCFG] := by
    rcases ha with rfl | rfl <;> decide
  have hreset : State.reset.rdN a.toNat = 0 := by rcases ha with rfl | rfl <;> decide
  obtain ⟨r, hr, hc, hf⟩ := hrow
  obtain ⟨h4, hp, hplain⟩ := hplace
  refine ⟨rfl, rfl, rfl, rfl, ?_, ?_, fun s => ⟨fun m w h => ?_, s.count_fld _, s.count_sat _⟩⟩
  · simp only [State.fld, hreset]; decide
  · simp only [State.fld, hreset]; decide
  · refine ⟨_, exec_registerWrite_counter w h h4 hp hr hc hf hplain, frame_wrN (frame_refl _ s) _ (.head _), ?_⟩
    rw [State.rdN_wrN_self]
    split
    · rfl
    · exact Nat.mod_eq_of_lt (s.rd a.toNat).isLt

/-! ### Writes that are taken -/

/-- A command that is a write behind the host gate does what is written, once the write is taken. -/
theorem exec_gate_taken {c : Instr} {s t : State} {m : Master} {op : State → State} (hc : exec c s = .next (s.gate m op))
    (h : taken m s) (ht : op s = t) : exec c s = .next t :=
  hc.trans (congrArg _ ((State.gate_taken op h).trans ht))

/-- The same behind the gate that ROM loader mode opens too (R522). -/
theorem exec_loaderGate_taken {c : Instr} {s t : State} {m : Master} {op : State → State}
    (hc : exec c s = .next (s.loaderGate m op)) (h : loaderTaken m s) (ht : op s = t) : exec c s = .next t :=
  hc.trans (congrArg _ ((State.loaderGate_taken op h).trans ht))

/-! ### Hoop (R48–R61) -/

/-- R53. A write of HOOP_CTRL that would change H0EN while control cycles run is refused. -/
theorem State.hoopCtrl_refused {s : State} {w : Nat} (hrun : s.bit GLB_STATUS_CTRL_RUN = true)
    (hen : bitOf w 0 ≠ s.bit HOOP_CTRL_H0EN) : s.hoopCtrl w = s.evtHoop HOOP_EVT_CFGREF := by
  unfold State.hoopCtrl
  exact if_pos (by simp [hrun, hen])

/-- Settles O10: a write that passes the gate is the operation of its register, and `hoopCtrl_refused` gives the refusals. -/
theorem hoopCommandsComplete : Obligations.HoopCommandsComplete := by
  refine ⟨?h0Enable, ?h0EnableRefused, ?h0Disable, ?h0DisableRefused, ?h0DcSet, ?h0DcClear, ?h0nomWrite, ?primaryReturn,
    fun _ _ _ _ => rfl, fun _ => rfl, fun _ _ _ _ => rfl, ?h1AngleWrite⟩
  case h0Enable | h0Disable | h0DcSet | h0DcClear | primaryReturn => exact fun m s h => exec_gate_taken rfl h rfl
  case h0nomWrite | h1AngleWrite => exact fun m v s h => exec_gate_taken rfl h rfl
  case h0EnableRefused | h0DisableRefused =>
    exact fun m s h hrun hen => exec_gate_taken rfl h (State.hoopCtrl_refused hrun hen)

/-! ### Engines (R122–R139) -/

/-- The command of an instruction that goes does what its kind does, in the state in which the bytes have been read. -/
theorem exec_of_goes {row : Instr} {s t : State} {e : Fin 16} {i : Ins} {len : Nat} {act : Ins → Nat → State → State}
    (hx : exec row s = .next (s.issue e row act)) (h : s.goes e i len) (hr : s.insRow e i = row)
    (ha : act i len (s.fetched e len) = t) : exec row s = .next t :=
  hx.trans (congrArg _ ((State.issue_goes act h hr).trans ha))

/-- R26. A load whose target answers, with no posted store to it, is given its data. -/
theorem State.loadStep_ok {s : State} {e given n : Nat} (fin : Nat → Nat → State → State)
    (hp : s.storePending e (engTarget e given) n = false) (ha : s.engAcc e (engTarget e given) n false = .ok) :
    s.loadStep e given n fin =
      fin (s.loadData e (engTarget e given) n).1 (loadLat e (engTarget e given) n) (s.loadData e (engTarget e given) n).2 := by
  unfold State.loadStep
  simp only [hp, ha, Bool.false_eq_true, if_false]

/-- R125. A store that its target permits and that finds room enters the write buffer. -/
theorem State.storeStep_ok {s : State} {e given n v len : Nat} (hb : (s.eng e).buf.length < 4) (hg : aliasBad given n = false)
    (ha : s.engAcc e (engTarget e given) n true = .ok) :
    s.storeStep e given n v len = (s.post e given n v).retire e (s.nextPc e len) 1 := by
  unfold State.storeStep
  rw [if_neg (by omega), hg, ha]
  rfl

/-- R26. A store to a plain address is the command STORE. -/
theorem storeRow_plain {e : Fin 16} {a : Nat} (h : storeKind a = .plain) : storeRow e a = .store e := by
  unfold storeRow; rw [h]

/-- R466. A store through the bit-set alias is ALIAS_BIT_SET. -/
theorem storeRow_set {e : Fin 16} {a : Nat} (h : storeKind a = .set) : storeRow e a = .aliasBitSet e := by
  unfold storeRow; rw [h]

/-- R466. A store through the bit-clear alias is ALIAS_BIT_CLEAR. -/
theorem storeRow_clear {e : Fin 16} {a : Nat} (h : storeKind a = .clear) : storeRow e a = .aliasBitClear e := by
  unfold storeRow; rw [h]

/-- R122. FENCE retires when the write buffer is empty. -/
theorem State.fenceStep_empty {s : State} {e : Nat} (len : Nat) (h : (s.eng e).buf = []) :
    s.fenceStep e len = s.retire e (s.nextPc e len) 1 := by
  unfold State.fenceStep
  exact if_pos (by rw [h]; rfl)

/-- R122. FENCE.I does so too, and empties the fetch buffer. -/
theorem State.fenceIStep_empty {s : State} {e : Nat} (len : Nat) (h : (s.eng e).buf = []) :
    s.fenceIStep e len = (s.updEng e (fun g => { g with fetchBuf := none })).retire e (s.nextPc e len) 1 := by
  unfold State.fenceIStep
  exact if_pos (by rw [h]; rfl)

/-- Settles O15: an instruction that goes is what the step of its kind does (`exec_of_goes`); loads, stores and fences take the
branch that the hypotheses name. -/
theorem engineInstructionsComplete : Obligations.EngineInstructionsComplete := by
  refine ⟨?lui, ?auipc, ?jal, ?jalr, ?br, ?aluI, ?alu, ?fma, ?fop, ?load, ?flw, ?store, ?fsw, ?storeSet, ?fswSet, ?storeClear,
    ?fswClear, ?fence, ?fenceI, ?wfi, ?ecall, ?ebreak, ?csr, ?illegal, fun _ _ => rfl⟩
  case lui | auipc | jal => exact fun e rd imm len s h => exec_of_goes rfl h rfl rfl
  case jalr => exact fun e rd a off len s h => exec_of_goes rfl h rfl rfl
  case br => exact fun e c a b off len s h => exec_of_goes rfl h rfl rfl
  case aluI | alu => exact fun e f rd a b len s h => exec_of_goes rfl h rfl rfl
  case fma => exact fun e k rd a b c rm len s h => exec_of_goes rfl h rfl rfl
  case fop => exact fun e f rd a b rm len s h => exec_of_goes rfl h rfl rfl
  case load => exact fun e k rd a off len s h hp ha => exec_of_goes rfl h rfl (State.loadStep_ok _ hp ha)
  case flw => exact fun e rd a off len s h hp ha => exec_of_goes rfl h rfl (State.loadStep_ok _ hp ha)
  case store =>
    exact fun e k a b off len s h hk hb hg ha => exec_of_goes rfl h (storeRow_plain hk) (State.storeStep_ok hb hg ha)
  case fsw => exact fun e a b off len s h hk hb hg ha => exec_of_goes rfl h (storeRow_plain hk) (State.storeStep_ok hb hg ha)
  case storeSet =>
    exact fun e k a b off len s h hk hb hg ha => exec_of_goes rfl h (storeRow_set hk) (State.storeStep_ok hb hg ha)
  case fswSet => exact fun e a b off len s h hk hb hg ha => exec_of_goes rfl h (storeRow_set hk) (State.storeStep_ok hb hg ha)
  case storeClear =>
    exact fun e k a b off len s h hk hb hg ha => exec_of_goes rfl h (storeRow_clear hk) (State.storeStep_ok hb hg ha)
  case fswClear =>
    exact fun e a b off len s h hk hb hg ha => exec_of_goes rfl h (storeRow_clear hk) (State.storeStep_ok hb hg ha)
  case fence => exact fun e len s h hb => exec_of_goes rfl h rfl (State.fenceStep_empty len hb)
  case fenceI => exact fun e len s h hb => exec_of_goes rfl h rfl (State.fenceIStep_empty len hb)
  case wfi | ecall | ebreak => exact fun e len s h => exec_of_goes rfl h rfl rfl
  case csr => exact fun e k rd src n len s h => exec_of_goes rfl h rfl rfl
  case illegal => exact fun e cause addr off s ho hd hf => congrArg _ (State.issue_bad _ ho hd hf)

/-! ### Control cycles (R18–R34, R445) -/

/-- Settles O20: a start passes the gate of Quiet too, and the marks of a cycle are the operations of their names. -/
theorem cycleCommandsComplete : Obligations.CycleCommandsComplete := by
  refine ⟨fun m s h hawake => exec_gate_taken rfl h (State.startGate_awake m GLB_CTRL _ hawake),
    fun m s h => exec_gate_taken rfl h rfl, ?ctrlRunStart, ?cycleStart, ?refsDue, ?tattingPublish, ?downDeparture, ?stopStack,
    ?stopLegs, ?stopEnd, fun _ _ => rfl⟩
  case ctrlRunStart | cycleStart | refsDue | tattingPublish | downDeparture | stopStack | stopLegs | stopEnd => exact fun _ => rfl

/-! ### Lanes (R264–R280, R448) -/

/-- Settles O23: a write that is taken is the operation of its field, and what a lane or its PLL reports is that of its name. -/
theorem laneTestCommandsComplete : Obligations.LaneTestCommandsComplete := by
  refine ⟨fun _ _ => rfl, fun _ _ => rfl, ?prbsEnable, ?prbsDisable, ?errinj, fun _ _ => rfl, fun _ _ _ => rfl, ?eyeScanStart,
    fun _ _ _ _ => rfl, fun _ _ => rfl, fun _ _ _ => rfl, fun _ => rfl⟩
  case prbsEnable | prbsDisable | errinj | eyeScanStart => exact fun m lane s h => exec_gate_taken rfl h rfl

/-! ### Security, MRAM and clocks (R16, R45, R474–R480) -/

/-- Settles O30: NVM_WRITE_GO passes the gate, and every other command is an input or an end that the device sees by itself. -/
theorem securityClockCommandsComplete : Obligations.SecurityClockCommandsComplete := by
  refine ⟨?tamperPin, ?voltageTamper, ?clockTamper, ?wipeDone, ?restartDone, fun m s h => exec_gate_taken rfl h rfl, ?lineWritten,
    ?tbLock, ?tbLoss, ?coreLoss, ?coreLock, ?refLoss, ?refDetect, fun _ _ => rfl⟩
  case tamperPin | voltageTamper | clockTamper => exact fun _ _ => rfl
  case wipeDone | restartDone | lineWritten | tbLock | tbLoss | coreLoss | coreLock | refLoss | refDetect => exact fun _ => rfl

/-! ### Long operations (R508) -/

/-- R508. The word that starts operation `op` has START set and names `op`. -/
theorem bitOf_longop_start {op : Nat} (h : op < 16) : bitOf (2 ^ 31 + op) 31 = true := by
  unfold bitOf
  rw [beq_iff_eq]
  omega

theorem bitsOf_longop_op {op : Nat} (h : op < 16) : bitsOf (2 ^ 31 + op) 0 4 = op := by
  unfold bitsOf
  omega

/-- R508. The state in which a long operation runs with its argument. -/
def State.longRuns (s : State) (op : Nat) : State :=
  ((((s.setF GLB_LONGOP_OP op).setF GLB_LONGOP_RESULT 0).setB GLB_STATUS_BUSY true).setB THB_STATUS_LONGOP true).updBst
    (fun b => { b with longop := some (op, s.rdN GLB_LONGARG) })

/-- R508. A start while no long operation runs: one that may not run ends with RESULT 2, another runs. -/
theorem State.longStart_start {s : State} {op : Nat} (hop : op < 16) (hb : s.bit GLB_STATUS_BUSY = false) :
    s.longStart (2 ^ 31 + op) =
      if (s.setF GLB_LONGOP_OP op).longBad op (s.rdN GLB_LONGARG) then (s.setF GLB_LONGOP_OP op).longEnd 2
      else if op = 4 then (s.longRuns op).demandStart else if op = 5 then (s.longRuns op).wipeStart 5 else s.longRuns op := by
  unfold State.longStart
  simp only [bitOf_longop_start hop, bitsOf_longop_op hop, hb, Bool.and_false, Bool.not_true, Bool.false_eq_true, if_false]
  rfl

/-- R508. One that may not run ends at once. -/
theorem State.longStart_bad {s : State} {op : Nat} (hop : op < 16) (hb : s.bit GLB_STATUS_BUSY = false)
    (hl : (s.setF GLB_LONGOP_OP op).longBad op (s.rdN GLB_LONGARG) = true) :
    s.longStart (2 ^ 31 + op) = (s.setF GLB_LONGOP_OP op).longEnd 2 :=
  (State.longStart_start hop hb).trans (if_pos hl)

/-- R508. Another runs; what it does at its start depends on the operation. -/
theorem State.longStart_good {s : State} {op : Nat} (hop : op < 16) (hb : s.bit GLB_STATUS_BUSY = false)
    (hl : (s.setF GLB_LONGOP_OP op).longBad op (s.rdN GLB_LONGARG) = false) :
    s.longStart (2 ^ 31 + op) =
      if op = 4 then (s.longRuns op).demandStart else if op = 5 then (s.longRuns op).wipeStart 5 else s.longRuns op :=
  (State.longStart_start hop hb).trans (if_neg (by simp [hl]))

/-- R508. A commit, a lifecycle advance and a fuse program do nothing more at their start. -/
theorem State.longStart_plain {s : State} {op : Nat} (hop : op < 4) (hb : s.bit GLB_STATUS_BUSY = false)
    (hl : (s.setF GLB_LONGOP_OP op).longBad op (s.rdN GLB_LONGARG) = false) : s.longStart (2 ^ 31 + op) = s.longRuns op := by
  rw [State.longStart_good (by omega) hb hl, if_neg (by omega), if_neg (by omega)]

/-- R524. A BIST run begins at once. -/
theorem State.longStart_bist {s : State} (hb : s.bit GLB_STATUS_BUSY = false)
    (hl : (s.setF GLB_LONGOP_OP 4).longBad 4 (s.rdN GLB_LONGARG) = false) :
    s.longStart (2 ^ 31 + 4) = (s.longRuns 4).demandStart := by
  rw [State.longStart_good (by omega) hb hl, if_pos rfl]

/-- R479. A wipe begins at once, with its own cause. -/
theorem State.longStart_wipe {s : State} (hb : s.bit GLB_STATUS_BUSY = false)
    (hl : (s.setF GLB_LONGOP_OP 5).longBad 5 (s.rdN GLB_LONGARG) = false) :
    s.longStart (2 ^ 31 + 5) = (s.longRuns 5).wipeStart 5 := by
  rw [State.longStart_good (by omega) hb hl, if_neg (by omega), if_pos rfl]

/-- Settles O31: each operation is a start of its number, and `longStart_bad` or the lemma of its start describes it. -/
theorem longOperationsComplete : Obligations.LongOperationsComplete := by
  refine ⟨?bad1, ?good1, ?bad2, ?good2, ?bad3, ?good3, ?bad4, fun s h hb hl => ?bist, ?bad5, fun s h hb hl => ?wipe,
    fun _ _ => rfl⟩
  case bad1 | bad2 | bad3 | bad4 | bad5 =>
    exact fun s h hb hl => exec_loaderGate_taken rfl h (State.longStart_bad (by decide) hb hl)
  case good1 | good2 | good3 =>
    exact fun s h hb hl => exec_loaderGate_taken rfl h (State.longStart_plain (by decide) hb hl)
  case bist => exact exec_loaderGate_taken rfl h (State.longStart_bist hb hl)
  case wipe => exact exec_loaderGate_taken rfl h (State.longStart_wipe hb hl)

/-! ### Resets, boot, shutdown and Quiet (R36–R38, R519–R532) -/

/-- R521. The keyed write with CONFIRM makes the booted image the preferred one. -/
theorem State.bootCfg_confirm (s : State) (m : Master) :
    s.bootCfg m 0xB0C50004 = s.writePref (s.bit GLB_STATUS_BOOTIMG) false 0 := rfl

/-- R521. The keyed write with SELVALID selects an image with a sound header. -/
theorem State.bootCfg_select (s : State) (m : Master) (sel : Bool) :
    s.bootCfg m (0xB0C50002 + if sel then 1 else 0) =
      if headerOk (s.memBytes (imageBase sel) 32) then s.writePref sel false 0 else s.refuse m BST_BOOTCFG := by
  have hkey : bitsOf (0xB0C50002 + if sel then 1 else 0) 16 16 = 0xB0C5 := by cases sel <;> rfl
  have hsel : bitOf (0xB0C50002 + if sel then 1 else 0) 0 = sel := by cases sel <;> rfl
  have hvalid : bitOf (0xB0C50002 + if sel then 1 else 0) 1 = true := by cases sel <;> rfl
  have hconf : bitOf (0xB0C50002 + if sel then 1 else 0) 2 = false := by cases sel <;> rfl
  unfold State.bootCfg
  simp only [hkey, hsel, hvalid, hconf]
  cases headerOk (s.memBytes (imageBase sel) 32) <;> rfl

/-- R525. The keyed write of BST_SDCMD starts a shutdown unless one is refused. -/
theorem State.shutdownCmd_start (s : State) (m : Master) :
    s.shutdownCmd m 0x5D7E0001 =
      if s.shutdownBad then s.refuse m BST_SDCMD
      else ((s.setB BST_STATUS_SDBUSY true).selvTrip 61 0xFFF true true).sched (us 10) .shutdownPadHold := by
  unfold State.shutdownCmd
  cases s.shutdownBad <;> rfl

/-- R528. The keyed write of BST_QCMD with ENTER. -/
theorem State.quietCmd_enter (s : State) (m : Master) :
    s.quietCmd m 0x9E170001 =
      if s.awake then (if s.quietBad then (s.setB BST_QSTAT_REFUSED true).refuse m BST_QCMD else s.quietEnter) else s := rfl

/-- R529. The keyed write of BST_QCMD with WAKE. -/
theorem State.quietCmd_wake (s : State) (m : Master) : s.quietCmd m 0x9E170002 = s.wakeEvent 4 := rfl

/-- Settles O32: the keyed writes of the host are those that the five lemmas above describe; the other commands are the steps of
their names. -/
theorem bootCommandsComplete : Obligations.BootCommandsComplete := by
  refine ⟨?powerOn, ?perst, ?powerDown, fun m w s h => exec_loaderGate_taken rfl h rfl, ?watchdog, ?boot, fun _ _ => rfl,
    fun s h => exec_gate_taken rfl h (s.bootCfg_confirm _), fun m sel s h => exec_gate_taken rfl h (s.bootCfg_select m sel),
    fun s h => exec_gate_taken rfl h (s.shutdownCmd_start _), ?padHold, fun _ _ => rfl,
    fun s h => exec_gate_taken rfl h (s.quietCmd_enter _), fun s h => exec_gate_taken rfl h (s.quietCmd_wake _),
    ?quietDone, ?wakePin, ?awake, ?alarm, fun _ _ => rfl, ?halt, ?restart⟩
  case powerOn | perst | powerDown | watchdog | boot | padHold | quietDone | wakePin | awake | alarm | halt | restart =>
    exact fun _ => rfl

end Sys2Proof.Machine
end

