-- ==== Sys2Proof/Proofs/HoopAndPricking.lean ====
section
/-!
PROOFS. The statements about Pricking (spec/02_hoop_and_pricking.md): the order in which INSERT puts an entry into a sorted page
(R72, R73), and what the commands and actions of Pricking answer.
-/

namespace Sys2Proof.Machine

/-! ### The order of a page (R72) -/

theorem entLe_iff {a b : BitVec 128} :
    entLe a b = true ↔ entSrc a * 2 ^ 32 + entAngle a ≤ entSrc b * 2 ^ 32 + entAngle b := decide_eq_true_iff

theorem entLe_trans {a b c : BitVec 128} (hab : entLe a b = true) (hbc : entLe b c = true) : entLe a c = true :=
  entLe_iff.mpr ((entLe_iff.mp hab).trans (entLe_iff.mp hbc))

/-- Of two entries, one that does not sort before or with the other sorts after it. -/
theorem entLe_of_not_entLe {a b : BitVec 128} (h : entLe a b = false) : entLe b a = true := by
  rw [← Bool.not_eq_true, entLe_iff] at h
  exact entLe_iff.mpr (Nat.le_of_not_le h)

/-! ### INSERT (R73) -/

theorem entInsert_cons_le {e x : BitVec 128} {l : List (BitVec 128)} (h : entLe x e = true) :
    entInsert e (x :: l) = (x :: (entInsert e l).1, (entInsert e l).2 + 1) := if_pos h

theorem entInsert_cons_gt {e x : BitVec 128} {l : List (BitVec 128)} (h : entLe x e = false) :
    entInsert e (x :: l) = (e :: x :: l, 0) := if_neg (by simp [h])

/-- R73. The answered index is that of the first entry that sorts strictly after the new one, or the length. -/
theorem entInsert_idx (e : BitVec 128) (l : List (BitVec 128)) :
    (entInsert e l).2 = l.findIdx (fun x => !entLe x e) := by
  induction l with
  | nil => rfl
  | cons x l ih =>
    cases h : entLe x e with
    | true => simp [entInsert_cons_le h, List.findIdx_cons, h, ih]
    | false => simp [entInsert_cons_gt h, List.findIdx_cons, h]

/-- R73. The old entries keep their order around the new one, which stands at the answered index. -/
theorem entInsert_page (e : BitVec 128) (l : List (BitVec 128)) :
    (entInsert e l).1 = l.take (entInsert e l).2 ++ e :: l.drop (entInsert e l).2 := by
  induction l with
  | nil => rfl
  | cons x l ih =>
    cases h : entLe x e with
    | true => simpa [entInsert_cons_le h] using ih
    | false => simp [entInsert_cons_gt h]

/-- What stands before the answered index sorts before or with the new entry, in a page of any order. -/
theorem entLe_of_mem_take_entInsert {e x : BitVec 128} {l : List (BitVec 128)} (h : x ∈ l.take (entInsert e l).2) :
    entLe x e = true := by
  rw [entInsert_idx, ← List.takeWhile_eq_take_findIdx_not] at h
  exact List.mem_takeWhile_imp (p := fun x => entLe x e) h

/-- In a sorted page, what stands from the answered index on sorts strictly after the new entry: each entry sorts after the first
one there, which does. -/
theorem entLe_of_mem_drop_entInsert {e : BitVec 128} {l : List (BitVec 128)} (hl : l.Pairwise (fun x y => entLe x y = true)) :
    ∀ x ∈ l.drop (entInsert e l).2, entLe x e = false := by
  induction l with
  | nil => exact fun x hx => absurd hx List.not_mem_nil
  | cons y l ih =>
    obtain ⟨hy, hl⟩ := List.pairwise_cons.mp hl
    cases h : entLe y e with
    | true =>
      rw [entInsert_cons_le h]
      exact ih hl
    | false =>
      rw [entInsert_cons_gt h]
      refine List.forall_mem_cons.mpr ⟨h, fun z hz => ?_⟩
      by_contra hze
      exact absurd (entLe_trans (hy z hz) (Bool.eq_true_of_not_eq_false hze)) (by simp [h])

/-- R72. INSERT keeps a page sorted. -/
theorem entInsert_sorted (e : BitVec 128) {l : List (BitVec 128)} (hl : l.Pairwise (fun x y => entLe x y = true)) :
    (entInsert e l).1.Pairwise (fun x y => entLe x y = true) := by
  have hsplit := hl
  rw [← List.take_append_drop (entInsert e l).2 l, List.pairwise_append] at hsplit
  obtain ⟨htake, hdrop, hcross⟩ := hsplit
  rw [entInsert_page, List.pairwise_append, List.pairwise_cons]
  have hafter : ∀ y ∈ l.drop (entInsert e l).2, entLe e y = true :=
    fun y hy => entLe_of_not_entLe (entLe_of_mem_drop_entInsert hl y hy)
  exact ⟨htake, ⟨hafter, hdrop⟩, fun x hx => List.forall_mem_cons.mpr ⟨entLe_of_mem_take_entInsert hx, hcross x hx⟩⟩

/-- Settles O46: the page is split at the answered index, and being sorted puts every later entry strictly after the new one. -/
theorem insertKeepsOrder : Obligations.InsertKeepsOrder := fun l e hl =>
  ⟨entInsert_sorted e hl, entInsert_page e l, entInsert_idx e l ▸ List.findIdx_le_length,
    fun _ hx => entLe_of_mem_take_entInsert hx, entLe_of_mem_drop_entInsert hl⟩

/-! ### The commands of Pricking (R70–R78) -/

/-- Settles O11: a write that passes the gate is the operation of its field, and a pass, a completion, a swap's effect and an
action are the steps of their names. -/
theorem prickingCommandsComplete : Obligations.PrickingCommandsComplete := by
  refine ⟨fun _ => rfl, ?enable, ?disable, ?read, ?write, ?insert, ?delete, ?clear, ?commit, ?complete, ?swapRequest,
    ?swapEffect, fun _ _ => rfl, fun _ _ => rfl, fun _ _ => rfl, fun _ _ _ _ => rfl⟩
  case enable | disable => exact fun m s h => exec_gate_taken rfl h rfl
  case read | write | insert | delete | clear | commit | swapRequest => exact fun m page s h => exec_gate_taken rfl h rfl
  case complete | swapEffect => exact fun _ => rfl

end Sys2Proof.Machine
end

