-- ==== Sys2Proof/Proofs/NetworkTime.lean ====
section
/-!
PROOFS. The statements about network time (spec/03_network_time.md): the advance of a tick (R92, R93, R95), and what the commands
of the clock and of the Ethernet ports answer.
-/

namespace Sys2Proof.Machine

/-! ### The exact time (R92) -/

/-- R92. From zero on the clock is set to the time that is asked for. -/
theorem NtmSt.exact_setExact (n : NtmSt) {t : Int} (h : 0 ≤ t) : ((n.setExact t).exact : Int) = t := by
  obtain ⟨k, rfl⟩ := Int.eq_ofNat_of_zero_le h
  unfold NtmSt.exact NtmSt.setExact
  dsimp only
  omega

theorem NtmSt.setExact_ns_lt (n : NtmSt) (t : Int) : (n.setExact t).ns < 1000000000 := Nat.mod_lt _ (by decide)

theorem NtmSt.setExact_frac_lt (n : NtmSt) (t : Int) : (n.setExact t).frac < 2 ^ 32 := Nat.mod_lt _ (by decide)

/-! ### The part of a slew (R95) -/

/-- R95. The part of the remainder that a tick takes: δ with the sign of the remainder, or the remainder when that is smaller. -/
def State.slewPart (s : State) : Int :=
  if s.ntm.rem = 0 then 0 else if s.ntm.rem.natAbs < s.slewDelta then s.ntm.rem
  else if 0 < s.ntm.rem then s.slewDelta else -(s.slewDelta : Int)

theorem State.slewPart_natAbs_le (s : State) : s.slewPart.natAbs ≤ s.slewDelta := by
  unfold State.slewPart
  split_ifs <;> omega

theorem State.slewPart_of_nonneg {s : State} (h : 0 ≤ s.ntm.rem) : 0 ≤ s.slewPart ∧ s.slewPart ≤ s.ntm.rem := by
  unfold State.slewPart
  split_ifs <;> omega

theorem State.slewPart_of_nonpos {s : State} (h : s.ntm.rem ≤ 0) : s.ntm.rem ≤ s.slewPart ∧ s.slewPart ≤ 0 := by
  unfold State.slewPart
  split_ifs <;> omega

/-! ### The advance of a tick (R92, R95, R98) -/

/-- R98. A mark of pulses acts on the pulses that are done alone. -/
theorem State.ppsMark_eq (s : State) (a b : Int) : ∃ done, s.ppsMark a b = s.updNtm (fun n => { n with ppsDone := done }) := by
  unfold State.ppsMark
  split
  · exact ⟨_, rfl⟩
  · exact ⟨s.ntm.ppsDone, rfl⟩

/-- R98. The passing of a pulse acts on the pulses and on what is scheduled: neither the time, nor the remainder, nor a
register. -/
theorem State.ppsRun_keeps (s : State) (t0 : Int) :
    (s.ppsRun t0).regs = s.regs ∧
      ∃ done due sub, (s.ppsRun t0).ntm = { s.ntm with ppsDone := done, ppsDue := due, ppsSub := sub } := by
  unfold State.ppsRun
  dsimp only
  split
  · obtain ⟨done, hmark⟩ := s.ppsMark_eq (s.ppsLast s.ntm.exact) (s.ppsLast s.ntm.exact)
    rw [hmark]
    exact ⟨rfl, done, true, _, rfl⟩
  · exact ⟨rfl, _, _, _, rfl⟩

/-- R92, R95. The clock after a tick: the increment and the slew's part are added, and the part is taken from the remainder. -/
def State.clockOn (s : State) : NtmSt :=
  { s.ntm.setExact ((s.ntm.exact : Int) + s.ntmInc + s.slewPart) with rem := s.ntm.rem - s.slewPart }

/-- R95, R98. The advance takes the clock there, with the pulses on the way, and the end of a slew is due. -/
theorem State.ntmAdvance_eq (s : State) :
    s.ntmAdvance =
      if s.ntm.rem ≠ 0 ∧ ((s.updNtm (fun _ => s.clockOn)).ppsRun s.ntm.exact).ntm.rem = 0 then
        ((s.updNtm (fun _ => s.clockOn)).ppsRun s.ntm.exact).sched 0 .ntmSlewComplete
      else (s.updNtm (fun _ => s.clockOn)).ppsRun s.ntm.exact := rfl

/-- R92, R95, R98. The advance acts on the clock, on the pulses and on what is scheduled alone. -/
theorem State.ntmAdvance_keeps (s : State) :
    s.ntmAdvance.regs = s.regs ∧
      ∃ done due sub, s.ntmAdvance.ntm = { s.clockOn with ppsDone := done, ppsDue := due, ppsSub := sub } := by
  have hrun := (s.updNtm (fun _ => s.clockOn)).ppsRun_keeps s.ntm.exact
  rw [State.ntmAdvance_eq]
  split
  · exact hrun
  · exact hrun

/-- Settles O45: the clock after the advance is that of `clockOn`, which is `setExact` but for the remainder and the pulses,
and the bounds are those of the slew's part. -/
theorem networkTimeAdvances : Obligations.NetworkTimeAdvances := by
  intro s
  obtain ⟨hregs, done, due, sub, hntm⟩ := s.ntmAdvance_keeps
  have hpart : s.ntm.rem - s.ntmAdvance.ntm.rem = s.slewPart := by
    rw [hntm]
    exact Int.sub_sub_self _ _
  dsimp only
  rw [hpart, hntm]
  exact ⟨fun h => s.ntm.exact_setExact h, s.slewPart_natAbs_le, State.slewPart_of_nonneg, State.slewPart_of_nonpos,
    s.ntm.setExact_ns_lt _, s.ntm.setExact_frac_lt _, State.rd_congr hregs _⟩

/-! ### Reads of the clock (R94, R108) -/

/-- R8. A full-word read that is served, of a register that shows no captured word: its word, and the captures. -/
theorem State.readReg_word {s : State} {m : Master} {a : Nat} (h : m = .host → s.readServed a = true) (h4 : a % 4 = 0)
    (hc : isCaptured a = false) :
    s.readReg m a 4 =
      (forL (pairHis a) (fun b t => t.capture m b (t.regView b)) s).setRdata (s.regView a % 2 ^ 32) := by
  have ha : a / 4 * 4 = a := by omega
  have hs : ¬ (m = .host ∧ s.readServed a = false) := fun ⟨hm, hf⟩ => by simp [h hm] at hf
  unfold State.readReg State.busRead State.regRead
  simp only [ha, if_neg hs, h4, hc, Bool.false_eq_true, if_false, Nat.mul_zero, Nat.pow_zero, Nat.div_one]

/-- R94. A read of NTM_TIME_NS captures the seconds and the fraction. -/
theorem State.readReg_time {s : State} {m : Master} (h : m = .host → s.readServed NTM_TIME_NS = true) :
    s.readReg m NTM_TIME_NS 4 =
      (((s.capture m NTM_TIME_SECL (s.ntm.sec % 2 ^ 32)).capture m NTM_TIME_SECH (s.ntm.sec / 2 ^ 32 % 65536)).capture m
        NTM_TIME_FRAC s.ntm.frac).setRdata (s.ntm.ns % 2 ^ 32) :=
  (State.readReg_word h (by decide) (by decide)).trans rfl

/-- R108. A read of NTM_PPSIN_NS captures its seconds. -/
theorem State.readReg_ppsIn {s : State} {m : Master} (h : m = .host → s.readServed NTM_PPSIN_NS = true) :
    s.readReg m NTM_PPSIN_NS 4 =
      (s.capture m NTM_PPSIN_SECL (s.rdN NTM_PPSIN_SECL)).setRdata (s.rdN NTM_PPSIN_NS) := by
  have hlt : s.rdN NTM_PPSIN_NS < 2 ^ 32 := (s.rd NTM_PPSIN_NS).isLt
  exact (State.readReg_word h (by decide) (by decide)).trans (congrArg _ (Nat.mod_eq_of_lt hlt))

/-- R509. A host read that is not served answers ones and captures nothing. -/
theorem State.readReg_unserved {s : State} {a : Nat} (h4 : a % 4 = 0) (h : s.readServed a = false) (size : Nat) :
    s.readReg .host a size = s.setRdata 0xFFFFFFFF := by
  have ha : a / 4 * 4 = a := by omega
  have hs : s.readServed (a / 4 * 4) = false := ha.symm ▸ h
  exact if_pos ⟨rfl, hs⟩

/-! ### Corrections (R95) -/

/-- R95. In HOLDOVER a correction has no effect but its event. -/
theorem State.ntmAdj_holdover {s : State} (w : Nat) (h : s.ntmState = ntmHoldover) : s.ntmAdj w = s.evtNtm NTM_EVT_HOLDWR :=
  if_pos h

/-- R95. With MODE 0 a correction is a step at the next tick. -/
theorem State.ntmAdj_step {s : State} (w : Nat) (h : s.ntmState ≠ ntmHoldover) (hm : s.bit NTM_ADJCTL_MODE = false) :
    s.ntmAdj w =
      s.updNtm (fun n => { n with ops := n.ops ++ [.step (clampInt (-999999999) 999999999 (toSigned 32 w))] }) := by
  unfold State.ntmAdj
  rw [if_neg h, if_neg (by simp [hm])]

/-- R95. With MODE 1 it is added to the remainder, which SLEWING shows. -/
theorem State.ntmAdj_slew {s : State} (w : Nat) (h : s.ntmState ≠ ntmHoldover) (hm : s.bit NTM_ADJCTL_MODE = true) :
    s.ntmAdj w =
      (let lim : Int := 999999999 * 2 ^ 32
      let s1 := s.updNtm (fun n => { n with
        rem := clampInt (-lim) lim (n.rem + clampInt (-999999999) 999999999 (toSigned 32 w) * 2 ^ 32) })
      s1.setB NTM_STATUS_SLEWING (s1.ntm.rem != 0)) := by
  unfold State.ntmAdj
  rw [if_neg h, if_pos hm]

/-- R95. NTM_ADJ_STEP that is taken in step mode is a correction. -/
theorem exec_ntmAdjStep {s : State} {m : Master} (v : Word) (h : taken m s) (hm : s.bit NTM_ADJCTL_MODE = false) :
    exec (.ntmAdjStep m v) s = .next (s.ntmAdj v.toNat) := exec_gate_taken rfl h (if_neg (by simp [hm]))

/-- R95. NTM_ADJ_SLEW that is taken in slew mode is a correction. -/
theorem exec_ntmAdjSlew {s : State} {m : Master} (v : Word) (h : taken m s) (hm : s.bit NTM_ADJCTL_MODE = true) :
    exec (.ntmAdjSlew m v) s = .next (s.ntmAdj v.toNat) := exec_gate_taken rfl h (if_pos hm)

/-! ### State commands (R99) -/

/-- R99. The command FREE acts in every state but FREE. -/
theorem State.ntmCmd_free (s : State) : s.ntmCmd 1 = if s.ntmState = ntmFree then s else s.ntmEnter ntmFree := by
  unfold State.ntmCmd
  rw [if_pos rfl]

/-- R99. The command ACQUIRE acts in FREE and HOLDOVER. -/
theorem State.ntmCmd_acquire (s : State) :
    s.ntmCmd 2 = if s.ntmState = ntmFree ∨ s.ntmState = ntmHoldover then s.ntmEnter ntmAcquire else s := by
  unfold State.ntmCmd
  rw [if_neg (by decide), if_pos rfl]

/-- R99, R100. The command LOCK acts in ACQUIRE, and is refused there without a master. -/
theorem State.ntmCmd_lock (s : State) :
    s.ntmCmd 3 =
      if s.ntmState = ntmAcquire then
        (if s.masterPresent then (s.ntmEnter ntmLocked).masterArm else s.evtNtm NTM_EVT_LOCKREF)
      else s := by
  unfold State.ntmCmd
  rw [if_neg (by decide), if_neg (by decide), if_pos rfl]

/-- R99. The command HOLD acts in LOCKED. -/
theorem State.ntmCmd_hold (s : State) : s.ntmCmd 4 = if s.ntmState = ntmLocked then s.ntmHold s.tick else s := by
  unfold State.ntmCmd
  rw [if_neg (by decide), if_neg (by decide), if_neg (by decide), if_pos rfl]

/-! ### The commands of the clock (R92–R109) -/

/-- Settles O12: a read is one of the three cases of `readReg`, a correction one of the three of `ntmAdj`, a state command one of
the four of `ntmCmd`, any other write that passes the gate the operation of its register, and the inputs and timers are the steps
of their names. -/
theorem ntmCommandsComplete : Obligations.NtmCommandsComplete := by
  refine ⟨fun m s h => congrArg _ (State.readReg_time h), fun m s h => congrArg _ (State.readReg_ppsIn h), ?unserved, ?inc,
    ?step, ?stepHold, ?slew, ?slewHold, ?slewEnd, ?set, fun _ s h => exec_gate_taken rfl h s.ntmCmd_free,
    fun _ s h => exec_gate_taken rfl h s.ntmCmd_acquire, fun _ s h => exec_gate_taken rfl h s.ntmCmd_lock,
    fun _ s h => exec_gate_taken rfl h s.ntmCmd_hold, ?timeout, ?masterId, ?masterPort, ?ctrl,
    ?holdUpdate, ?pps, ?ppsEnd, fun _ _ _ => rfl, fun _ _ => rfl, ?loss, ?detect, ?alarm⟩
  case unserved =>
    intro pps s h
    cases pps with
    | false => exact congrArg _ (State.readReg_unserved (by decide) h 4)
    | true => exact congrArg _ (State.readReg_unserved (by decide) h 4)
  case step => exact fun m v s h hm hst => (exec_ntmAdjStep v h hm).trans (congrArg _ (State.ntmAdj_step _ hst hm))
  case stepHold => exact fun m v s h hm hst => (exec_ntmAdjStep v h hm).trans (congrArg _ (State.ntmAdj_holdover _ hst))
  case slew => exact fun m v s h hm hst => (exec_ntmAdjSlew v h hm).trans (congrArg _ (State.ntmAdj_slew _ hst hm))
  case slewHold => exact fun m v s h hm hst => (exec_ntmAdjSlew v h hm).trans (congrArg _ (State.ntmAdj_holdover _ hst))
  case inc | masterId | masterPort | ctrl => exact fun m v s h => exec_gate_taken rfl h rfl
  case set => exact fun m s h => exec_gate_taken rfl h rfl
  case slewEnd | timeout | holdUpdate | pps | ppsEnd | loss | detect | alarm => exact fun _ => rfl

/-! ### The commands of the Ethernet ports (R103–R119) -/

/-- Settles O13: no gate stands before a frame, an expiry or a link change, and each is the step of its name. -/
theorem ethernetCommandsComplete : Obligations.EthernetCommandsComplete :=
  ⟨fun _ _ _ _ => rfl, fun _ _ _ _ _ => rfl, fun _ => rfl, fun _ _ _ _ _ _ => rfl⟩

end Sys2Proof.Machine
end

