-- ==== Sys2Proof/Proofs/Xvarul.lean ====
section
/-!
PROOFS. The statements about the Xvarul extension of the engines (spec/04_bobbin_engines.md): the arc test (R128), rounding and
saturation (R127), the accuracy of CORDIC (R129), and what the issue of each of its instructions answers.
-/

namespace Sys2Proof.Machine

/-! ### Arcs (R128) -/

/-- R128. VA.BTW gives 1 or 0. -/
theorem vaBtw_eq_one_iff (a b c : Nat) : vaBtw a b c = 1 ↔ vaDiff a b < vaDiff c b := by
  simp [vaBtw]

theorem vaBtw_eq_zero_iff (a b c : Nat) : vaBtw a b c = 0 ↔ ¬ vaDiff a b < vaDiff c b := by
  simp [vaBtw]

/-- R126. The difference of two angles is the one offset, below a turn, from the second to the first. -/
theorem eq_add_iff_vaDiff {a b k : Nat} (ha : a < 2 ^ 32) (hb : b < 2 ^ 32) (hk : k < 2 ^ 32) :
    a = (b + k) % 2 ^ 32 ↔ k = vaDiff a b := by
  unfold vaDiff
  omega

theorem vaDiff_lt (a b : Nat) : vaDiff a b < 2 ^ 32 := Nat.mod_lt _ (Nat.two_pow_pos 32)

/-- R126. An angle is at the offset 0 from itself. -/
theorem vaDiff_self {a : Nat} (ha : a < 2 ^ 32) : vaDiff a a = 0 := by
  unfold vaDiff
  omega

/-- R128. An angle is nearer to `b` than `c` exactly when it is in the arc from `b` to `c`. -/
theorem vaDiff_lt_iff {a b : Nat} (c : Nat) (ha : a < 2 ^ 32) (hb : b < 2 ^ 32) :
    vaDiff a b < vaDiff c b ↔ ∃ k, k < vaDiff c b ∧ a = (b + k) % 2 ^ 32 := by
  constructor
  · exact fun h => ⟨vaDiff a b, h, (eq_add_iff_vaDiff ha hb (vaDiff_lt a b)).mpr rfl⟩
  · rintro ⟨k, hk, hak⟩
    exact (eq_add_iff_vaDiff ha hb (hk.trans (vaDiff_lt c b))).mp hak ▸ hk

/-- Settles O36: the test compares the offsets from the start of the arc, and an angle is in the arc when its offset is below the
arc's length (`vaDiff_lt_iff`). -/
theorem arcTest : Obligations.ArcTest := by
  intro a b c ha hb hc
  have harc : vaDiff a b < vaDiff c b ↔ ∃ k, k < (c + (2 ^ 32 - b)) % 2 ^ 32 ∧ a = (b + k) % 2 ^ 32 := vaDiff_lt_iff c ha hb
  refine ⟨(vaBtw_eq_one_iff a b c).trans harc, (vaBtw_eq_zero_iff a b c).trans (not_congr harc),
    (vaBtw_eq_zero_iff a b b).mpr ?_, (vaBtw_eq_zero_iff c b c).mpr (lt_irrefl _)⟩
  rw [vaDiff_self hb]
  exact Nat.not_lt_zero _

/-! ### Rounding and saturation (R127) -/

/-- The word of a number that fits its signed range reads back as the number. -/
theorem toSigned_ofSigned {w : Nat} (hw : 0 < w) {z : Int} (h1 : -(2 ^ (w - 1)) ≤ z) (h2 : z < 2 ^ (w - 1)) :
    toSigned w (ofSigned w z) = z := by
  obtain ⟨v, rfl⟩ : ∃ v, w = v + 1 := ⟨w - 1, by omega⟩
  have hpow : (2 : Int) ^ (v + 1) = 2 * 2 ^ v := by ring
  have hmod : ((ofSigned (v + 1) z : Nat) : Int) = z % 2 ^ (v + 1) := by
    unfold ofSigned
    rw [Int.toNat_of_nonneg (Int.emod_nonneg _ (by positivity))]
    push_cast
    rfl
  have hlt : ofSigned (v + 1) z < 2 ^ (v + 1) := by
    zify
    rw [hmod]
    exact Int.emod_lt_of_pos _ (by positivity)
  simp only [Nat.add_sub_cancel] at h1 h2
  unfold toSigned
  simp only [Nat.mod_eq_of_lt hlt, Nat.add_sub_cancel]
  have hcast : ofSigned (v + 1) z < 2 ^ v ↔ z % 2 ^ (v + 1) < 2 ^ v := by
    rw [← hmod]; norm_cast
  simp only [hcast, hmod]
  rcases le_or_gt 0 z with h | h
  · rw [Int.emod_eq_of_lt h (by omega), if_pos h2]
  · have : z % 2 ^ (v + 1) = z + 2 ^ (v + 1) := by
      rw [← Int.add_emod_right, Int.emod_eq_of_lt (by omega) (by omega)]
    rw [this, if_neg (by omega)]
    omega

/-- R127. The saturation gives the value where it fits the signed range, else the nearer limit. -/
theorem satSigned_eq {w : Nat} (z : Int) : satSigned w z = max (-(2 ^ (w - 1))) (min (2 ^ (w - 1) - 1) z) := by
  have : (0 : Int) < 2 ^ (w - 1) := by positivity
  unfold satSigned clampInt
  split_ifs <;> omega

theorem le_satSigned (w : Nat) (z : Int) : -(2 ^ (w - 1)) ≤ satSigned w z := by
  rw [satSigned_eq]
  exact le_max_left _ _

theorem satSigned_lt (w : Nat) (z : Int) : satSigned w z < 2 ^ (w - 1) := by
  have : (0 : Int) < 2 ^ (w - 1) := by positivity
  rw [satSigned_eq]
  omega

/-- R127. A word of 32 bits reads as the saturated value that it was formed of. -/
theorem toSigned_sat32 (z : Int) : toSigned 32 (sat32 z) = satSigned 32 z :=
  toSigned_ofSigned (by decide) (le_satSigned 32 z) (satSigned_lt 32 z)

theorem ofSigned_lt (w : Nat) (z : Int) : ofSigned w z < 2 ^ w := by
  unfold ofSigned
  have h := Int.emod_lt_of_pos z (b := (2 ^ w : Nat)) (by positivity)
  have h0 := Int.emod_nonneg z (b := (2 ^ w : Nat)) (by positivity)
  omega

/-- R127. The halves of a word of two halves in the signed range of 16 bits. -/
theorem halfLo_ofHalves (hi lo : Int) : halfLo (ofHalves hi (sat16 lo)) = sat16 lo := by
  have hmod : toSigned 16 (ofHalves hi (sat16 lo)) = toSigned 16 (ofSigned 16 (sat16 lo)) := by
    unfold toSigned ofHalves
    rw [show (65536 : Nat) = 2 ^ 16 from rfl, Nat.mul_add_mod']
  exact hmod.trans (toSigned_ofSigned (by decide) (le_satSigned 16 lo) (satSigned_lt 16 lo))

theorem halfHi_ofHalves (hi lo : Int) : halfHi (ofHalves (sat16 hi) lo) = sat16 hi := by
  have hdiv : ofHalves (sat16 hi) lo / 65536 = ofSigned 16 (sat16 hi) := by
    have hlo : ofSigned 16 lo < 2 ^ 16 := ofSigned_lt 16 lo
    unfold ofHalves
    omega
  unfold halfHi
  rw [hdiv]
  exact toSigned_ofSigned (by decide) (le_satSigned 16 hi) (satSigned_lt 16 hi)

/-- R127. A value of 16 bits fits a word of 32. -/
theorem toSigned_ofSigned_sat16 (z : Int) : toSigned 32 (ofSigned 32 (sat16 z)) = sat16 z := by
  have h1 : -(2 ^ 15) ≤ sat16 z := le_satSigned 16 z
  have h2 : sat16 z < 2 ^ 15 := satSigned_lt 16 z
  exact toSigned_ofSigned (by decide) (by omega) (by omega)

/-- R127. The rounding of a negative number mirrors that of the positive one. -/
theorem rndDiv_neg {z : Int} (k : Nat) (h : z < 0) : rndDiv z k = -rndDiv (-z) k := by
  unfold rndDiv
  dsimp only
  rw [if_neg (by omega), if_pos (by omega)]

/-- R127. The rounding of a number that is not negative is the floor of the quotient and a half: the value that is given, in units
of `d = 2h`, is more than the number less `h`, and at most the number and `h`. -/
theorem rndDiv_nonneg {z : Int} {k : Nat} (hk : 0 < k) (h : 0 ≤ z) :
    z - (2 ^ (k - 1) : Nat) < rndDiv z k * (2 ^ k : Nat) ∧ rndDiv z k * (2 ^ k : Nat) ≤ z + (2 ^ (k - 1) : Nat) := by
  have hpow : (2 ^ k : Nat) = 2 * 2 ^ (k - 1) := by rw [← Nat.pow_succ', Nat.succ_eq_add_one, Nat.sub_add_cancel hk]
  have hpos : 0 < 2 ^ (k - 1) := Nat.two_pow_pos _
  unfold rndDiv
  dsimp only
  rw [if_pos h]
  have hdm := Int.ediv_mul_add_emod (z + (2 ^ (k - 1) : Nat)) (2 ^ k : Nat)
  have h0 := Int.emod_nonneg (z + (2 ^ (k - 1) : Nat)) (b := (2 ^ k : Nat)) (by omega)
  have h1 := Int.emod_lt_of_pos (z + (2 ^ (k - 1) : Nat)) (b := (2 ^ k : Nat)) (by omega)
  omega

/-- R127. The rounding is within half a unit. -/
theorem rndDiv_near (z : Int) {k : Nat} (hk : 0 < k) : 2 * (z - rndDiv z k * (2 ^ k : Nat)).natAbs ≤ 2 ^ k ∧
    (2 * (z - rndDiv z k * (2 ^ k : Nat)).natAbs = 2 ^ k → z.natAbs < (rndDiv z k * (2 ^ k : Nat)).natAbs) := by
  have hpow : (2 ^ k : Nat) = 2 * 2 ^ (k - 1) := by rw [← Nat.pow_succ', Nat.succ_eq_add_one, Nat.sub_add_cancel hk]
  have hpos : 0 < 2 ^ (k - 1) := Nat.two_pow_pos _
  rcases le_or_gt 0 z with h | h
  · obtain ⟨h1, h2⟩ := rndDiv_nonneg hk h
    omega
  · obtain ⟨h1, h2⟩ := rndDiv_nonneg hk (z := -z) (by omega)
    rw [rndDiv_neg k h, neg_mul]
    omega

/-- Settles O37: `rndDiv_near` for the rounding, `satSigned_eq` for the limits, the halves of a word read back, and retiring leaves
fcsr (`ctx_retireX`). -/
theorem fixedPointArithmetic : Obligations.FixedPointArithmetic := by
  refine ⟨fun z k hk => rndDiv_near z hk, fun z => (toSigned_sat32 z).trans (satSigned_eq z), fun z => satSigned_eq z,
    fun _ _ => rfl, fun _ _ _ => rfl, fun _ _ _ => rfl, fun _ => toSigned_ofSigned_sat16 _,
    fun _ _ => ⟨halfHi_ofHalves _ _, halfLo_ofHalves _ _⟩, fun _ _ => ⟨halfHi_ofHalves _ _, halfLo_ofHalves _ _⟩,
    fun _ _ _ => rfl, fun _ _ => ⟨halfHi_ofHalves _ _, halfLo_ofHalves _ _⟩, by decide, fun _ _ _ _ _ _ _ _ => rfl, ?_⟩
  intro s e len rd v g
  unfold State.retireXv
  rw [State.ctx_retireX]

/-! ### CORDIC (R129) -/

/-- R129. The result for +1 saturates. -/
theorem State.cordic_one (s : State) (w acc : Nat) : (s.cordic w acc (2 ^ 96)).1 = (2 ^ (w - 1) - 1 : Nat) := rfl

/-- R129. What is between the floor of a quotient and `acc`, and its ceiling less `acc`, is within `acc` units. -/
theorem natAbs_sub_le_of_between {d acc : Nat} {x v : Int} (hd : 0 < d) (h1 : -((-x) / d) - acc ≤ v) (h2 : v ≤ x / d + acc) :
    (v * d - x).natAbs ≤ acc * d := by
  have hlo := Int.mul_le_mul_of_nonneg_right h1 (Int.natCast_nonneg d)
  have hhi := Int.mul_le_mul_of_nonneg_right h2 (Int.natCast_nonneg d)
  have hceil := Int.ediv_mul_le (-x) (b := d) (by omega)
  have hfloor := Int.ediv_mul_le x (b := d) (by omega)
  rw [sub_mul, neg_mul] at hlo
  rw [add_mul] at hhi
  zify
  rw [abs_le]
  constructor <;> linarith

/-- The ceiling of a quotient, which is the floor of its negative negated, is less than its floor and 2. -/
theorem ediv_neg_add_ediv_pos {d : Nat} {x : Int} (hd : 0 < d) : 0 < -x / d + x / d + 2 := by
  have hceil := Int.lt_ediv_add_one_mul_self (-x) (b := d) (by omega)
  have hfloor := Int.lt_ediv_add_one_mul_self x (b := d) (by omega)
  have hsum : 0 < (-x / d + x / d + 2) * (d : Int) := by linarith
  exact pos_of_mul_pos_left hsum (by omega)

/-- R129. Any other result is the saturation of a value within `acc` LSB of the exact one. -/
theorem State.cordic_near (s : State) (w : Nat) {acc : Nat} {x : Int} (hacc : 0 < acc) (hx : x ≠ 2 ^ 96) :
    ∃ v : Int, (s.cordic w acc x).1 = satSigned w v ∧ (v * (2 ^ (97 - w) : Nat) - x).natAbs ≤ acc * 2 ^ (97 - w) := by
  have hd : 0 < 2 ^ (97 - w) := Nat.two_pow_pos _
  generalize hlo : -((-x) / (2 ^ (97 - w) : Nat)) - acc = lo
  generalize hhi : x / (2 ^ (97 - w) : Nat) + acc = hi
  refine ⟨lo + (s.free (hi - lo + 1).toNat).1, ?_, natAbs_sub_le_of_between hd (by omega) ?_⟩
  · subst hlo hhi
    exact congrArg Prod.fst (if_neg hx)
  · have hrange : 0 < -x / (2 ^ (97 - w) : Nat) + x / (2 ^ (97 - w) : Nat) + 2 := ediv_neg_add_ediv_pos hd
    have hfree : (s.free (hi - lo + 1).toNat).1 < (hi - lo + 1).toNat := Nat.mod_lt _ (by omega)
    omega

/-- R127, R129. A saturation of a value within `acc` LSB of one in the range is within `acc` LSB of it too: a limit lies between the
two, or less than an LSB off. -/
theorem natAbs_satSigned_sub_le {w d acc : Nat} {x v : Int} (hacc : 0 < acc) (h1 : -(2 ^ (w - 1)) * d ≤ x) (h2 : x < 2 ^ (w - 1) * d)
    (h : (v * d - x).natAbs ≤ acc * d) : (satSigned w v * d - x).natAbs ≤ acc * d := by
  zify at h ⊢
  rw [abs_le] at h ⊢
  have hone : (d : Int) ≤ acc * d := by exact_mod_cast Nat.le_mul_of_pos_left d hacc
  unfold satSigned clampInt
  split_ifs with hlow hhigh
  · have := Int.mul_le_mul_of_nonneg_right hlow.le (Int.natCast_nonneg d)
    constructor <;> linarith [h.1, h.2]
  · have := Int.mul_le_mul_of_nonneg_right hhigh.le (Int.natCast_nonneg d)
    rw [sub_mul] at this ⊢
    constructor <;> linarith [h.1, h.2]
  · exact h

/-- R129. The bound of a format, for an exact value from -1 to below 1. -/
theorem State.cordic_bound (s : State) {w acc : Nat} {x : Int} (hw : 0 < w ∧ w ≤ 97) (hacc : 0 < acc) (h1 : -(2 ^ 96) ≤ x)
    (h2 : x < 2 ^ 96) : ((s.cordic w acc x).1 * (2 ^ (97 - w) : Nat) - x).natAbs ≤ acc * 2 ^ (97 - w) ∧
      -(2 ^ (w - 1)) ≤ (s.cordic w acc x).1 ∧ (s.cordic w acc x).1 < 2 ^ (w - 1) := by
  obtain ⟨v, hv, hnear⟩ := s.cordic_near w hacc h2.ne
  have hone : (2 : Int) ^ (w - 1) * (2 ^ (97 - w) : Nat) = 2 ^ 96 := by
    rw [Nat.cast_pow, Nat.cast_ofNat, ← pow_add, show w - 1 + (97 - w) = 96 by omega]
  rw [hv]
  exact ⟨natAbs_satSigned_sub_le hacc (by rw [neg_mul, hone]; exact h1) (by rw [hone]; exact h2) hnear, le_satSigned w v,
    satSigned_lt w v⟩

/-- Settles O39: `cordic_bound` for the two formats; the result for +1 is the upper limit of each. -/
theorem cordicWithinBound : Obligations.CordicWithinBound := by
  intro s x hx
  refine ⟨fun h => ?_, fun h => ?_⟩
  · obtain ⟨hq31, hlo31, hhi31⟩ := s.cordic_bound (w := 32) (acc := 4) (by decide) (by decide) hx h
    obtain ⟨hq15, hlo15, hhi15⟩ := s.cordic_bound (w := 16) (acc := 1) (by decide) (by decide) hx h
    exact ⟨hq31, hlo31, hhi31, hq15, hlo15, hhi15⟩
  · subst h
    exact ⟨s.cordic_one 32 4, s.cordic_one 16 1⟩

/-! ### The instructions (R124–R132) -/

/-- R129. A VC instruction that is not the fifth of its cycle is served in it. -/
theorem State.vcStep_served {s : State} {e : Nat} (g : Xop) (rd a b len : Nat) (f : Nat → State → Nat × State)
    (h : s.vcServed e (s.issueAt e) < 4) :
    s.vcStep e (.xv g rd a b) len f =
      (let r := f (s.xr e a) (s.updEng e (fun t => { t with vcAt := some (s.issueAt e) }))
      r.2.retireXv e len rd r.1 g) :=
  if_neg (Nat.not_le.mpr h)

/-- R130. A forbidden VT load ends the run with cause 7. -/
theorem State.vtLoadStep_bad {s : State} {e a off n : Nat} (k rd len : Nat) (v : Nat → Nat)
    (h : vtBad (s.xr e a) off n false = true) :
    s.vtLoadStep e (.vtLoad k rd a off) len n v = s.insFault e 7 (vtAddr (s.xr e a) off) :=
  if_pos h

/-- R124, R130. A permitted VT load that no posted store holds back retires with its value. -/
theorem State.vtLoadStep_ok {s : State} {e a off n : Nat} (k rd len : Nat) (v : Nat → Nat)
    (h : vtBad (s.xr e a) off n false = false) (hp : s.storePending e (vtAddr (s.xr e a) off) n = false) :
    s.vtLoadStep e (.vtLoad k rd a off) len n v = s.retireX e len rd (v (s.memN (vtAddr (s.xr e a) off) n)) 4 4 1 := by
  simp only [State.vtLoadStep, h, hp, Bool.false_eq_true, if_false]

/-- R130. A forbidden VT store ends the run with cause 7. -/
theorem State.vtStoreStep_bad {s : State} {e a off n : Nat} (k b len : Nat) (h : vtBad (s.xr e a) off n true = true) :
    s.vtStoreStep e (.vtStore k a b off) len n = s.insFault e 7 (vtAddr (s.xr e a) off) :=
  if_pos h

/-- R125, R130. A permitted VT store that finds room enters the write buffer. -/
theorem State.vtStoreStep_ok {s : State} {e a off n : Nat} (k b len : Nat) (h : vtBad (s.xr e a) off n true = false)
    (hb : (s.eng e).buf.length < 4) :
    s.vtStoreStep e (.vtStore k a b off) len n =
      (s.post e (vtAddr (s.xr e a) off) n (s.xr e b)).retire e (s.nextPc e len) 1 := by
  simp only [State.vtStoreStep, h, Bool.false_eq_true, if_false, if_neg (Nat.not_le.mpr hb)]

/-- Settles O16: an instruction that goes is what the step of its kind does (`exec_of_goes`); VC instructions and VT accesses take
the branch that the hypotheses name. -/
theorem xvarulInstructionsComplete : Obligations.XvarulInstructionsComplete := by
  refine ⟨?vaDiff, ?vaLt, ?vaBtw, ?vqMacq31, ?vqMulq31, ?vqMacq15, ?vqRndq15, ?vsAdd2, ?vsSub2, ?vsMac2, ?vsMul2, ?vcSin, ?vcCos,
    ?vcSc, ?vrRd, ?waitslot, ?vtLh, ?vtLhBad, ?vtLw, ?vtLwBad, ?vtLhu, ?vtLhuBad, ?vtSh, ?vtShBad, ?vtSw, ?vtSwBad⟩
  case vaDiff | vaLt | vqMacq31 | vqMulq31 | vqMacq15 | vqRndq15 | vsAdd2 | vsSub2 | vsMac2 | vsMul2 =>
    exact fun e rd a b len s h => exec_of_goes rfl h rfl rfl
  case vaBtw => exact fun e rd a b c len s h => exec_of_goes rfl h rfl rfl
  case vcSin | vcCos | vcSc =>
    exact fun e rd a b len s h hc => exec_of_goes rfl h rfl (State.vcStep_served _ rd a b len _ hc)
  case vrRd => exact fun e rd sel len s h => exec_of_goes rfl h rfl rfl
  case waitslot => exact fun e rd len s h => exec_of_goes rfl h rfl rfl
  case vtLh | vtLw | vtLhu =>
    exact fun e rd a off len s h hok hp => exec_of_goes rfl h rfl (State.vtLoadStep_ok _ rd len _ hok hp)
  case vtLhBad | vtLwBad | vtLhuBad =>
    exact fun e rd a off len s h hbad => exec_of_goes rfl h rfl (State.vtLoadStep_bad _ rd len _ hbad)
  case vtSh | vtSw => exact fun e a b off len s h hok hb => exec_of_goes rfl h rfl (State.vtStoreStep_ok _ b len hok hb)
  case vtShBad | vtSwBad => exact fun e a b off len s h hbad => exec_of_goes rfl h rfl (State.vtStoreStep_bad _ b len hbad)

end Sys2Proof.Machine
end

