-- ==== Sys2Proof/Proofs/BobbinEngines.lean ====
section
/-!
PROOFS. The statements about the Bobbin engines (spec/04_bobbin_engines.md): retiring an instruction, posted stores, wakes, what
the commands of slots, engines, Thimble and Stitch answer, and what some register writes leave unchanged.
-/

namespace Sys2Proof.Machine

/-! ### Retiring with a result in x[rd] (R122–R124, R133) -/

/-- A write of a register of the running slot acts on the contexts of its engine. -/
theorem State.eng_setX (s : State) (e r v : Nat) : ∃ slots, (s.setX e r v).eng e = { s.eng e with slots } := by
  unfold State.setX
  split
  · exact ⟨_, rfl⟩
  · exact ⟨_, s.eng_updEng_self e _⟩

theorem State.eng_setX_ne (s : State) {e j : Nat} (r v : Nat) (h : j ≠ e) : (s.setX e r v).eng j = s.eng j := by
  unfold State.setX
  split
  · rfl
  · exact s.eng_updSlot_ne _ _ h

theorem State.slot_setX_ne (s : State) {e k : Nat} (r v : Nat) (h : k ≠ s.engSlot e) : (s.setX e r v).slot e k = s.slot e k := by
  unfold State.setX
  split
  · rfl
  · exact s.slot_updSlot_ne e _ h

/-- R124. When a register becomes available is kept in the table of its engine. -/
theorem State.eng_avail (s : State) (e r lat mac : Nat) : ∃ ready, (s.avail e r lat mac).eng e = { s.eng e with ready } := by
  unfold State.avail
  dsimp only
  split
  · exact ⟨_, rfl⟩
  · exact ⟨_, s.eng_updEng_self e _⟩

theorem State.eng_avail_ne (s : State) {e j : Nat} (r lat mac : Nat) (h : j ≠ e) : (s.avail e r lat mac).eng j = s.eng j := by
  unfold State.avail
  dsimp only
  split
  · rfl
  · exact s.eng_updEng_ne _ h

theorem State.slot_avail (s : State) (e r lat mac k : Nat) : (s.avail e r lat mac).slot e k = s.slot e k := by
  obtain ⟨ready, h⟩ := s.eng_avail e r lat mac
  unfold State.slot
  rw [h]

/-- R123. Retiring counts one instruction of the engine and changes its contexts and its timing besides. -/
theorem State.eng_retire (s : State) (e pc issue : Nat) :
    ∃ slots ready nextIssue busyTo vcWait, (s.retire e pc issue).eng e =
      { s.eng e with instret := (s.eng e).instret + 1, slots, ready, nextIssue, busyTo, vcWait } := by
  unfold State.retire State.occupy State.updCtx State.updSlot
  simp only [State.eng_updEng_self]
  exact ⟨_, _, _, _, _, rfl⟩

theorem State.eng_retire_ne (s : State) {e j : Nat} (pc issue : Nat) (h : j ≠ e) : (s.retire e pc issue).eng j = s.eng j := by
  unfold State.retire State.occupy
  rw [State.eng_updEng_ne _ _ h, State.eng_updEng_ne _ _ h]
  exact s.eng_updSlot_ne _ _ h

@[simp] theorem State.slot_occupy (s : State) (e n k : Nat) : (s.occupy e n).slot e k = s.slot e k := by
  refine s.slot_updEng e _ ?_ k
  exact fun _ => rfl

theorem State.slot_retire_ne (s : State) {e k : Nat} (pc issue : Nat) (h : k ≠ s.engSlot e) :
    (s.retire e pc issue).slot e k = s.slot e k := by
  unfold State.retire
  rw [State.slot_occupy]
  refine (State.slot_updEng _ e _ ?_ k).trans (s.slot_updSlot_ne e _ h)
  exact fun _ => rfl

/-- What leaves the register file alone leaves the running slot of an engine the same. -/
theorem State.engSlot_congr {s t : State} (h : t.regs = s.regs) (e : Nat) : t.engSlot e = s.engSlot e := State.fld_congr h _

/-- R123. What an instruction with a result in x[rd] does to its engine beside the contexts and the timing. -/
theorem State.eng_retireX (s : State) (e len rd v lat mac issue : Nat) :
    ∃ slots ready nextIssue busyTo vcWait, (s.retireX e len rd v lat mac issue).eng e =
      { s.eng e with instret := (s.eng e).instret + 1, slots, ready, nextIssue, busyTo, vcWait } := by
  obtain ⟨_, hset⟩ := s.eng_setX e rd v
  obtain ⟨_, havail⟩ := (s.setX e rd v).eng_avail e rd lat mac
  obtain ⟨slots, ready, n, b, w, hretire⟩ := ((s.setX e rd v).avail e rd lat mac).eng_retire e (s.nextPc e len) issue
  rw [havail, hset] at hretire
  exact ⟨slots, ready, n, b, w, hretire⟩

theorem State.eng_retireX_ne (s : State) {e j : Nat} (len rd v lat mac issue : Nat) (h : j ≠ e) :
    (s.retireX e len rd v lat mac issue).eng j = s.eng j := by
  unfold State.retireX
  rw [State.eng_retire_ne _ _ _ h, State.eng_avail_ne _ _ _ _ h, State.eng_setX_ne _ _ _ h]

/-- R133. Another slot's context stays. -/
theorem State.slot_retireX_ne (s : State) {e k : Nat} (len rd v lat mac issue : Nat) (h : k ≠ s.engSlot e) :
    (s.retireX e len rd v lat mac issue).slot e k = s.slot e k := by
  have hset : (s.setX e rd v).engSlot e = s.engSlot e := State.engSlot_congr (s.setX_regs e rd v) e
  have havail : ((s.setX e rd v).avail e rd lat mac).engSlot e = s.engSlot e :=
    (State.engSlot_congr (State.avail_regs _ _ _ _ _) e).trans hset
  unfold State.retireX
  rw [State.slot_retire_ne _ _ _ (havail ▸ h), State.slot_avail, State.slot_setX_ne _ _ _ h]

/-- R122. x[rd] reads the result, x0 reads 0. -/
theorem State.xr_retireX_self (s : State) (e len rd v lat mac issue : Nat) :
    (s.retireX e len rd v lat mac issue).xr e rd = if rd = 0 then 0 else v % 2 ^ 32 := by
  unfold State.xr
  rw [State.ctx_retireX]
  split
  · rfl
  · dsimp only
    rw [tget_tput_self, BitVec.toNat_ofNat]

theorem State.xr_retireX_ne (s : State) (e len : Nat) {rd r : Nat} (v lat mac issue : Nat) (h : r ≠ rd) :
    (s.retireX e len rd v lat mac issue).xr e r = s.xr e r := by
  unfold State.xr
  rw [State.ctx_retireX]
  dsimp only
  by_cases hrd : rd = 0
  · rw [if_pos hrd]
  · rw [if_neg hrd, tget_tput_ne _ _ _ h]

/-- Settles O38: the context of the slot is that of `ctx_retireX`, the engine that of `eng_retireX`, and the register file and what
is no engine are left alone. -/
theorem retireWritesOneRegister : Obligations.RetireWritesOneRegister := by
  intro s e len rd v lat mac issue
  have hctx := s.ctx_retireX e len rd v lat mac issue
  obtain ⟨_, _, _, _, _, heng⟩ := s.eng_retireX e len rd v lat mac issue
  refine ⟨State.engSlot_congr (s.retireX_regs ..) e, s.xr_retireX_self .., fun r h => s.xr_retireX_ne e len v lat mac issue h,
    fun r => ?fr, ?fcsr, ?pc, ?instret, fun k h => s.slot_retireX_ne len rd v lat mac issue h,
    fun j h => s.eng_retireX_ne len rd v lat mac issue h, ?buf, ?fetchBuf, s.retireX_regs .., s.retireX_mem ..,
    s.retireX_agenda .., s.retireX_out .., s.retireX_tick ..⟩
  case fr =>
    unfold State.fr
    rw [hctx]
  case fcsr | pc => rw [hctx]
  case instret | buf | fetchBuf => rw [heng]

/-! ### Posted stores (R25, R125) -/

@[simp] theorem leBytes_length (n k : Nat) : (leBytes n k).length = k := by
  induction k generalizing n with
  | zero => rfl
  | succ k ih => exact congrArg (· + 1) (ih (n / 256))

/-- R9. The byte at place `i` of a little-endian number. -/
theorem leBytes_getD (n : Nat) {k i : Nat} (h : i < k) : (leBytes n k).getD i 0#8 = BitVec.ofNat 8 (n / 256 ^ i) := by
  induction k generalizing n i with
  | zero => omega
  | succ k ih =>
    cases i with
    | zero => simp [leBytes]
    | succ i =>
      have hdiv : n / 256 / 256 ^ i = n / 256 ^ (i + 1) := by rw [Nat.div_div_eq_div_mul, ← Nat.pow_succ']
      rw [← hdiv, ← ih (n / 256) (by omega)]
      rfl

/-- R125. A plain posted store to a bank that accepts it leaves the write buffer and stores its bytes. -/
theorem State.acceptStore_bank {s : State} {e b : Nat} {p : Posted} {rest : List Posted} (hbuf : (s.eng e).buf = p :: rest)
    (hk : p.kind = .plain) (hdue : p.due ≤ s.tick) (hb : regionOf p.addr = .bank b) (ha : s.engAcc e p.addr p.size true = .ok) :
    s.acceptStore e = (s.updEng e (fun g => { g with buf := rest })).setMemBytes p.addr (leBytes p.data p.size) := by
  unfold State.acceptStore
  simp only [hbuf, ha, hb, if_neg (Nat.not_lt.mpr hdue), reduceCtorEq, if_false]
  unfold State.storeBytes
  simp only [hk, hb]

/-- Settles O49: the store is that of `acceptStore_bank`, which touches no engine, and `memB_setMemBytes` reads memory after it. -/
theorem postedStoreWritesItsBytes : Obligations.PostedStoreWritesItsBytes := by
  intro s e p rest b hbuf hk hdue hb ha
  rw [State.acceptStore_bank hbuf hk hdue hb ha]
  refine ⟨?buffer, fun i hi => ?bytes, fun x hx => ?others⟩
  case buffer =>
    unfold State.eng
    rw [State.setMemBytes_engs]
    exact congrArg EngSt.buf (s.eng_updEng_self e _)
  case bytes => rw [State.memB_setMemBytes, leBytes_length, if_pos (by omega), Nat.add_sub_cancel_left, leBytes_getD _ hi]
  case others =>
    rw [State.memB_setMemBytes, leBytes_length, if_neg (by omega)]
    rfl

/-! ### Wakes (R134–R136, R140) -/

/-- The reading of a counter after a count depends on its own register alone. -/
theorem State.rd_count_congr {s t : State} {a : Nat} (h : t.rd a = s.rd a) : (t.count a).rd a = (s.count a).rd a := by
  have hN : t.rdN a = s.rdN a := congrArg BitVec.toNat h
  unfold State.count
  rw [hN]
  dsimp only
  split
  · exact (t.rd_wr_self a _).trans (s.rd_wr_self a _).symm
  · exact (t.rd_wr_self a _).trans (s.rd_wr_self a _).symm

/-- A count leaves the fields of other registers as they were. -/
theorem State.fld_count_ne (s : State) (f : Fld) {a : Nat} (h : f.addr ≠ a) : (s.count a).fld f = s.fld f :=
  State.fld_congr_rd f (s.rd_count_ne a h)

theorem State.fld_incr_ne (s : State) (f : Fld) {a : Nat} (h : f.addr ≠ a) : (s.incr a).fld f = s.fld f :=
  State.fld_congr_rd f (s.rd_incr_ne a h)

theorem State.bit_count_ne (s : State) (f : Fld) {a : Nat} (h : f.addr ≠ a) : (s.count a).bit f = s.bit f :=
  State.bit_congr_rd f (s.rd_count_ne a h)

theorem State.bit_incr_ne (s : State) (f : Fld) {a : Nat} (h : f.addr ≠ a) : (s.incr a).bit f = s.bit f :=
  State.bit_congr_rd f (s.rd_incr_ne a h)

/-! #### The registers of a slot (R154) -/

theorem sstat_ne_swake (e k : Nat) : BOB_SSTAT e k ≠ BOB_SWAKE e k := by
  unfold BOB_SSTAT BOB_SWAKE
  omega

theorem sstat_ne_sdrop (e k : Nat) : BOB_SSTAT e k ≠ BOB_SDROP e k := by
  unfold BOB_SSTAT BOB_SDROP
  omega

theorem sstat_ne_sdefer (e k : Nat) : BOB_SSTAT e k ≠ BOB_SDEFER e k := by
  unfold BOB_SSTAT BOB_SDEFER
  omega

theorem swake_ne_sdrop (e k : Nat) : BOB_SWAKE e k ≠ BOB_SDROP e k := by
  unfold BOB_SWAKE BOB_SDROP
  omega

theorem swake_ne_sdefer (e k : Nat) : BOB_SWAKE e k ≠ BOB_SDEFER e k := by
  unfold BOB_SWAKE BOB_SDEFER
  omega

@[simp] theorem State.slotState_incr_swake (s : State) (e k : Nat) : (s.incr (BOB_SWAKE e k)).slotState e k = s.slotState e k :=
  s.fld_incr_ne (BOB_SSTAT_STATE e k) (sstat_ne_swake e k)

@[simp] theorem State.slotState_count_sdrop (s : State) (e k : Nat) : (s.count (BOB_SDROP e k)).slotState e k = s.slotState e k :=
  s.fld_count_ne (BOB_SSTAT_STATE e k) (sstat_ne_sdrop e k)

@[simp] theorem State.slotState_count_sdefer (s : State) (e k : Nat) : (s.count (BOB_SDEFER e k)).slotState e k = s.slotState e k :=
  s.fld_count_ne (BOB_SSTAT_STATE e k) (sstat_ne_sdefer e k)

/-- R154. SKIP and DEFRUN stand beside STATE in BOB_SSTAT. -/
@[simp] theorem State.slotState_setB_skip (s : State) (e k : Nat) (b : Bool) :
    (s.setB (BOB_SSTAT_SKIP e k) b).slotState e k = s.slotState e k :=
  s.fld_setB_other (BOB_SSTAT_SKIP e k) (BOB_SSTAT_STATE e k) b rfl (by simp [BOB_SSTAT_STATE])
    (by simp [BOB_SSTAT_STATE, BOB_SSTAT_SKIP])

@[simp] theorem State.slotState_setF_defrun (s : State) (e k v : Nat) :
    (s.setF (BOB_SSTAT_DEFRUN e k) v).slotState e k = s.slotState e k :=
  s.fld_setF_other (BOB_SSTAT_DEFRUN e k) (BOB_SSTAT_STATE e k) v rfl (by simp [BOB_SSTAT_STATE])
    (by simp [BOB_SSTAT_STATE, BOB_SSTAT_DEFRUN])

@[simp] theorem State.slotState_setSlotState_self (s : State) (e k st : Nat) : (s.setSlotState e k st).slotState e k = st % 8 :=
  s.fld_setF_self (BOB_SSTAT_STATE e k) st (by simp [BOB_SSTAT_STATE])

theorem State.slotState_updSlot (s : State) (e k j : Nat) (f : SlotSt → SlotSt) :
    (s.updSlot e j f).slotState e k = s.slotState e k := State.updEng_fld s e _ (BOB_SSTAT_STATE e k)

/-- What leaves the engines alone leaves every slot's context alone. -/
theorem State.slot_congr {s t : State} (h : t.engs = s.engs) (e k : Nat) : t.slot e k = s.slot e k := by
  unfold State.slot State.eng
  rw [h]

theorem State.slotState_sched (s : State) (e k d : Nat) (c : Instr) : (s.sched d c).slotState e k = s.slotState e k :=
  State.fld_congr (s.sched_regs d c) _

theorem State.slot_sched (s : State) (e k d : Nat) (c : Instr) : (s.sched d c).slot e k = s.slot e k := rfl

/-! #### What a wake does -/

/-- R140. The count of wakes has no part in their deferral. -/
theorem State.deferred_incr (s : State) (e k : Nat) : (s.incr (BOB_SWAKE e k)).deferred e k = s.deferred e k := by
  have hcfg : BOB_SCFG e k ≠ BOB_SWAKE e k := by unfold BOB_SCFG BOB_SWAKE; omega
  have hstat := sstat_ne_swake e k
  have hthm : THM_STATUS ≠ BOB_SWAKE e k := by unfold THM_STATUS BOB_SWAKE; omega
  unfold State.deferred
  rw [State.fld_incr_ne _ (BOB_SCFG_DEFLVL e k) hcfg, State.fld_incr_ne _ (BOB_SCFG_DEFMAX e k) hcfg,
    State.fld_incr_ne _ THM_STATUS_STEP hthm, State.fld_incr_ne _ (BOB_SSTAT_DEFRUN e k) hstat]

theorem frame_updSlot {as : List Nat} {s t : State} (h : frame as s t) (e k : Nat) (f : SlotSt → SlotSt) :
    frame as s (t.updSlot e k f) := frame_side h rfl rfl rfl

/-- R136. A slot that takes wakes: it is not DISABLED, and its engine runs and is not held. -/
def State.takesWakes (s : State) (e k : Nat) : Prop :=
  s.bit (BOB_STATUS_RUNNING e) = true ∧ s.bit (BOB_STATUS_HELD e) = false ∧ s.slotState e k ≠ slDisabled

theorem State.takesWakes_iff {s : State} {e k : Nat} :
    s.takesWakes e k ↔
      ¬ (!s.bit (BOB_STATUS_RUNNING e) || s.bit (BOB_STATUS_HELD e) || s.slotState e k == slDisabled) = true := by
  simp [State.takesWakes, and_assoc]

/-- R136. A wake of a slot that does not take it is ignored. -/
theorem State.wake_ignored {s : State} {e k : Nat} (word : Nat) (h : ¬ s.takesWakes e k) : s.wake e k word = s :=
  if_pos (not_not.mp (mt State.takesWakes_iff.mpr h))

/-- R136. The wake of a slot that takes it is counted, and does what the slot's state says. -/
theorem State.wake_taken {s : State} {e k : Nat} (word : Nat) (h : s.takesWakes e k) :
    s.wake e k word =
      (let t := s.incr (BOB_SWAKE e k)
      if s.slotState e k = slReady ∨ s.slotState e k = slRunning then t.count (BOB_SDROP e k)
      else if s.bit (BOB_SSTAT_SKIP e k) then (t.setB (BOB_SSTAT_SKIP e k) false).count (BOB_SDROP e k)
      else if s.deferred e k then
        (t.setF (BOB_SSTAT_DEFRUN e k) (min 255 (s.fld (BOB_SSTAT_DEFRUN e k) + 1))).count (BOB_SDEFER e k)
      else
        (((t.setF (BOB_SSTAT_DEFRUN e k) 0).setSlotState e k slReady).updSlot e k (fun c =>
          { c with wake := BitVec.ofNat 32 word, mode := if s.slotState e k = slWaiting then 1 else 0 })).sched 4
            (.slotDispatch (engIx e))) := by
  have hstat := sstat_ne_swake e k
  unfold State.wake
  dsimp only
  rw [if_neg (State.takesWakes_iff.mp h), State.bit_incr_ne _ (BOB_SSTAT_SKIP e k) hstat, State.deferred_incr,
    State.fld_incr_ne _ (BOB_SSTAT_DEFRUN e k) hstat]

/-- The registers that a wake of a slot can change. -/
def wakeRegs (e k : Nat) : List Nat := [BOB_SWAKE e k, BOB_SDROP e k, BOB_SDEFER e k, BOB_SSTAT e k]

/-- R136. Among registers and memory a wake acts on the slot's counters and its BOB_SSTAT alone. -/
theorem State.wake_frame (s : State) (e k word : Nat) : frame (wakeRegs e k) s (s.wake e k word) := by
  by_cases h : s.takesWakes e k
  case neg =>
    rw [State.wake_ignored word h]
    exact frame_refl _ s
  case pos =>
    have hswake : BOB_SWAKE e k ∈ wakeRegs e k := .head _
    have hsdrop : BOB_SDROP e k ∈ wakeRegs e k := .tail _ (.head _)
    have hsdefer : BOB_SDEFER e k ∈ wakeRegs e k := .tail _ (.tail _ (.head _))
    have hsstat : BOB_SSTAT e k ∈ wakeRegs e k := .tail _ (.tail _ (.tail _ (.head _)))
    have hcount : frame (wakeRegs e k) s (s.incr (BOB_SWAKE e k)) := frame_incr (frame_refl _ s) hswake
    rw [State.wake_taken word h]
    refine frame_ite ?drop (frame_ite ?skip (frame_ite ?defer ?ready))
    case drop => exact frame_count hcount hsdrop
    case skip => exact frame_count (frame_setB hcount false hsstat) hsdrop
    case defer => exact frame_count (frame_setF hcount _ hsstat) hsdefer
    case ready => exact frame_sched (frame_updSlot (frame_setF (frame_setF hcount 0 hsstat) slReady hsstat) _ _ _) _ _

theorem State.updSlot_mem (s : State) (e k : Nat) (f : SlotSt → SlotSt) : (s.updSlot e k f).mem = s.mem := rfl

theorem State.updSlot_agenda (s : State) (e k : Nat) (f : SlotSt → SlotSt) : (s.updSlot e k f).agenda = s.agenda := rfl

theorem State.updSlot_tick (s : State) (e k : Nat) (f : SlotSt → SlotSt) : (s.updSlot e k f).tick = s.tick := rfl

theorem State.setSlotState_mem (s : State) (e k st : Nat) : (s.setSlotState e k st).mem = s.mem := rfl

theorem State.wake_mem (s : State) (e k word : Nat) : (s.wake e k word).mem = s.mem := by
  by_cases h : s.takesWakes e k
  · rw [State.wake_taken word h]
    simp only [apply_ite State.mem, State.incr_mem, State.count_mem, State.setB_mem, State.setF_mem, State.setSlotState_mem,
      State.updSlot_mem, State.sched_mem, ite_self]
  · rw [State.wake_ignored word h]

/-- R136. A slot that is READY or RUNNING drops the wake. -/
theorem State.wake_busy {s : State} {e k : Nat} (word : Nat) (h : s.takesWakes e k)
    (hst : s.slotState e k = slReady ∨ s.slotState e k = slRunning) :
    s.wake e k word = (s.incr (BOB_SWAKE e k)).count (BOB_SDROP e k) :=
  (State.wake_taken word h).trans (if_pos hst)

section

variable {s : State} {e k : Nat} (word : Nat) (h : s.takesWakes e k)
  (hst : ¬ (s.slotState e k = slReady ∨ s.slotState e k = slRunning))
include h hst

/-- R136. A slot with SKIP set consumes the wake, before its deferral is looked at (log entry 54). -/
theorem State.wake_skip (hskip : s.bit (BOB_SSTAT_SKIP e k) = true) :
    s.wake e k word = ((s.incr (BOB_SWAKE e k)).setB (BOB_SSTAT_SKIP e k) false).count (BOB_SDROP e k) :=
  (State.wake_taken word h).trans ((if_neg hst).trans (if_pos hskip))

/-- R140. A deferred wake is counted, in the run of deferrals too. -/
theorem State.wake_defer (hskip : s.bit (BOB_SSTAT_SKIP e k) = false) (hdef : s.deferred e k = true) :
    s.wake e k word = ((s.incr (BOB_SWAKE e k)).setF (BOB_SSTAT_DEFRUN e k)
      (min 255 (s.fld (BOB_SSTAT_DEFRUN e k) + 1))).count (BOB_SDEFER e k) :=
  (State.wake_taken word h).trans ((if_neg hst).trans ((if_neg (by simp [hskip])).trans (if_pos hdef)))

/-- R136. Any other wake makes the slot READY and schedules its dispatch. -/
theorem State.wake_ready (hskip : s.bit (BOB_SSTAT_SKIP e k) = false) (hdef : s.deferred e k = false) :
    s.wake e k word =
      ((((s.incr (BOB_SWAKE e k)).setF (BOB_SSTAT_DEFRUN e k) 0).setSlotState e k slReady).updSlot e k (fun c =>
        { c with wake := BitVec.ofNat 32 word, mode := if s.slotState e k = slWaiting then 1 else 0 })).sched 4
          (.slotDispatch (engIx e)) :=
  (State.wake_taken word h).trans ((if_neg hst).trans ((if_neg (by simp [hskip])).trans (if_neg (by simp [hdef]))))

end

/-- A slot that is IDLE or WAITING is in none of the states with a rule of its own. -/
theorem ne_of_idle_or_waiting {st : Nat} (h : st = slIdle ∨ st = slWaiting) :
    st ≠ slDisabled ∧ ¬ (st = slReady ∨ st = slRunning) := by
  rcases h with rfl | rfl <;> decide

/-- What a wake that a slot consumes through SKIP leaves in its registers. -/
theorem State.skip_reads (s : State) (e k : Nat) :
    let t := ((s.incr (BOB_SWAKE e k)).setB (BOB_SSTAT_SKIP e k) false).count (BOB_SDROP e k)
    t.slotState e k = s.slotState e k ∧ t.bit (BOB_SSTAT_SKIP e k) = false ∧
      t.rd (BOB_SDROP e k) = (s.count (BOB_SDROP e k)).rd (BOB_SDROP e k) ∧
      t.rdN (BOB_SWAKE e k) = (s.rdN (BOB_SWAKE e k) + 1) % 2 ^ 32 ∧ t.agenda = s.agenda := by
  refine ⟨by simp, ?skip, ?drop, ?wake, by simp⟩
  case skip =>
    rw [State.bit_count_ne _ (BOB_SSTAT_SKIP e k) (sstat_ne_sdrop e k)]
    exact State.bit_setB_self _ (BOB_SSTAT_SKIP e k) false rfl (by simp [BOB_SSTAT_SKIP])
  case drop =>
    refine State.rd_count_congr ?_
    rw [State.rd_setB_ne _ (BOB_SSTAT_SKIP e k) false (sstat_ne_sdrop e k).symm, State.rd_incr_ne _ _ (swake_ne_sdrop e k).symm]
  case wake =>
    unfold State.rdN
    rw [State.rd_count_ne _ _ (swake_ne_sdrop e k), State.rd_setB_ne _ (BOB_SSTAT_SKIP e k) false (sstat_ne_swake e k).symm]
    exact s.rdN_wrN_self (BOB_SWAKE e k) _

/-- What a deferred wake leaves in the slot's registers. -/
theorem State.defer_reads (s : State) (e k run : Nat) :
    let t := ((s.incr (BOB_SWAKE e k)).setF (BOB_SSTAT_DEFRUN e k) run).count (BOB_SDEFER e k)
    t.slotState e k = s.slotState e k ∧ t.rd (BOB_SDEFER e k) = (s.count (BOB_SDEFER e k)).rd (BOB_SDEFER e k) ∧
      t.agenda = s.agenda := by
  refine ⟨by simp, State.rd_count_congr ?_, by simp⟩
  rw [State.rd_setF_ne _ (BOB_SSTAT_DEFRUN e k) run (sstat_ne_sdefer e k).symm,
    State.rd_incr_ne _ _ (swake_ne_sdefer e k).symm]

/-- What a wake that makes a slot READY leaves in its state and context, and on the agenda. -/
theorem State.ready_reads (s : State) (e k : Nat) (f : SlotSt → SlotSt) :
    let t := ((((s.incr (BOB_SWAKE e k)).setF (BOB_SSTAT_DEFRUN e k) 0).setSlotState e k slReady).updSlot e k f).sched 4
      (.slotDispatch (engIx e))
    t.slotState e k = slReady ∧ t.slot e k = f (s.slot e k) ∧ t.agenda = s.agenda ++ [(s.tick + 4, .slotDispatch (engIx e))] := by
  refine ⟨?state, ?context, ?agenda⟩
  case state =>
    rw [State.slotState_sched, State.slotState_updSlot, State.slotState_setSlotState_self]
    rfl
  case context =>
    have hengs : (((s.incr (BOB_SWAKE e k)).setF (BOB_SSTAT_DEFRUN e k) 0).setSlotState e k slReady).engs = s.engs := by
      simp only [State.setSlotState, State.setF_engs, State.incr_engs]
    rw [State.slot_sched, State.slot_updSlot_self, State.slot_congr hengs]
  case agenda =>
    rw [State.sched_agenda]
    simp only [State.updSlot_agenda, State.updSlot_tick, State.setSlotState, State.setF_agenda, State.setF_tick, State.incr_agenda,
      State.incr_tick]

/-- Settles O50: `wake_ignored`, `wake_busy`, `wake_skip`, `wake_defer` and `wake_ready` give the state that each case answers, the
lemmas on their readings what it shows, and `wake_frame` what every wake leaves. -/
theorem wakeTable : Obligations.WakeTable := by
  intro s e k word _ _ hrun hheld
  refine ⟨fun hst => ?disabled, fun hst => ?busy, fun hst hskip => ?skip, fun hst hskip hdef => ?defer,
    fun hst hskip hdef => ?ready, fun a h1 h2 h3 h4 => ?regs, s.wake_mem e k word⟩
  case disabled => exact State.wake_ignored word fun ⟨_, _, hdis⟩ => hdis hst
  case busy =>
    refine State.wake_busy word ⟨hrun, hheld, ?_⟩ hst
    rcases hst with h | h <;> rw [h] <;> decide
  case skip =>
    obtain ⟨hdis, hbusy⟩ := ne_of_idle_or_waiting hst
    rw [State.wake_skip word ⟨hrun, hheld, hdis⟩ hbusy hskip]
    exact s.skip_reads e k
  case defer =>
    obtain ⟨hdis, hbusy⟩ := ne_of_idle_or_waiting hst
    rw [State.wake_defer word ⟨hrun, hheld, hdis⟩ hbusy hskip hdef]
    exact s.defer_reads e k _
  case ready =>
    obtain ⟨hdis, hbusy⟩ := ne_of_idle_or_waiting hst
    rw [State.wake_ready word ⟨hrun, hheld, hdis⟩ hbusy hskip hdef]
    exact s.ready_reads e k _
  case regs => exact (s.wake_frame e k word).1 a (by simp [wakeRegs, h1, h2, h3, h4])

/-! ### The commands of slots, engines, Thimble and Stitch (R132–R155, R173) -/

/-- R142. EN of an engine that has it is set again without effect. -/
theorem State.engCtrl_on_again {s : State} (m : Master) {e : Nat} (h : s.bit (BOB_CTRL_EN e) = true) :
    s.engCtrl m e true = s :=
  if_pos h

/-- R142. EN of an engine whose bank is not loaded is refused. -/
theorem State.engCtrl_on_unloaded {s : State} (m : Master) {e : Nat} (h : s.bit (BOB_CTRL_EN e) = false)
    (hl : s.bit (BOB_STATUS_LOADED e) = false) : s.engCtrl m e true = s.refuse m (BOB_CTRL e) := by
  simp only [State.engCtrl, h, hl, Bool.not_false, Bool.false_eq_true, if_true, if_false]

/-- R123, R136, R142. EN of a loaded engine starts it and enables its slots. -/
theorem State.engCtrl_on_loaded {s : State} (m : Master) {e : Nat} (h : s.bit (BOB_CTRL_EN e) = false)
    (hl : s.bit (BOB_STATUS_LOADED e) = true) :
    s.engCtrl m e true =
      (let t := ((s.setB (BOB_CTRL_EN e) true).setB (BOB_STATUS_RUNNING e) true).setB (BOB_STATUS_STOPPING e) false
      forN 8 (fun k t => if t.bit (BOB_SCFG_EN e k) then t.slotOn e k else t)
        (t.updEng e (fun g => { g with enTick := some t.tick, instret := 0 }))) := by
  simp only [State.engCtrl, h, hl, Bool.not_true, Bool.false_eq_true, if_true, if_false]

/-- R142. EN of an engine that has it cleared is cleared again without effect. -/
theorem State.engCtrl_off_again {s : State} (m : Master) {e : Nat} (h : s.bit (BOB_CTRL_EN e) = false) :
    s.engCtrl m e false = s := by
  simp only [State.engCtrl, h, Bool.false_eq_true, if_false]

/-- R136, R142. EN that is cleared disables the slots and stops the engine. -/
theorem State.engCtrl_off {s : State} (m : Master) {e : Nat} (h : s.bit (BOB_CTRL_EN e) = true) :
    s.engCtrl m e false =
      (let t := forN 8 (fun k t => t.slotOff e k) (s.setB (BOB_CTRL_EN e) false)
      if t.bit (BOB_STATUS_BUSY e) then t.setB (BOB_STATUS_STOPPING e) true else t.setB (BOB_STATUS_RUNNING e) false) := by
  simp only [State.engCtrl, h, Bool.false_eq_true, if_true, if_false]

/-- R142, R528. ENGINE_ENABLE that is taken in a unit that is awake is a write of EN. -/
theorem exec_engineEnable {s t : State} {m : Master} {e : Fin 16} (h : taken m s) (ha : s.awake = true)
    (ht : s.engCtrl m e.val true = t) : exec (.engineEnable m e) s = .next t :=
  exec_gate_taken rfl h ((State.startGate_awake m _ _ ha).trans ht)

/-- Settles O14: a write that is taken is the operation of its register, with the three cases of EN of an engine set and the two of
it cleared in `engCtrl`; an action, a timer and an event are the steps of their names. -/
theorem slotCommandsComplete : Obligations.SlotCommandsComplete := by
  refine ⟨?taskWake, ?wakeWrite, ?dispatch, ?overrun, ?slotEnable, ?slotDisable, ?enableAgain, ?enableUnloaded, ?enable,
    ?disableAgain, ?disable, ?kick, ?check, ?heartbeat, ?mismatch, ?expiry, ?stitchDone, ?phaseEnable, ?phaseDisable⟩
  case taskWake => exact fun _ _ _ => rfl
  case wakeWrite => exact fun m e w s h => exec_gate_taken rfl h rfl
  case dispatch | overrun => exact fun _ _ => rfl
  case slotEnable | slotDisable => exact fun m e k s h => exec_gate_taken rfl h rfl
  case enableAgain => exact fun m e s h ha hen => exec_engineEnable h ha (State.engCtrl_on_again m hen)
  case enableUnloaded => exact fun m e s h ha hen hl => exec_engineEnable h ha (State.engCtrl_on_unloaded m hen hl)
  case enable => exact fun m e s h ha hen hl => exec_engineEnable h ha (State.engCtrl_on_loaded m hen hl)
  case disableAgain => exact fun m e s h hen => exec_gate_taken rfl h (State.engCtrl_off_again m hen)
  case disable => exact fun m e s h hen => exec_gate_taken rfl h (State.engCtrl_off m hen)
  case kick => exact fun m e s h => exec_gate_taken rfl h rfl
  case check | heartbeat | mismatch | expiry | stitchDone => exact fun _ => rfl
  case phaseEnable | phaseDisable => exact fun m mask s h => exec_gate_taken rfl h rfl

/-! ### Frames of register writes (R147, R280, R293, R337, R348, R507) -/

/-- A write that is taken answers a state in every frame that its operation's is in. -/
theorem frame_of_gate {as : List Nat} {c : Instr} {s t : State} {m : Master} {op : State → State}
    (hc : exec c s = .next (s.gate m op)) (h : taken m s) (hf : frame as s (op s)) (ht : exec c s = .next t) : frame as s t :=
  frame_of_exec (exec_gate_taken hc h rfl) hf ht

/-- R280. The start of a scan acts on LNK_EYECTL of its lane. -/
theorem frame_eyeStart (s : State) (l : Nat) : frame [LNK_EYECTL l] s (s.eyeStart l) :=
  frame_ite (frame_updLane (frame_setB (f := LNK_EYECTL_ABORT l)
    (frame_setB (f := LNK_EYECTL_BUSY l) (frame_refl _ s) true (.head _)) false (.head _)) l _) (frame_refl _ s)

/-- R337. The start of a location acts on TWU_LOCSTAT. -/
theorem frame_twLocate (s : State) : frame [TWU_LOCSTAT] s s.twLocate :=
  frame_ite (frame_refl _ s) (frame_setB (f := TWU_LOCSTAT_BUSY) (frame_updTwu (frame_refl _ s) _) true (.head _))

/-- R507. INLVL is in HIF_MBCTL of the mailbox. -/
theorem frame_setMbox (s : State) (k : Nat) (l : List (List Byte)) : frame [HIF_MBCTL k] s (s.setMbox k l) :=
  frame_setF (f := HIF_MBCTL_INLVL k) (frame_updHif (frame_refl _ s) _) _ (.head _)

/-- R507. A pop of a mailbox takes its oldest message, if there is one. -/
theorem frame_mailPop (s : State) (k : Nat) : frame [HIF_MBCTL k] s (s.mailPop k) := by
  unfold State.mailPop
  split
  · exact frame_refl _ s
  · exact frame_setMbox s k _

/-- Settles O55: each write is one operation, on the named register and on what is no register. -/
theorem writeCommandsFrame : Obligations.WriteCommandsFrame := by
  intro s m h
  refine ⟨fun n _ => frame_of_gate rfl h ?commit, fun c _ => frame_of_gate rfl h ?sar,
    fun l _ => frame_of_gate rfl h (frame_eyeStart s l.val), fun _ => frame_of_gate rfl h (frame_twLocate s),
    fun k _ => frame_of_gate rfl h (frame_mailPop s k.val), fun e _ => frame_of_gate rfl h ?kick⟩
  case commit => exact frame_setB (f := PWM_STATUS_PEND n.val) (frame_refl _ s) true (.head _)
  case sar => exact frame_setB (f := ⟨ADC_CTRL, c.val, 1⟩) (frame_refl _ s) true (.head _)
  case kick => exact frame_updThb (frame_refl _ s) _

end Sys2Proof.Machine
end

