-- ==== Sys2Proof/Proofs/HenlinkProtocol.lean ====
section
/-!
PROOFS. The statements about the Henlink protocol (spec/07_henlink_protocol.md): what a received frame, a timer, an enumeration
pass, an action and a host command of cell management answer.
-/

namespace Sys2Proof.Machine

/-! ### Received frames (R214–R251) -/

/-- Settles O17: a frame of a chain is received by `rxChain` with the handler of its type, a delay response of the Shuttle by
`shuttleDelay`; no gate stands before a frame or a fast trip. -/
theorem chainFramesComplete : Obligations.ChainFramesComplete := by
  refine ⟨?upFrame, ?mgmtRsp, ?claimRsp, ?delayRsp, ?nak, ?chainHbt, ?enumReturn, ?enumFarEnd, ?fastTrip⟩
  case upFrame | mgmtRsp | claimRsp | nak | chainHbt | enumReturn | enumFarEnd | fastTrip => exact fun _ _ _ => rfl
  case delayRsp => exact fun _ _ _ _ => rfl

/-! ### Commands that run to completion (R499–R501) -/

/-- R501. A command that can start is fetched, runs and ends with the STATUS and RESULT of its operation. -/
theorem State.runCmd_ready {s : State} {ring : Nat} {d : Desc} (c : Instr) (op : State → State × Nat × Nat)
    (h : s.cmdReady ring d = true) :
    s.runCmd ring d c op = (op (s.cmdFetch ring)).1.finish
      ⟨ring, d.tag.toNat, d.opc.toNat, s.ringDev ring, (op (s.cmdFetch ring)).2.1, (op (s.cmdFetch ring)).2.2⟩ := by
  unfold State.runCmd
  exact if_pos h

/-- R501. A command that cannot start waits in its ring. -/
theorem State.runCmd_waits {s : State} {ring : Nat} {d : Desc} (c : Instr) (op : State → State × Nat × Nat)
    (h : s.cmdReady ring d = false) : s.runCmd ring d c op = s.cmdLater ring c := by
  unfold State.runCmd
  exact if_neg (by simp [h])

/-! ### Cell management (R218–R257, R385, R449, R503) -/

/-- Settles O18: a timer and an action are the steps of their names, a register write that is taken is its operation, and
CELLMAP_WRITE runs to completion once it can start (`runCmd_ready`). -/
theorem cellCommandsComplete : Obligations.CellCommandsComplete := by
  refine ⟨?mgmtTimeout, ?busyRetry, ?delayPeriod, ?cellLost, ?enumAssign, ?enumFill, ?fillPeriod, ?enumBreak, ?snapshot,
    ?probe, ?tripclr, ?cellMgmt, ?mapRuns, ?mapWaits⟩
  case mgmtTimeout | busyRetry | delayPeriod | cellLost | enumBreak => exact fun _ _ => rfl
  case fillPeriod => exact fun _ => rfl
  case enumAssign | enumFill => exact fun m chains s h => exec_gate_taken rfl h rfl
  case snapshot | probe => exact fun _ _ _ => rfl
  case tripclr => exact fun m key s h => exec_gate_taken rfl h rfl
  case cellMgmt => exact fun _ _ _ _ => rfl
  case mapRuns => exact fun ring d first entries s h => congrArg _ (State.runCmd_ready _ _ h)
  case mapWaits => exact fun ring d first entries s h => congrArg _ (State.runCmd_waits _ _ h)

end Sys2Proof.Machine
end

