-- ==== Sys2Proof/Proofs/SerialLanes.lean ====
section
/-!
PROOFS. The statements about the serial lanes (spec/08_serial_lanes.md): what enabling, training and losing a lane answer.
-/

namespace Sys2Proof.Machine

/-! ### States of a lane (R263–R275) -/

/-- R268, R528. A LANE_ENABLE that is taken outside Quiet passes both gates and is the operation of EN. -/
theorem exec_laneEnable_taken {m : Master} {lane : Fin 26} {s : State} (h : taken m s) (ha : s.awake = true) :
    exec (.laneEnable m lane) s = .next (s.laneEnable lane.val) :=
  exec_gate_taken rfl h (State.startGate_awake m _ _ ha)

/-- Settles O22: an enable passes the gate of Quiet too (`exec_laneEnable_taken`), a disable and RETRAIN that are taken are the
operations of their bits (`exec_gate_taken`); no gate stands before what the receiver, a TRAIN frame or a timer brings, which is
the step of its name. -/
theorem laneStateCommandsComplete : Obligations.LaneStateCommandsComplete := by
  refine ⟨?enable, ?disable, ?signalLock, ?aligned, ?trainFrame, ?tapUpdate, ?ctleDone, ?tuneEval, ?tuneRestart, ?linkUp,
    ?trainTimeout, ?loss, ?backoffEnd, ?retrain⟩
  case enable => exact fun m lane s h ha => exec_laneEnable_taken h ha
  case disable | retrain => exact fun m lane s h => exec_gate_taken rfl h rfl
  case signalLock | tapUpdate | tuneEval | tuneRestart | linkUp | trainTimeout | backoffEnd => exact fun _ _ => rfl
  case aligned | ctleDone => exact fun _ _ _ => rfl
  case trainFrame | loss => exact fun _ _ _ _ _ => rfl

end Sys2Proof.Machine
end

