-- ==== Sys2Proof/Proofs/Converters.lean ====
section
/-!
PROOFS. The statements about the converters (spec/09_adc.md): what their writes, triggers, periods and results answer.
-/

namespace Sys2Proof.Machine

/-! ### Triggers, writes and results (R290–R307) -/

/-- Settles O24: a write that is taken is the operation of its register (`exec_gate_taken`); no gate stands before a trigger of a
Pricking, a period, a conversion result or what the reference, a comparator's input or a fast channel reports, which is the step of
its name. -/
theorem adcCommandsComplete : Obligations.AdcCommandsComplete := by
  refine ⟨?seqTrig, ?sarEnable, ?sarReady, ?sarDisable, ?seqswGo, ?result, ?urgent, ?hkPeriod, ?scPeriod, ?refSelect,
    ?refSettled, ?refLoss, ?comparator, ?inject, ?streamStart, ?streamStop, ?clip⟩
  case sarEnable | sarDisable => exact fun m conv s h => exec_gate_taken rfl h rfl
  case seqswGo => exact fun m mask s h => exec_gate_taken rfl h rfl
  case urgent => exact fun m conv input s h => exec_gate_taken rfl h rfl
  case refSelect => exact fun m sel vnom s h => exec_gate_taken rfl h rfl
  case inject => exact fun m w s h => exec_gate_taken rfl h rfl
  case streamStart => exact fun m chen s h => exec_gate_taken rfl h rfl
  case streamStop => exact fun m s h => exec_gate_taken rfl h rfl
  case seqTrig | sarReady | refSettled => exact fun _ _ => rfl
  case hkPeriod | scPeriod | refLoss => exact fun _ => rfl
  case result | comparator | clip => exact fun _ _ _ => rfl

end Sys2Proof.Machine
end

