-- ==== Sys2Proof/Proofs/PhasorAndTravellingWave.lean ====
section
/-!
PROOFS. The statements about the phasor unit and travelling waves (spec/10_phasor_and_travelling_wave.md): the window that an arming
opens (R331), and what the commands of both units answer.
-/

namespace Sys2Proof.Machine

/-! ### The window of an arming (R331) -/

/-- R331. Where the window ends after TW_ARM with ARG `window`: now for 0, else never before its old end. -/
def State.armEndFor (s : State) (window : Nat) : Nat :=
  if window = 0 then s.tick else max s.twu.armEnd (s.tick + us window)

/-- R331. The window ends at tick `e`, and TW_ARM_EXPIRE is due then, unless that is over. -/
def State.armUntil (s : State) (e : Nat) : State :=
  let t := (s.updTwu (fun w => { w with armEnd := e })).unsched (· == .twArmExpire)
  if t.tick < e then t.schedAt e .twArmExpire else t

/-- A new window is the end of the old one and an agenda, and nothing else. -/
theorem State.armUntil_eq (s : State) (e : Nat) :
    ∃ agenda, s.armUntil e = { s with twu := { s.twu with armEnd := e }, agenda := agenda } := by
  unfold State.armUntil
  dsimp only
  split
  · exact ⟨_, rfl⟩
  · exact ⟨_, rfl⟩

/-- With its channels in the stream TW_ARM sets the window and shows in ARMED what that leaves. -/
theorem State.twArm_stream {s : State} {mask : Nat} (window : Nat) (h : s.twStream mask = true) :
    s.twArm mask window =
      (s.armUntil (s.armEndFor window)).setB TWU_STATUS_ARMED (s.armUntil (s.armEndFor window)).twArmed := by
  unfold State.twArm
  rw [h]
  rfl

/-- Settles O56: with the stream there TW_ARM is a new window and a write of ARMED (`State.twArm_stream`); the window is not in
the register file (`State.armUntil_eq`), so what is written is ARMED of the old TWU_CTRL and the new end. -/
theorem armingExtends : Obligations.ArmingExtends := by
  intro s mask window hs
  obtain ⟨agenda, hu⟩ := s.armUntil_eq (s.armEndFor window.toNat)
  refine ⟨_, congrArg Host.Outcome.next (State.twArm_stream window.toNat hs), ?_⟩
  rw [hu]
  refine ⟨rfl, ?armed, ?frame⟩
  case armed => exact State.bit_setB_self _ TWU_STATUS_ARMED _ rfl (by decide)
  case frame => exact frame_setB (f := TWU_STATUS_ARMED) (frame_of_eq rfl rfl rfl) _ (.head _)

/-! ### The commands of the phasor unit (R315–R320) -/

/-- Settles O25: an enable that is taken is the write of PHU_CTRL with EN set (`exec_gate_taken`); no gate stands before
PHU_ALIGN and the device's own decisions, triggers and frames, which are the steps of their names. -/
theorem phasorCommandsComplete : Obligations.PhasorCommandsComplete := by
  refine ⟨?enable, ?align, ?guardDecision, ?trigger, ?frameEmit⟩
  case enable => exact fun m s h => exec_gate_taken rfl h rfl
  case align => exact fun _ _ => rfl
  case guardDecision | trigger => exact fun _ => rfl
  case frameEmit => exact fun _ _ _ _ => rfl

/-! ### The commands of travelling waves (R331–R337) -/

/-- Settles O26: a location's start that is taken is the write of GO (`exec_gate_taken`); no gate stands before TW_ARM, the samples
that the stream brings and the ends of the device's own times, which are the steps of their names. -/
theorem travellingWaveCommandsComplete : Obligations.TravellingWaveCommandsComplete := by
  refine ⟨?arm, ?armExpire, ?trigger, ?postEnd, ?holdoffEnd, ?captureDone, ?locate, ?locateDone⟩
  case arm | postEnd => exact fun _ _ _ => rfl
  case armExpire | holdoffEnd | captureDone | locateDone => exact fun _ => rfl
  case trigger => exact fun _ _ => rfl
  case locate => exact fun m s h => exec_gate_taken rfl h rfl

end Sys2Proof.Machine
end

