-- ==== Sys2Proof/Proofs/LocalPwmAndSelvage.lean ====
section
/-!
PROOFS. The statements about local PWM and Selvage (spec/11_local_pwm_and_selvage.md): that no side of a leg turns on against the
other (R350, R351), and what the commands of both answer.
-/

namespace Sys2Proof.Machine

/-! ### Turning on (R350) -/

/-- Settles O41: the side was off before, so what is left of `sideOn_tryTurnOn` is that it turned on with nothing against it. -/
theorem turnOnWaits : Obligations.TurnOnWaits := by
  intro s n t high _ hoff hon
  rcases s.sideOn_tryTurnOn n t n high hon with hwas | ⟨-, hopp, hdt, hack, hwant⟩
  · rw [hoff] at hwas
    cases hwas
  · exact ⟨hdt, hopp, hack, hwant⟩

/-! ### No leg with both sides on (R350–R352) -/

/-- What leaves the register file alone leaves every side as it is. -/
theorem State.noShootThrough_regs {s t : State} (h : s.noShootThrough) (hr : t.regs = s.regs) : t.noShootThrough :=
  State.noShootThrough_of h fun n high hon => (State.sideOn_congr hr n high).symm.trans hon

theorem State.noShootThrough_ite {s t : State} {c : Prop} [Decidable c] (hs : s.noShootThrough) (ht : t.noShootThrough) :
    (if c then s else t).noShootThrough := by
  split
  · exact hs
  · exact ht

theorem State.updLeg_noShootThrough {s : State} (h : s.noShootThrough) (k : Nat) (f : LegSt → LegSt) :
    (s.updLeg k f).noShootThrough := State.noShootThrough_regs h rfl

theorem State.sched_noShootThrough {s : State} (h : s.noShootThrough) (d : Nat) (c : Instr) : (s.sched d c).noShootThrough :=
  State.noShootThrough_regs h rfl

theorem State.unsched_noShootThrough {s : State} (h : s.noShootThrough) (p : Instr → Bool) : (s.unsched p).noShootThrough :=
  State.noShootThrough_regs h rfl

theorem State.startAck_noShootThrough {s : State} (h : s.noShootThrough) (k : Nat) (x : Bool) :
    (s.startAck k x).noShootThrough := State.noShootThrough_regs h rfl

/-- The sides are bits 4 and 5 of a leg's status; a field beside them is no side. -/
theorem State.setF_status_noShootThrough {s : State} (h : s.noShootThrough) (k : Nat) {lo w : Nat} (v : Nat)
    (hf : lo + w ≤ 4 ∨ 6 ≤ lo) : (s.setF ⟨PWM_STATUS k, lo, w⟩ v).noShootThrough :=
  State.noShootThrough_of h fun n high hon => (s.sideOn_setF_status k lo w v n high hf).symm.trans hon

theorem State.setB_dtrun_noShootThrough {s : State} (h : s.noShootThrough) (k : Nat) (b : Bool) :
    (s.setB (PWM_STATUS_DTRUN k) b).noShootThrough := State.setF_status_noShootThrough h k _ (.inr (by decide))

theorem State.setB_picot_noShootThrough {s : State} (h : s.noShootThrough) (k : Nat) (b : Bool) :
    (s.setB (PWM_STATUS_PICOT k) b).noShootThrough := State.setF_status_noShootThrough h k _ (.inr (by decide))

/-- A bit of a register that is no leg's status is no side. -/
theorem State.setBit_noShootThrough {s : State} (h : s.noShootThrough) {a : Nat} (i : Nat) (b : Bool)
    (ha : ∀ n, a ≠ 0x24014 + n * 0x100) : (s.setBit a i b).noShootThrough :=
  State.noShootThrough_of h fun n high hon => (s.sideOn_setBit a i b n high (ha n)).symm.trans hon

theorem State.turnOff_noShootThrough {s : State} (h : s.noShootThrough) (k : Nat) (x : Bool) (t : Nat) :
    (s.turnOff k x t).noShootThrough := State.noShootThrough_of h fun n high => s.sideOn_turnOff k x t n high

/-- R350, R357. A refresh that is given up turns no side on. -/
theorem State.picotCancel_noShootThrough {s : State} (h : s.noShootThrough) (k : Nat) (f : LegSt → LegSt) :
    (((s.unsched (isPicot k)).setB (PWM_STATUS_PICOT k) false).updLeg k f).noShootThrough :=
  State.updLeg_noShootThrough (State.setB_picot_noShootThrough (State.unsched_noShootThrough h _) k false) k f

/-- R350. An ideal transition turns the opposite side off before the side waits to turn on. -/
theorem State.transition_noShootThrough {s : State} (h : s.noShootThrough) (k : Nat) (high : Bool) (t : Nat) :
    (s.transition k high t).noShootThrough := by
  have hoff := State.turnOff_noShootThrough (State.noShootThrough_ite (c := s.bit (PWM_STATUS_PICOT k) = true)
    (State.picotCancel_noShootThrough h k (fun l => { l with supplyWait := false })) h) k (!high) t
  exact State.noShootThrough_ite (State.updLeg_noShootThrough hoff k _)
    (State.tryTurnOn_noShootThrough _ k t (State.updLeg_noShootThrough hoff k _))

/-- R357. On the way to its safe state a leg turns sides off, and its low side on only by `tryTurnOn`. -/
theorem State.legSafe_noShootThrough {s : State} (h : s.noShootThrough) (k : Nat) : (s.legSafe k).noShootThrough := by
  have hend := State.picotCancel_noShootThrough h k (fun l => { l with supplyWait := false })
  refine State.noShootThrough_ite
    (State.noShootThrough_ite (State.updLeg_noShootThrough ?sidesOff k _)
      (State.tryTurnOn_noShootThrough _ k _ (State.noShootThrough_ite
        (State.startAck_noShootThrough (State.updLeg_noShootThrough ?sidesOff k _) k true)
        (State.updLeg_noShootThrough ?sidesOff k _))))
    (State.updLeg_noShootThrough ?sidesOff k _)
  case sidesOff =>
    exact State.noShootThrough_ite (State.turnOff_noShootThrough hend k true _)
      (State.noShootThrough_ite (State.turnOff_noShootThrough hend k false _) hend)

/-- R350, R352. The waiting side turns on only by `tryTurnOn`; the refresh that hangs on it commands no side. -/
theorem State.turnOnAt_noShootThrough {s : State} (h : s.noShootThrough) (k t : Nat) : (s.turnOnAt k t).noShootThrough := by
  have hon := State.tryTurnOn_noShootThrough s k t h
  have hpulse : ((s.tryTurnOn k t).picotPulse k (s.sideOn k false)).noShootThrough :=
    State.noShootThrough_ite (State.sched_noShootThrough hon _ _) hon
  exact State.noShootThrough_ite (State.setB_picot_noShootThrough hpulse k false) hpulse

/-- R347. STATE is beside the sides, and the leg ends in its safe state. -/
theorem State.stopEnd_noShootThrough {s : State} (h : s.noShootThrough) (k : Nat) : (s.stopEnd k).noShootThrough :=
  State.legSafe_noShootThrough (State.setF_status_noShootThrough h k _ (.inl (by decide))) k

theorem State.deadTimeOver_noShootThrough {s : State} (h : s.noShootThrough) (k : Nat) : (s.deadTimeOver k).noShootThrough :=
  have hdt := State.setB_dtrun_noShootThrough h k false
  State.noShootThrough_ite
    (State.noShootThrough_ite (State.stopEnd_noShootThrough hdt k) (State.turnOnAt_noShootThrough hdt k _)) h

/-- R351, R359. The live bit of the acknowledge source is in a register of Selvage. -/
theorem State.ackLiveUpdate_noShootThrough {s : State} (h : s.noShootThrough) (k : Nat) : (s.ackLiveUpdate k).noShootThrough :=
  State.noShootThrough_ite
    (State.setBit_noShootThrough h _ false fun n => by unfold SELV_LIVE0 SELV_LIVE1; split <;> omega) h

theorem State.gateAck_noShootThrough {s : State} (h : s.noShootThrough) (k : Nat) (high level : Bool) :
    (s.gateAck k high level).noShootThrough := by
  have hfb : ∀ i, (s.setBit PWM_FBSTAT i level).noShootThrough :=
    fun i => State.setBit_noShootThrough h i level fun n => by unfold PWM_FBSTAT; omega
  exact State.noShootThrough_ite
    (State.ackLiveUpdate_noShootThrough (State.turnOnAt_noShootThrough (State.unsched_noShootThrough (hfb _) _) k _) k)
    (State.noShootThrough_ite (State.startAck_noShootThrough (hfb _) k high) (hfb _))

/-- R352. At the end of its pulse the low side is off before the high side is tried. -/
theorem State.picotPulseOver_noShootThrough {s : State} (h : s.noShootThrough) (k : Nat) :
    (s.picotPulseOver k).noShootThrough := by
  have hwait := fun f => State.updLeg_noShootThrough (State.turnOff_noShootThrough h k false (s.tick * 8 + (s.leg k).onSub)) k f
  exact State.noShootThrough_ite (State.turnOnAt_noShootThrough
    (State.noShootThrough_ite (State.sched_noShootThrough (hwait _) _ _) (hwait _)) k _) h

/-- What a command answers has no leg with both sides on when a state it is known to answer has none. -/
theorem State.noShootThrough_of_exec {c : Instr} {s t u : State} (hu : exec c s = .next u) (h : u.noShootThrough)
    (ht : exec c s = .next t) : t.noShootThrough := by
  have htu : u = t := Host.Outcome.next.inj (hu.symm.trans ht)
  exact htu ▸ h

/-- Settles O40: each command is an operation that keeps every leg from having both sides on. -/
theorem neverBothSidesOn : Obligations.NeverBothSidesOn := by
  intro s h
  refine ⟨fun n high t => State.noShootThrough_of_exec rfl ?transition, fun n t => State.noShootThrough_of_exec rfl ?deadTimeEnd,
    fun n high level t => State.noShootThrough_of_exec rfl ?gateAck, fun n t => State.noShootThrough_of_exec rfl ?pulseEnd⟩
  case transition => exact State.noShootThrough_ite (State.transition_noShootThrough h n.val high _) h
  case deadTimeEnd => exact State.deadTimeOver_noShootThrough h n.val
  case gateAck => exact State.gateAck_noShootThrough h n.val high level
  case pulseEnd => exact State.picotPulseOver_noShootThrough h n.val

/-! ### The commands of the legs (R345–R355) -/

/-- R347, R528. A PWM_LEG_ENABLE that is taken outside Quiet passes both gates and is the operation of EN. -/
theorem exec_pwmLegEnable_taken {m : Master} {n : Fin 12} {s : State} (h : taken m s) (ha : s.awake = true) :
    exec (.pwmLegEnable m n) s = .next (s.legEnable n.val) :=
  exec_gate_taken rfl h (State.startGate_awake m _ _ ha)

/-- Settles O8: an enable passes the gate of Quiet too (`exec_pwmLegEnable_taken`), the other writes that are taken are the
operations of their bits (`exec_gate_taken`); no gate stands before an action, an input or a step that the leg has scheduled, which
is the step of its name. -/
theorem pwmLegCommandsComplete : Obligations.PwmLegCommandsComplete := by
  refine ⟨?enable, ?disable, ?gstart, ?commitWrite, ?commit, ?boundary, ?transition, ?deadTimeEnd, ?gateAck, ?ackTimeout,
    ?supplyInput, ?supplyCheck, ?pulseEnd, ?blankEnd⟩
  case enable => exact fun m n s h ha => exec_pwmLegEnable_taken h ha
  case disable | commitWrite => exact fun m n s h => exec_gate_taken rfl h rfl
  case gstart => exact fun m mask s h => exec_gate_taken rfl h rfl
  case commit | boundary | deadTimeEnd | supplyCheck | pulseEnd | blankEnd => exact fun _ _ => rfl
  case transition | ackTimeout | supplyInput => exact fun _ _ _ => rfl
  case gateAck => exact fun _ _ _ _ => rfl

/-! ### The commands of Selvage (R354–R362) -/

/-- Settles O9: a keyed write that is taken is the operation of its register (`exec_gate_taken`); no gate stands before a decision,
an input or the end of BRK's minimum time, which is the step of its name. -/
theorem selvageCommandsComplete : Obligations.SelvageCommandsComplete := by
  refine ⟨?decision, ?input, ?force, ?clear, ?brkMin⟩
  case decision => exact fun _ _ => rfl
  case input => exact fun _ _ _ => rfl
  case force | clear => exact fun m w s h => exec_gate_taken rfl h rfl
  case brkMin => exact fun _ => rfl

end Sys2Proof.Machine
end

