-- ==== Sys2Proof/Proofs/FaultCollection.lean ====
section
/-!
PROOFS. The statements about fault collection (spec/12_fault_collection.md): what the mark of an event leaves in the registers
(R376, R383), the room of the event FIFO (R391), and what the commands of FLT answer.
-/

namespace Sys2Proof.Machine

/-! ### The mark of an event (R376, R383) -/

theorem scnt_ne_status (src : Nat) : FLT_SCNT src ≠ FLT_STATUS := by unfold FLT_SCNT FLT_STATUS; omega

theorem cause_ne_status (k : Nat) : FLT_CAUSE k ≠ FLT_STATUS := by unfold FLT_CAUSE FLT_STATUS; omega

/-- R393. The eight registers FLT_CAUSEk end below the counters. -/
theorem scnt_ne_cause (src : Nat) {k : Nat} (hk : k < 8) : FLT_SCNT src ≠ FLT_CAUSE k := by unfold FLT_SCNT FLT_CAUSE; omega

/-- R376, R383. An event of a source is counted and its cause bit set, whatever its class. -/
def State.fltCaused (s : State) (src : Nat) : State := (s.count (FLT_SCNT src)).setSrcBit FLT_CAUSE src true

/-- R383. A source whose cause bit a class F event has set is on the fatal list, and FATAL is set. -/
def State.fltFatal (s : State) (src : Nat) : State :=
  (s.updFlt (fun f => { f with fatal := if f.fatal.contains src then f.fatal else src :: f.fatal })).setB FLT_STATUS_FATAL true

/-- R383. The mark of a class F event makes its source fatal; the mark of any other is counter and cause bit alone. -/
theorem State.fltMark_eq (s : State) (src cls : Nat) :
    s.fltMark src cls = if cls = 2 then (s.fltCaused src).fltFatal src else s.fltCaused src := rfl

theorem State.fltMark_fatal (s : State) (src : Nat) : s.fltMark src 2 = (s.fltCaused src).fltFatal src :=
  (s.fltMark_eq src 2).trans (if_pos rfl)

theorem State.fltMark_notFatal (s : State) (src : Nat) {cls : Nat} (h : cls ≠ 2) : s.fltMark src cls = s.fltCaused src :=
  (s.fltMark_eq src cls).trans (if_neg h)

theorem State.rd_fltFatal_ne (s : State) (src : Nat) {a : Nat} (h : a ≠ FLT_STATUS) : (s.fltFatal src).rd a = s.rd a :=
  State.rd_setB_ne _ FLT_STATUS_FATAL true h

/-- The class of a marked event shows in FLT_STATUS only. -/
theorem State.rd_fltMark (s : State) (src cls : Nat) {a : Nat} (h : a ≠ FLT_STATUS) :
    (s.fltMark src cls).rd a = (s.fltCaused src).rd a := by
  by_cases hf : cls = 2
  · rw [hf, State.fltMark_fatal, State.rd_fltFatal_ne _ src h]
  · rw [State.fltMark_notFatal s src hf]

theorem State.rd_fltCaused_ne (s : State) (src : Nat) {a : Nat} (hcnt : a ≠ FLT_SCNT src) (hcause : a ≠ FLT_CAUSE (src / 32)) :
    (s.fltCaused src).rd a = s.rd a :=
  (State.rd_setBit_ne _ _ _ true hcause).trans (s.rd_count_ne _ hcnt)

theorem State.bit_fatal_fltCaused (s : State) (src : Nat) : (s.fltCaused src).bit FLT_STATUS_FATAL = s.bit FLT_STATUS_FATAL :=
  State.bit_congr_rd FLT_STATUS_FATAL (s.rd_fltCaused_ne src (scnt_ne_status src).symm (cause_ne_status _).symm)

/-- R383. FATAL after the mark of an event. -/
theorem State.bit_fatal_fltMark (s : State) (src cls : Nat) :
    (s.fltMark src cls).bit FLT_STATUS_FATAL = (s.bit FLT_STATUS_FATAL || cls == 2) := by
  by_cases hf : cls = 2
  · have hset : ((s.fltCaused src).fltFatal src).bit FLT_STATUS_FATAL = true :=
      State.bit_setB_self _ FLT_STATUS_FATAL true rfl (by decide)
    rw [hf, State.fltMark_fatal, hset]
    simp
  · rw [State.fltMark_notFatal s src hf, State.bit_fatal_fltCaused, beq_false_of_ne hf, Bool.or_false]

/-- The mark of an event acts on registers and on the fatal list. -/
theorem State.fltMark_side (s : State) (src cls : Nat) :
    (s.fltMark src cls).mem = s.mem ∧ (s.fltMark src cls).agenda = s.agenda ∧ (s.fltMark src cls).out = s.out := by
  have hcaused : (s.fltCaused src).mem = s.mem ∧ (s.fltCaused src).agenda = s.agenda ∧ (s.fltCaused src).out = s.out :=
    ⟨s.count_mem _, s.count_agenda _, s.count_out _⟩
  by_cases hf : cls = 2
  · rw [hf, State.fltMark_fatal]
    exact hcaused
  · rw [State.fltMark_notFatal s src hf]
    exact hcaused

/-- Settles O7: outside FLT_STATUS the mark is that of `fltCaused`, a count and one set bit, in registers that differ; FATAL is that
of `bit_fatal_fltMark`. -/
theorem eventMarkSetsCauseAndCounts : Obligations.EventMarkSetsCauseAndCounts := by
  intro s src cls hsrc
  have hbank : FLT_SCNT src ≠ FLT_CAUSE (src / 32) := scnt_ne_cause src (by omega)
  have hcause : (s.fltMark src cls).rd (FLT_CAUSE (src / 32)) = (s.fltCaused src).rd (FLT_CAUSE (src / 32)) :=
    s.rd_fltMark src cls (cause_ne_status _)
  refine ⟨?set, ?counted, s.bit_fatal_fltMark src cls, fun i hi hne => ?otherBits, fun a hcnt hc hst => ?otherRegs,
    s.fltMark_side src cls⟩
  case set => exact (State.rbit_congr_rd hcause _).trans (State.rbit_setBit_self _ _ _ true (Nat.mod_lt _ (by decide)))
  case counted => exact (s.rd_fltMark src cls (scnt_ne_status src)).trans (State.rd_setBit_ne _ _ _ true hbank)
  case otherBits =>
    calc (s.fltMark src cls).rbit (FLT_CAUSE (src / 32)) i
        = (s.fltCaused src).rbit (FLT_CAUSE (src / 32)) i := State.rbit_congr_rd hcause i
      _ = (s.count (FLT_SCNT src)).rbit (FLT_CAUSE (src / 32)) i := State.rbit_setBit_other _ _ _ _ true hi hne
      _ = s.rbit (FLT_CAUSE (src / 32)) i := State.rbit_congr_rd (s.rd_count_ne _ hbank.symm) i
  case otherRegs => exact (s.rd_fltMark src cls hst).trans (s.rd_fltCaused_ne src hcnt hc)

/-! ### The event FIFO (R390, R391) -/

/-- R390. The record as it stands in the FIFO: a new one takes the next identifier, the clear update of one keeps its own. -/
def State.numbered (s : State) (r : FltRec) : FltRec := if r.update then r else { r with recid := s.rdN FLT_NEXTID }

theorem State.updFifo_flt (s : State) : s.updFifo.flt = s.flt := (State.setB_flt _ _ _).trans (s.setF_flt _ _)

theorem State.updFifo_mem (s : State) : s.updFifo.mem = s.mem := (State.setB_mem _ _ _).trans (s.setF_mem _ _)

/-- R391. With room in the FIFO. -/
theorem State.pushRec_room {s : State} (r : FltRec) (h : s.flt.fifo.length < 512) :
    s.pushRec r = (((if (s.numbered r).update then s else s.incr FLT_NEXTID).updFlt
      (fun f => { f with fifo := f.fifo ++ [s.numbered r] })).updFifo, []) := by
  unfold State.pushRec
  rw [if_pos h]
  rfl

/-- R391. With room the record is the last in. -/
theorem State.fifo_pushRec_room {s : State} (r : FltRec) (h : s.flt.fifo.length < 512) :
    (s.pushRec r).1.flt.fifo = s.flt.fifo ++ [s.numbered r] := by
  have hflt : (if (s.numbered r).update then s else s.incr FLT_NEXTID).flt = s.flt := by split <;> simp
  rw [State.pushRec_room r h, State.updFifo_flt, State.updFlt_flt, hflt]

/-- R391. The record of the overflow itself finds no room: it is held aside. -/
theorem State.pushRec_aside {s : State} {r : FltRec} (h : ¬ s.flt.fifo.length < 512) (hr : r.src = 0xFE) :
    s.pushRec r = (s.updFlt (fun f => { f with aside := some r }), []) := by
  unfold State.pushRec
  rw [if_neg h, if_pos hr]

/-- R391. Any other record that finds no room is lost; the first of an episode raises source 0xFE. -/
theorem State.pushRec_lost {s : State} {r : FltRec} (h : ¬ s.flt.fifo.length < 512) (hr : r.src ≠ 0xFE) :
    s.pushRec r = if s.flt.overflow then (s.count FLT_LOST, [])
      else ((s.count FLT_LOST).updFlt (fun f => { f with overflow := true }), [{ src := 0xFE, inst := 0xFF, detail := 0 }]) := by
  unfold State.pushRec
  rw [if_neg h, if_neg hr]
  dsimp only
  rw [State.count_flt]

/-- R391. What a lost record leaves. -/
theorem State.pushRec_lost_reads {s : State} {r : FltRec} (h : ¬ s.flt.fifo.length < 512) (hr : r.src ≠ 0xFE) :
    (s.pushRec r).1.flt.fifo = s.flt.fifo ∧ (s.pushRec r).1.rd FLT_LOST = (s.count FLT_LOST).rd FLT_LOST ∧
      (s.pushRec r).2 = (if s.flt.overflow then [] else [{ src := 0xFE, inst := 0xFF, detail := 0 }]) ∧
      (s.pushRec r).1.mem = s.mem := by
  have hfifo : (s.count FLT_LOST).flt.fifo = s.flt.fifo := congrArg FltSt.fifo (s.count_flt FLT_LOST)
  rw [State.pushRec_lost h hr]
  cases s.flt.overflow
  case true => exact ⟨hfifo, rfl, rfl, s.count_mem _⟩
  case false => exact ⟨hfifo, rfl, rfl, s.count_mem _⟩

/-- A FIFO without room is as before, whatever record comes. -/
theorem State.fifo_pushRec_full {s : State} (r : FltRec) (h : ¬ s.flt.fifo.length < 512) :
    (s.pushRec r).1.flt.fifo = s.flt.fifo := by
  by_cases hr : r.src = 0xFE
  · rw [State.pushRec_aside h hr]
    rfl
  · exact (State.pushRec_lost_reads h hr).1

theorem State.pushRec_mem (s : State) (r : FltRec) : (s.pushRec r).1.mem = s.mem := by
  by_cases h : s.flt.fifo.length < 512
  · rw [State.pushRec_room r h, State.updFifo_mem, State.updFlt_mem, apply_ite State.mem, State.incr_mem, ite_self]
  · by_cases hr : r.src = 0xFE
    · rw [State.pushRec_aside h hr]
      rfl
    · obtain ⟨-, -, -, hmem⟩ := State.pushRec_lost_reads h hr
      exact hmem

/-- Settles O48: with room the FIFO grows by one (`fifo_pushRec_room`), and without room it is as before
(`fifo_pushRec_full`, `pushRec_lost_reads`). -/
theorem logFifoHolds512 : Obligations.LogFifoHolds512 := by
  intro s r hlen
  refine ⟨?bound, fun h hnew => ?room, fun hfull hr => ?lost, s.pushRec_mem r⟩
  case bound =>
    by_cases h : s.flt.fifo.length < 512
    · rw [State.fifo_pushRec_room r h, List.length_append, List.length_singleton]
      omega
    · rw [State.fifo_pushRec_full r h]
      exact hlen
  case room =>
    have hrec : s.numbered r = { r with recid := s.rdN FLT_NEXTID } := if_neg (by simp [hnew])
    exact ⟨hrec ▸ State.fifo_pushRec_room r h, congrArg Prod.snd (State.pushRec_room r h)⟩
  case lost =>
    obtain ⟨hfifo, hcount, hraised, -⟩ := State.pushRec_lost_reads (Nat.not_lt.mpr hfull.ge) hr
    exact ⟨hfifo, hcount, hraised⟩

/-! ### Events and the ends of conditions (R378, R383) -/

/-- R378. An event by cases: of a reserved source, at an edge of the fault clock, and between two edges (log entry 6). -/
theorem State.raiseEv_eq (e : Ev) (s : State) :
    State.raiseEv e s = if fltListed e.src = false then s
      else if s.tick % 2 = 0 then State.fltSample e s else State.fltLater 1 e s := by
  by_cases hl : fltListed e.src = false
  · rw [if_pos hl, State.raiseEv_unlisted s e hl]
  · have hlisted : fltListed e.src = true := eq_true_of_ne_false hl
    rw [if_neg hl]
    by_cases ht : s.tick % 2 = 0
    · rw [if_pos ht, State.raiseEv_even hlisted ht]
    · rw [if_neg ht, State.raiseEv_odd hlisted ht]

/-- R378, R387. An event that comes to FLT is an injected one when such a one waits for it, which then waits no longer. -/
theorem State.faultArrive_eq (s : State) (src inst detail : Nat) :
    s.faultArrive src inst detail =
      (let waits := s.flt.injWait.contains (src, inst)
      let t := if waits then { s with flt := { s.flt with injWait := s.flt.injWait.erase (src, inst) } } else s
      let e : Ev := { src, inst, detail, inj := waits }
      if fltListed src = false then t
      else if t.tick % 2 = 0 then forL (State.fltStep e t).2 (State.fltLater 2) (State.fltStep e t).1
      else State.fltLater 1 e t) :=
  State.raiseEv_eq _ _

/-- R383. The end of a condition that is not live, at an edge of the fault clock. -/
theorem State.fltEnd_none {s : State} {src inst : Nat}
    (hlive : s.flt.live.all (fun x => !(x.src == src && x.inst == inst)) = true) (ht : s.tick % 2 = 0) :
    s.fltEnd src inst = s := by
  have hnone : s.flt.live.find? (fun x => x.src == src && x.inst == inst) = none :=
    List.find?_eq_none.mpr fun x hx => by
      simpa only [Bool.not_eq_true', Bool.not_eq_true] using List.all_eq_true.mp hlive x hx
  rw [State.fltEnd_even ht]
  unfold State.fltEndNow
  rw [hnone]

/-! ### The log and the error pin (R384, R391) -/

/-- R391. LOG_RECORD_COMMIT with a record in the FIFO. -/
theorem exec_logRecordCommit_cons {s : State} {r : FltRec} {rest : List FltRec} (h : s.flt.fifo = r :: rest) :
    exec .logRecordCommit s =
      .next (if s.bit NVM_STATUS_HALT || s.bit SEC_STATUS_WIPING || s.bit SEC_STATUS_RESTART then s
        else (State.commitRec { s with flt := { s.flt with fifo := rest } } r).fifoAfter) := by
  unfold exec execLogRecordCommit
  rw [h]
  rfl

theorem exec_logRecordCommit_nil {s : State} (h : s.flt.fifo = []) : exec .logRecordCommit s = .next s := by
  unfold exec execLogRecordCommit
  rw [h]

/-- R384. Without a pad hold ERR_N is driven. -/
theorem State.setErrPin_free {s : State} (b : Bool) (h : s.selv.padHold = false) :
    s.setErrPin b = s.setB FLT_STATUS_ERRPIN b := by
  unfold State.setErrPin
  exact if_neg (by simp [h])

theorem exec_errpinMinwExpire_free {s : State} (h : s.selv.padHold = false) :
    exec .errpinMinwExpire s =
      .next (State.setB { s with flt := { s.flt with minEnd := 0 } } FLT_STATUS_ERRPIN (s.bit FLT_ERRPIN_HOLD_HOLD)) :=
  congrArg Host.Outcome.next (State.setErrPin_free (s := s.updFlt (fun f => { f with minEnd := 0 })) _ h)

/-- R384. HOLD asserts ERR_N, or releases it once no minimum pulse runs. -/
theorem State.writeHold_eq (s : State) (hold : Bool) :
    s.writeHold hold =
      if hold then (s.setB FLT_ERRPIN_HOLD_HOLD true).setErrPin true
      else if s.tick < s.flt.minEnd then s.setB FLT_ERRPIN_HOLD_HOLD false
      else (s.setB FLT_ERRPIN_HOLD_HOLD false).setErrPin false := by
  unfold State.writeHold
  cases hold
  case true => simp only [if_true]
  case false => simp only [Bool.false_eq_true, if_false, State.setB_tick, State.setB_flt]

/-! ### Releases and injection (R385, R387) -/

/-- R385. A keyed release of FLT_SAFEHOLD while no live condition requested a safe state; any other is refused. -/
theorem State.releaseSafe_eq (s : State) (m : Master) (key : BitVec 16) :
    s.releaseSafe m key.toNat =
      if key ≠ 0xF1E0#16 ∨ s.flt.live.any (fun c => bitOf c.react 4 || bitOf c.react 5 || bitOf c.react 6) then s.fltRefuse m
      else (s.wrN FLT_SAFEHOLD 0).setSelvLive 60 false := by
  have hkey : key.toNat ≠ 0xF1E0 ↔ key ≠ 0xF1E0#16 := not_congr (BitVec.toNat_inj (y := 0xF1E0#16))
  unfold State.releaseSafe
  rw [ite_or]
  simp only [hkey]

/-- R385. While no live condition bypasses a cell, every bypass that is named is released. -/
theorem State.releaseCell_free {s : State} (m : Master) (k mask : Nat) (h : s.flt.live.all (fun c => !bitOf c.react 3) = true) :
    s.releaseCell m k mask =
      forL ((bitsIn 32 mask).filter (fun i => s.rbit (FLT_CBYP k) i)) (fun i t => t.setBit (FLT_CBYP k) i false) s := by
  have hheld : ∀ i, s.flt.live.any (fun c => bitOf c.react 3 && c.cell == 32 * k + i) = false := by
    intro i
    refine List.any_eq_false.mpr fun c hc => ?_
    have hreact : bitOf c.react 3 = false := by simpa using List.all_eq_true.mp h c hc
    simp [hreact]
  unfold State.releaseCell
  simp [hheld]

/-- R387. An injection that is locked out or names a reserved source is refused. -/
theorem State.inject_refused {s : State} (m : Master) {w : Nat}
    (h : s.bit FLT_LOCK_INJOFF = true ∨ fltListed (bitsOf w 0 8) = false) : s.inject m w = s.fltRefuse m := by
  unfold State.inject
  refine if_pos ?_
  rcases h with h | h <;> simp [h]

/-- R387. Any other injection is refused for its reactions alone, while control cycles run. -/
theorem State.inject_open {s : State} (m : Master) {w : Nat} (hlock : s.bit FLT_LOCK_INJOFF = false)
    (hlisted : fltListed (bitsOf w 0 8) = true) :
    s.inject m w =
      (let src := bitsOf w 0 8
      let inst := bitsOf w 16 8
      let k := s.classify src
      if s.bit GLB_STATUS_CTRL_RUN && (k.cls == 2 || bitOf k.react 4 || bitOf k.react 5 || bitOf k.react 6 || bitOf k.react 7) then
        s.fltRefuse m
      else
        let t := State.raiseEv { src, inst, detail := 0, inj := true } s
        if fltIsCondition src then
          if bitsOf w 24 8 = 0 then t.fltEnd src inst
          else t.sched (us (10 * bitsOf w 24 8))
            (.injectConditionEnd ⟨src % 256, Nat.mod_lt _ (by decide)⟩ ⟨inst % 256, Nat.mod_lt _ (by decide)⟩)
        else t) := by
  unfold State.inject
  simp only [hlock, hlisted, Bool.not_true, Bool.false_or]

/-- Settles O6: no gate stands before an event, a window, the end of a condition, the log or the end of a pulse, which are the steps
of their names; a write that is taken is the operation of its register (`exec_gate_taken`), by the cases of the lemmas above. -/
theorem faultCommandsComplete : Obligations.FaultCommandsComplete := by
  refine ⟨?event, ?window, ?ends, ?endsNone, ?injectEnds, ?logEmpty, ?logDrains, ?pulseEnd, ?hold, ?safe, ?bypass, ?escalation,
    ?refused, ?inject, ?ecc, ?logClear⟩
  case event => exact fun src inst detail s => congrArg Host.Outcome.next (s.faultArrive_eq src.val inst.val detail.toNat)
  case window => exact fun _ _ => rfl
  case ends | injectEnds => exact fun _ _ _ => rfl
  case endsNone => exact fun src inst s hlive hsrc ht => congrArg _ ((if_neg hsrc).trans (State.fltEnd_none hlive ht))
  case logEmpty => exact fun s h => exec_logRecordCommit_nil h
  case logDrains => exact fun s r rest h => exec_logRecordCommit_cons h
  case pulseEnd => exact fun s h => exec_errpinMinwExpire_free h
  case hold => exact fun m hold s h => exec_gate_taken rfl h (s.writeHold_eq hold)
  case safe => exact fun m key s h => exec_gate_taken rfl h (s.releaseSafe_eq m key)
  case bypass => exact fun m k mask s h hfree => exec_gate_taken rfl h (State.releaseCell_free m k.val mask.toNat hfree)
  case escalation => exact fun m k mask s h => exec_gate_taken rfl h rfl
  case refused => exact fun m w s h hno => exec_gate_taken rfl h (State.inject_refused m hno)
  case inject => exact fun m w s h hlock hlisted => exec_gate_taken rfl h (State.inject_open m hlock hlisted)
  case ecc | logClear => exact fun m w s h => exec_gate_taken rfl h rfl

end Sys2Proof.Machine
end

