-- ==== Sys2Proof/Proofs/PairedOperation.lean ====
section
/-!
PROOFS. The statements about paired operation (spec/13_paired_operation.md): what a standby unit suppresses (R416), and what the frames
of the Shuttle, the writes of RDN_CTRL and the timers of the redundancy sequencer answer.
-/

namespace Sys2Proof.Machine

/-! ### The actions of a standby unit (R416) -/

/-- R416. A probe asks for the role before the enable of probes. -/
theorem State.ageProbe_standby {s : State} (target params : Nat) (h : s.standby = true) : s.ageProbe target params = s := by
  unfold State.ageProbe
  exact if_pos (by simp [h])

/-- Settles O52: each of the actions asks for the role first. -/
theorem standbyActions : Obligations.StandbyActions := by
  intro s h
  refine ⟨?taskWake, ?snapshot, ?probe, ?rotate, ?commit, ?gpioSet, ?gpioClr, ?handover⟩
  case taskWake | snapshot => exact fun _ _ => congrArg Host.Outcome.next (if_pos h)
  case probe => exact fun c p => congrArg Host.Outcome.next (State.ageProbe_standby c.toNat p.toNat h)
  case rotate | commit | gpioSet | gpioClr => exact fun _ => congrArg Host.Outcome.next (if_pos h)
  case handover => exact congrArg Host.Outcome.next (if_pos h)

/-! ### The commands of the redundancy sequencer (R400–R430) -/

/-- Settles O19: a write that is taken is the write of RDN_CTRL with its bit changed (`exec_gate_taken`); no gate stands before a
frame of the Shuttle, a timer, an action or a tile, which are the steps of their names. -/
theorem redundancyCommandsComplete : Obligations.RedundancyCommandsComplete := by
  refine ⟨?heartbeat, ?segment, ?tunnel, ?delayReq, ?delayPeriod, ?enable, ?disable, ?claimgo, ?horeq, ?hoabort, ?outcome, ?reclaim,
    ?point, ?revert, ?armTimeout, ?claim, ?handoff, ?ctlock, ?snapshot, ?txSlot, ?tile, ?health⟩
  case heartbeat => exact fun _ _ _ _ => rfl
  case segment | tunnel | tile => exact fun _ _ => rfl
  case delayReq => exact fun _ _ _ => rfl
  case enable | disable | claimgo | horeq | hoabort => exact fun m s h => exec_gate_taken rfl h rfl
  case delayPeriod | outcome | reclaim | point | revert | armTimeout | claim | handoff | ctlock | snapshot | txSlot | health =>
    exact fun _ => rfl

end Sys2Proof.Machine
end

