-- ==== Sys2Proof/Proofs/ThermalAndAgeing.lean ====
section
/-!
PROOFS. The statements about thermal control and ageing (spec/14_thermal_and_ageing.md): what their samples, timers and writes answer.
-/

namespace Sys2Proof.Machine

/-! ### The commands of THM and AGE (R435–R458) -/

/-- Settles O21: a write that is taken is the operation of its register (`exec_gate_taken`); no gate stands before a sample, a
comparator, a timer or a reading of the path monitors, which are the steps of their names. -/
theorem thermalAgeingCommandsComplete : Obligations.ThermalAgeingCommandsComplete := by
  refine ⟨?dieSample, ?diode, ?throttle, ?nstep, ?ack, ?headroom, ?dieTrip, ?probeTimeout, ?life, ?save, ?report, ?cellReset,
    ?paths⟩
  case dieSample | probeTimeout => exact fun _ _ => rfl
  case diode => exact fun _ _ _ _ => rfl
  case nstep | cellReset => exact fun m w s h => exec_gate_taken rfl h rfl
  case ack => exact fun m s h => exec_gate_taken rfl h rfl
  case throttle | headroom | dieTrip | life | save | report => exact fun _ => rfl
  case paths => exact fun slacks s => congrArg Host.Outcome.next (by
    unfold State.pathRead
    cases slacks <;> rfl)

end Sys2Proof.Machine
end

