-- ==== Sys2Proof/Proofs/Memory.lean ====
section
/-!
PROOFS. The statements about memory (spec/15_memory.md): the line that the write port brings to the MRAM (R474, R478), the bank that a
wipe clears (R479, R480), and what host accesses, ownership, power, scrubbing and ECC answer.
-/

namespace Sys2Proof.Machine

/-! ### A line of the MRAM write port (R474, R475, R478) -/

/-- R474. The state in which the line `l` at `a` has been written and the port is free. -/
def State.lineDone (s : State) (a : Nat) (l : List Byte) : State :=
  (((s.setMemBytes (0x50000000 + a) l).setB NVM_STATUS_WBUSY false).incr NVM_WRLINES).updNvm (fun _ => {})

/-- R474. MRAM_LINE_WRITTEN ends the line that has begun to be written. -/
theorem exec_mramLineWritten_started {s : State} {a : Nat} {l : List Byte} (hp : s.nvm.port = some (a, l))
    (hs : s.nvm.started = true) : exec .mramLineWritten s = .next (s.lineDone a l) := by
  show execMramLineWritten s = _
  unfold execMramLineWritten
  simp only [hp, hs, if_true]
  rfl

/-- R474. Memory after the line is memory after a store of its bytes. -/
theorem State.memB_lineDone (s : State) (a : Nat) (l : List Byte) (x : Nat) :
    (s.lineDone a l).memB x = (s.setMemBytes (0x50000000 + a) l).memB x := by
  refine State.memB_congr ?_ x
  unfold State.lineDone
  rw [State.updNvm_mem, State.incr_mem, State.setB_mem]

/-- R474. The register file after the line is that of the store with WBUSY cleared and the count of lines one more. -/
theorem State.rd_lineDone (s : State) (a : Nat) (l : List Byte) (r : Nat) :
    (s.lineDone a l).rd r = (((s.setMemBytes (0x50000000 + a) l).setB NVM_STATUS_WBUSY false).incr NVM_WRLINES).rd r :=
  State.rd_congr (State.updNvm_regs _ _) r

/-- R478. WBUSY reads 0 after the line. -/
theorem State.wbusy_lineDone (s : State) (a : Nat) (l : List Byte) : (s.lineDone a l).bit NVM_STATUS_WBUSY = false := by
  rw [State.bit_congr_rd _ (s.rd_lineDone a l _), State.bit_incr_ne _ _ (by decide)]
  exact State.bit_setB_self _ _ false rfl (by decide)

/-- A register that is counted by one reads one more, modulo 2^32. -/
theorem State.rdN_incr_self (s : State) (a : Nat) : (s.incr a).rdN a = (s.rdN a + 1) % 2 ^ 32 := s.rdN_wrN_self a _

/-- R475. The line is counted. -/
theorem State.lines_lineDone (s : State) (a : Nat) (l : List Byte) :
    (s.lineDone a l).rdN NVM_WRLINES = (s.rdN NVM_WRLINES + 1) % 2 ^ 32 := by
  have hline := congrArg BitVec.toNat (s.rd_lineDone a l NVM_WRLINES)
  have hbefore : ((s.setMemBytes (0x50000000 + a) l).setB NVM_STATUS_WBUSY false).rdN NVM_WRLINES = s.rdN NVM_WRLINES := by
    unfold State.rdN
    rw [State.rd_setB_ne _ _ _ (by decide), State.rd_setMemBytes _ _ _ (by decide)]
  exact hline.trans ((State.rdN_incr_self _ _).trans (by rw [hbefore]))

/-- R474. The line acts on no other register. -/
theorem State.lineDone_regs (s : State) (a : Nat) (l : List Byte) :
    sameRegsBut [NVM_STATUS, NVM_WRLINES, FLT_ECCINJ] s (s.lineDone a l) := by
  intro r hr
  simp only [List.mem_cons, List.not_mem_nil, or_false, not_or] at hr
  obtain ⟨hstatus, hlines, hinj⟩ := hr
  rw [State.rd_lineDone, State.rd_incr_ne _ _ hlines, State.rd_setB_ne _ _ _ hstatus, State.rd_setMemBytes _ _ _ hinj]

/-- Settles O42: the line is a store of its bytes (`State.memB_setMemBytes`) with WBUSY cleared and the line counted. -/
theorem mramLineReachesMemory : Obligations.MramLineReachesMemory := by
  intro s a l hp hs
  refine ⟨s.lineDone a l, exec_mramLineWritten_started hp hs, fun i hi => ?bytes, fun x hx => ?others, s.wbusy_lineDone a l,
    s.lines_lineDone a l, rfl, s.lineDone_regs a l⟩
  case bytes => rw [State.memB_lineDone, State.memB_setMemBytes, if_pos (by omega), Nat.add_sub_cancel_left]
  case others => rw [State.memB_lineDone, State.memB_setMemBytes, if_neg (by omega)]

/-! ### The end of a wipe (R479, R480) -/

/-- A key whose entries a filter of keys keeps reads as before, any other as unlisted. -/
theorem Sparse.get_filter_key {α : Type} (d : Nat → α) (p : Nat → Bool) (l : List (Nat × α)) (a : Nat) :
    Sparse.get d (l.filter (fun e => p e.1)) a = if p a then Sparse.get d l a else d a := by
  induction l with
  | nil => exact (ite_self _).symm
  | cons e t ih =>
    obtain ⟨k, v⟩ := e
    cases hp : p k with
    | true =>
      rw [List.filter_cons_of_pos (by exact hp)]
      by_cases hk : k = a
      · simp [Sparse.get, hk, hk ▸ hp]
      · simp [Sparse.get, hk, ih]
    | false =>
      rw [List.filter_cons_of_neg (by simp [hp]), ih]
      by_cases hk : k = a
      · simp [hk ▸ hp]
      · simp [Sparse.get, hk]

/-- A range that is cleared reads 0, every other byte as before. -/
theorem State.memB_clearRange (s : State) (a n x : Nat) :
    (s.clearRange a n).memB x = if x < a ∨ a + n ≤ x then s.memB x else 0#8 := by
  have hget := Sparse.get_filter_key memReset (fun k => decide (k < a) || decide (a + n ≤ k)) s.mem x
  simp only [Bool.or_eq_true, decide_eq_true_eq] at hget
  exact hget

/-- R480. The state in which the secure bank is cleared and Thimble's restart begins. -/
def State.wiped (s : State) : State :=
  ((s.clearRange 0x70000000 0x10000).setB SEC_STATUS_WIPING false).setB SEC_STATUS_RESTART true

theorem State.memB_wiped (s : State) (x : Nat) : s.wiped.memB x = (s.clearRange 0x70000000 0x10000).memB x := by
  refine State.memB_congr ?_ x
  unfold State.wiped
  rw [State.setB_mem, State.setB_mem]

/-- R480. The end of a wipe acts on SEC_STATUS alone. -/
theorem State.wiped_regs (s : State) : sameRegsBut [SEC_STATUS] s s.wiped := by
  intro r hr
  have hr' : r ≠ SEC_STATUS := fun h => hr (h ▸ .head _)
  unfold State.wiped
  rw [State.rd_setB_ne _ _ _ hr', State.rd_setB_ne _ _ _ hr']
  rfl

theorem State.wiping_wiped (s : State) : s.wiped.bit SEC_STATUS_WIPING = false := by
  unfold State.wiped
  rw [State.bit_setB_other _ SEC_STATUS_RESTART SEC_STATUS_WIPING _ rfl (by decide) (by decide)]
  exact State.bit_setB_self _ _ _ rfl (by decide)

theorem State.restart_wiped (s : State) : s.wiped.bit SEC_STATUS_RESTART = true :=
  State.bit_setB_self _ _ _ rfl (by decide)

/-- Settles O43: a wipe that goes on ends in `State.wiped`, whose memory is that of `State.memB_clearRange`. -/
theorem wipeClearsVault : Obligations.WipeClearsVault := by
  refine fun s => ⟨fun h => ⟨s.wiped, congrArg Host.Outcome.next (if_pos h), fun i hi => ?cleared, fun x hx => ?others,
    s.wiping_wiped, s.restart_wiped, s.wiped_regs⟩, fun h => congrArg Host.Outcome.next (if_neg (by simp [h]))⟩
  case cleared => rw [State.memB_wiped, State.memB_clearRange, if_neg (by omega)]
  case others => rw [State.memB_wiped, State.memB_clearRange, if_pos hx]

/-! ### The commands of the banks and of the host's memory accesses (R461–R470, R491, R502) -/

/-- R502. A memory command that cannot start waits for no bank. -/
theorem State.memCmdWait_unready {s : State} {ring : Nat} {d : Desc} (a : Nat) (write : Bool) (h : s.cmdReady ring d = false) :
    s.memCmdWait ring d a write = none := by
  unfold State.memCmdWait
  exact if_neg (by simp [h])

/-- R502. MEM_READ that waits for no bank is a command that runs to completion. -/
theorem exec_memRead_served {ring : Fin 8} {d : Desc} {addr : Word} {s : State}
    (h : s.memCmdWait ring.val d addr.toNat false = none) :
    exec (.memRead ring d addr) s =
      .next (s.runCmd ring.val d (.memRead ring d addr) (fun s => s.memRead d addr.toNat)) := by
  show execMemRead ring d addr s = _
  unfold execMemRead
  rw [h]

/-- R502. MEM_WRITE that waits for no bank is a command that runs to completion. -/
theorem exec_memWrite_served {ring : Fin 8} {d : Desc} {addr : Word} {data : List Byte} {s : State}
    (h : s.memCmdWait ring.val d addr.toNat true = none) :
    exec (.memWrite ring d addr data) s =
      .next (s.runCmd ring.val d (.memWrite ring d addr data) (fun s => s.memWrite d addr.toNat data)) := by
  show execMemWrite ring d addr data s = _
  unfold execMemWrite
  rw [h]

/-- Settles O27: MEM_READ and MEM_WRITE that wait for no bank run to completion once they can start (`State.runCmd_ready`); a write that
is taken is the operation of its register (`exec_gate_taken`); no gate stands before the accesses through BAR4 and the device's
own steps. -/
theorem memoryCommandsComplete : Obligations.MemoryCommandsComplete := by
  refine ⟨?bar4Read, ?bar4Write, ?read, ?readWaits, ?write, ?writeWaits, ?owner, ?drainEnd, ?power, ?powerDone, ?scrub,
    ?writeback, ?starve⟩
  case bar4Read | bar4Write => exact fun _ _ _ => rfl
  case read =>
    exact fun ring d addr s hw h => (exec_memRead_served hw).trans (congrArg _ (State.runCmd_ready _ _ h))
  case readWaits =>
    exact fun ring d addr s h =>
      (exec_memRead_served (State.memCmdWait_unready _ _ h)).trans (congrArg _ (State.runCmd_waits _ _ h))
  case write =>
    exact fun ring d addr data s hw h => (exec_memWrite_served hw).trans (congrArg _ (State.runCmd_ready _ _ h))
  case writeWaits =>
    exact fun ring d addr data s h =>
      (exec_memWrite_served (State.memCmdWait_unready _ _ h)).trans (congrArg _ (State.runCmd_waits _ _ h))
  case owner | power => exact fun m n w s h => exec_gate_taken rfl h rfl
  case drainEnd | powerDone => exact fun _ _ => rfl
  case scrub | writeback | starve => exact fun _ => rfl

end Sys2Proof.Machine
end

