-- ==== Sys2Proof/Proofs/HostInterface.lean ====
section
/-!
PROOFS. The statements about the host interface (spec/16_host_interface.md): host writes while a long operation runs (R509), messages of
masked vectors (R492), doorbells (R494), and what rings, commands, mailboxes and the link answer.
-/

namespace Sys2Proof.Machine

/-! ### Host writes while a long operation runs (R39, R509) -/

/-- R509. Behind the gate that ROM loader mode opens a host write is refused alike. -/
theorem State.loaderGate_busy {s : State} (op : State → State) (h : s.bit GLB_STATUS_BUSY = true) :
    s.loaderGate .host op = s.count GLB_REJECT := by
  unfold State.loaderGate State.loaderWriteOk State.hostWriteOk
  simp [h]

/-- R509. So is a host write at any address. -/
theorem State.writeGate_busy {s : State} (a : Nat) (op : State → State) (h : s.bit GLB_STATUS_BUSY = true) :
    s.writeGate .host a op = s.count GLB_REJECT := by
  unfold State.writeGate
  split
  · exact State.loaderGate_busy op h
  · exact State.gate_busy op h

/-- R509. A BAR4 write to what BAR4 opens is refused alike. -/
theorem State.bar4Write_busy {s : State} {off : Nat} {data : List Byte} (c : Instr) (ho : s.bar4Open off data.length = true)
    (h : s.bit GLB_STATUS_BUSY = true) : s.bar4Write off data c = s.count GLB_REJECT := by
  unfold State.bar4Write
  rw [ho, h]
  rfl

/-- R509, R518. So is a doorbell after READY. -/
theorem exec_ringDoorbell_busy {s : State} (ring : Fin 32) (v : Word) (slots : List Slot) (hr : s.bit GLB_STATUS_READY = true)
    (h : s.bit GLB_STATUS_BUSY = true) : exec (.ringDoorbell ring v slots) s = .next (s.count GLB_REJECT) := by
  show execRingDoorbell ring v slots s = _
  unfold execRingDoorbell
  rw [hr, h]
  rfl

/-- Settles O34: behind each of the three gates a host write is refused, and so are a doorbell and a BAR4 write. -/
theorem busyRefusesHostWrites : Obligations.BusyRefusesHostWrites := by
  intro s hb
  have write {c : Instr} {op : State → State} (hc : exec c s = .next (s.gate .host op)) : exec c s = .next (s.count GLB_REJECT) :=
    hc.trans (congrArg _ (State.gate_busy op hb))
  have long {c : Instr} {op : State → State} (hc : exec c s = .next (s.loaderGate .host op)) :
      exec c s = .next (s.count GLB_REJECT) := hc.trans (congrArg _ (State.loaderGate_busy op hb))
  refine ⟨?errpinHoldWrite, ?fltReleaseSafe, ?cellBypassRelease, ?escalationClear, ?faultInject, ?eccInjectArm, ?logClear,
    ?pwmLegEnable, ?pwmLegDisable, ?pwmGstart, ?pwmCtrlCommit, ?selvForce, ?selvClr, ?h0Enable, ?h0Disable, ?h0DcSet, ?h0DcClear,
    ?h0nomWrite, ?primaryReturn, ?h1AngleWrite, ?prkEnable, ?prkDisable, ?prkEditRead, ?prkEditWrite, ?prkEditInsert,
    ?prkEditDelete, ?prkEditClear, ?prkEditCommit, ?prkSwapRequest, ?ntmIncWrite, ?ntmAdjStep, ?ntmAdjSlew, ?ntmSet, ?ntmCmdFree,
    ?ntmCmdAcquire, ?ntmCmdLock, ?ntmCmdHold, ?ntmMasteridWrite, ?bobWakeWrite, ?slotEnable, ?slotDisable, ?engineEnable,
    ?engineDisable, ?bobWdkick, ?stitchPhaseEnable, ?stitchPhaseDisable, ?enumAssign, ?enumFill, ?fltReleaseTripclr, ?rdnEnable,
    ?rdnDisable, ?rdnClaimgo, ?rdnHoreq, ?rdnHoabort, ?runSet, ?runClear, ?thmNstepWrite, ?thmAck, ?ageCellReset, ?laneEnable,
    ?laneDisable, ?laneRetrain, ?lanePrbsEnable, ?lanePrbsDisable, ?prbsErrinj, ?eyeScanStart, ?sarEnable, ?adcSeqswGo,
    ?adcUrgentRequest, ?refSelect, ?adcInject, ?fastStreamStart, ?fastStreamStop, ?phuEnable, ?sarDisable, ?twLocate,
    ?memOwnerWrite, ?bankPowerRequest, ?ringEnable, ?ringDisable, ?mailboxPop, ?mailboxPost, ?nvmWriteGo, ?mramImageCommit,
    ?lifecycleAdvance, ?fuseProgram, ?onDemandBist, ?secureWipe, ?warmReset, ?bootConfirm, ?bootSelect, ?shutdownStart,
    ?quietEnter, ?quietWakeCmd, fun a _ _ => congrArg _ (State.writeGate_busy a.toNat _ hb),
    fun ring v slots hr => exec_ringDoorbell_busy ring v slots hr hb, fun _ _ ho => congrArg _ (State.bar4Write_busy _ ho hb)⟩
  case errpinHoldWrite | fltReleaseSafe | faultInject | eccInjectArm | logClear | pwmLegEnable | pwmLegDisable | pwmGstart |
    pwmCtrlCommit | selvForce | selvClr | h0nomWrite | h1AngleWrite | prkEditRead | prkEditWrite | prkEditInsert |
    prkEditDelete | prkEditClear | prkEditCommit | prkSwapRequest | ntmIncWrite | ntmAdjStep | ntmAdjSlew | engineEnable |
    engineDisable | bobWdkick | stitchPhaseEnable | stitchPhaseDisable | enumAssign | enumFill | fltReleaseTripclr |
    thmNstepWrite | ageCellReset | laneEnable | laneDisable | laneRetrain | lanePrbsEnable | lanePrbsDisable | prbsErrinj |
    eyeScanStart | sarEnable | adcSeqswGo | adcInject | fastStreamStart | sarDisable | ringEnable | ringDisable | mailboxPop |
    mailboxPost | bootSelect => exact fun _ => write rfl
  case cellBypassRelease | escalationClear | ntmMasteridWrite | bobWakeWrite | slotEnable | slotDisable | adcUrgentRequest |
    refSelect | memOwnerWrite | bankPowerRequest => exact fun _ _ => write rfl
  case h0Enable | h0Disable | h0DcSet | h0DcClear | primaryReturn | prkEnable | prkDisable | ntmSet | ntmCmdFree |
    ntmCmdAcquire | ntmCmdLock | ntmCmdHold | rdnEnable | rdnDisable | rdnClaimgo | rdnHoreq | rdnHoabort | runSet | runClear |
    thmAck | fastStreamStop | phuEnable | twLocate | nvmWriteGo | bootConfirm | shutdownStart | quietEnter | quietWakeCmd =>
    exact write rfl
  case mramImageCommit | lifecycleAdvance | fuseProgram | onDemandBist | secureWipe => exact long rfl
  case warmReset => exact fun _ => long rfl

/-! ### Messages of masked vectors (R492) -/

/-- R492. With MSI-X disabled no message is sent or pends. -/
theorem State.msix_disabled {s : State} (vec : Nat) (h : s.bit HIF_STATUS_MSIXEN = false) : s.msix vec = s := by
  unfold State.msix
  exact if_neg (by simp [h])

/-- R492. The message of an unmasked vector leaves the device. -/
theorem State.msix_unmasked {s : State} {vec : Nat} (h : s.bit HIF_STATUS_MSIXEN = true)
    (hu : s.hif.msixUnmasked.getLsbD vec = true) : s.msix vec = s.emit (.msix vec) := by
  unfold State.msix
  rw [if_pos h, if_pos hu]

/-- R492. The message of a masked vector pends. -/
theorem State.msix_masked {s : State} {vec : Nat} (h : s.bit HIF_STATUS_MSIXEN = true)
    (hu : s.hif.msixUnmasked.getLsbD vec = false) :
    s.msix vec = s.updHif (fun h => { h with msixPend := h.msixPend ||| BitVec.twoPow 64 vec }) := by
  unfold State.msix
  rw [if_pos h, if_neg (by simp [hu])]

/-- R492. The message of a vector that pends and is unmasked is sent, and pends no more. -/
theorem State.msixTake_sends {s : State} {vec : Nat} (h : s.bit HIF_STATUS_MSIXEN = true)
    (hp : s.hif.msixPend.getLsbD vec = true) (hu : s.hif.msixUnmasked.getLsbD vec = true) :
    s.msixTake vec =
      (s.updHif (fun h => { h with msixPend := h.msixPend &&& ~~~ BitVec.twoPow 64 vec })).emit (.msix vec) := by
  unfold State.msixTake
  rw [h, hp, hu]
  exact State.msix_unmasked ((State.bit_congr rfl _).trans h) hu

/-- R492. The state in which the table entry of a vector has been written with its mask open. -/
def State.msixOpened (s : State) (vec : Nat) (addr : BitVec 64) (data : Word) : State :=
  s.updHif (fun h => { h with
    msixTab := tput (0#64, 0#32) h.msixTab vec (addr, data)
    msixUnmasked := h.msixUnmasked ||| BitVec.twoPow 64 vec })

/-- R492. Unmasking a vector sends its message if it pends. -/
theorem exec_msixUnmask_open (v : Fin 64) (addr : BitVec 64) (data : Word) (s : State) :
    exec (.msixUnmask v false addr data) s = .next ((s.msixOpened v.val addr data).msixTake v.val) := rfl

theorem State.unmasked_msixOpened (s : State) (v : Fin 64) (addr : BitVec 64) (data : Word) :
    (s.msixOpened v.val addr data).hif.msixUnmasked.getLsbD v.val = true := by
  show (s.hif.msixUnmasked ||| BitVec.twoPow 64 v.val).getLsbD v.val = true
  simp

/-- R492. Unmasking a vector that pends sends its message and ends its pending. -/
theorem exec_msixUnmask_pending {s : State} {v : Fin 64} (addr : BitVec 64) (data : Word) (h : s.bit HIF_STATUS_MSIXEN = true)
    (hp : s.hif.msixPend.getLsbD v.val = true) :
    ∃ t, exec (.msixUnmask v false addr data) s = .next t ∧ t.out = .msix v.val :: s.out ∧
      t.hif.msixPend.getLsbD v.val = false ∧ t.regs = s.regs ∧ t.mem = s.mem := by
  have hen : (s.msixOpened v.val addr data).bit HIF_STATUS_MSIXEN = true := (State.bit_congr rfl _).trans h
  have hsent := State.msixTake_sends hen hp (s.unmasked_msixOpened v addr data)
  refine ⟨_, (exec_msixUnmask_open v addr data s).trans (congrArg _ hsent), rfl, ?_, rfl, rfl⟩
  show (s.hif.msixPend &&& ~~~ BitVec.twoPow 64 v.val).getLsbD v.val = false
  simp

/-- Settles O47: the three cases of a message are `msix_disabled`, `msix_unmasked` and `msix_masked`; after the last the vector
pends, and unmasking it sends the message (`exec_msixUnmask_pending`). -/
theorem maskedVectorPends : Obligations.MaskedVectorPends := by
  refine fun s v addr data => ⟨fun h => State.msix_disabled _ h, fun h hu => State.msix_unmasked h hu, fun h hu => ?_⟩
  have hpend : ∀ i, i < 64 → (s.msix v.val).hif.msixPend.getLsbD i = (s.hif.msixPend.getLsbD i || i == v.val) := by
    intro i hi
    rw [State.msix_masked h hu]
    show (s.hif.msixPend ||| BitVec.twoPow 64 v.val).getLsbD i = _
    simp [hi, Bool.beq_eq_decide_eq]
  have hen : (s.msix v.val).bit HIF_STATUS_MSIXEN = true := (State.bit_congr (s.msix_regs _) _).trans h
  obtain ⟨t, ht, hout, hclear, hregs, hmem⟩ := exec_msixUnmask_pending addr data hen (by rw [hpend v.val v.isLt]; simp)
  have hkept : (s.msix v.val).out = s.out := by rw [State.msix_masked h hu]; rfl
  exact ⟨hkept, s.msix_regs _, s.msix_mem _, hpend, t, ht, hkept ▸ hout, hclear, hregs.trans (s.msix_regs _),
    hmem.trans (s.msix_mem _)⟩

/-! ### Doorbells (R490, R494) -/

/-- R493. The slots of a command ring are no entries of the device. -/
theorem State.ringIsEntry_command (s : State) {r : Nat} (h : r < 8) : s.ringIsEntry r = false := by
  unfold State.ringIsEntry
  rw [decide_eq_false (show ¬ 8 ≤ r by omega), decide_eq_false (show ¬ 28 ≤ r by omega)]
  rfl

/-- R494, R497. An accepted doorbell of a command ring moves HOST, and hands slots over to the state of the ring. -/
theorem State.doorbell_command {s : State} {r v : Nat} (slots : List Slot) (h : r < 8) (hok : s.doorbellOk r v = true) :
    ∃ f, s.doorbell r v slots = (s.setF (HIF_RIDX_HOST r) v).updHif f := by
  unfold State.doorbell State.mailWake
  rw [if_pos hok]
  simp only [State.ringIsEntry_command _ h, show ¬ (8 ≤ r ∧ r ≤ 15) by omega, show ¬ 28 ≤ r by omega, false_and,
    Bool.false_eq_true, if_false]
  exact ⟨_, rfl⟩

/-- R490, R494. A value that a ring accepts is below 65536. -/
theorem State.doorbellOk_lt {s : State} {r v : Nat} (h : s.doorbellOk r v = true) : v < 65536 := by
  unfold State.doorbellOk at h
  simp only [Bool.and_eq_true, decide_eq_true_eq] at h
  obtain ⟨⟨⟨-, hv⟩, -⟩, -⟩ := h
  exact hv

/-- R494. HOST has 16 bits, and DEV is beside it. -/
theorem State.ringHost_setHost (s : State) (r : Nat) {v : Nat} (hv : v < 65536) :
    (s.setF (HIF_RIDX_HOST r) v).ringHost r = v :=
  (State.fld_setF_self s (HIF_RIDX_HOST r) v (by show 16 + 16 ≤ 32; omega)).trans (Nat.mod_eq_of_lt hv)

theorem State.ringDev_setHost (s : State) (r v : Nat) : (s.setF (HIF_RIDX_HOST r) v).ringDev r = s.ringDev r :=
  State.fld_setF_other s (HIF_RIDX_HOST r) (HIF_RIDX_DEV r) v rfl (by show 0 + 16 ≤ 32; omega)
    (.inr (by show 0 + 16 ≤ 16; omega))

/-- R494. After READY and without a long operation RING_DOORBELL is a doorbell of its ring. -/
theorem exec_ringDoorbell_open {s : State} (ring : Fin 32) (v : Word) (slots : List Slot) (hr : s.bit GLB_STATUS_READY = true)
    (h : s.bit GLB_STATUS_BUSY = false) :
    exec (.ringDoorbell ring v slots) s = .next (s.doorbell ring.val v.toNat slots) := by
  show execRingDoorbell ring v slots s = _
  unfold execRingDoorbell
  rw [hr, h]
  rfl

/-- Settles O51: the doorbell that a command ring accepts is a write of HOST (`State.doorbell_command`), with the laws of
that field. -/
theorem doorbellMovesHostIndex : Obligations.DoorbellMovesHostIndex := by
  intro s ring v slots hr hb hring
  have hexec := exec_ringDoorbell_open ring v slots hr hb
  refine ⟨fun hok => ?accepted, fun hno => ?refused⟩
  case accepted =>
    obtain ⟨f, ht⟩ := State.doorbell_command slots hring hok
    rw [ht] at hexec
    have hregs : ((s.setF (HIF_RIDX_HOST ring.val) v.toNat).updHif f).regs = (s.setF (HIF_RIDX_HOST ring.val) v.toNat).regs :=
      State.updHif_regs _ _
    exact ⟨_, hexec, (State.fld_congr hregs _).trans (s.ringHost_setHost ring.val (State.doorbellOk_lt hok)),
      (State.fld_congr hregs _).trans (s.ringDev_setHost ring.val v.toNat),
      fun a ha => (State.rd_congr hregs a).trans (State.rd_setF_ne s _ _ (fun e => ha (e ▸ .head _))),
      State.setF_mem s (HIF_RIDX_HOST ring.val) v.toNat, State.setF_agenda s (HIF_RIDX_HOST ring.val) v.toNat,
      State.setF_out s (HIF_RIDX_HOST ring.val) v.toNat⟩
  case refused =>
    rw [hexec]
    exact congrArg Host.Outcome.next (if_neg (by simp [hno]))

/-! ### The commands of rings, mailboxes and the link (R489–R514) -/

/-- R500, R502. NOP, when it can start, completes with status 0, or 0x10 for an operation that the table does not list. -/
theorem exec_nop_ready {s : State} {ring : Fin 8} {d : Desc} (h : s.cmdReady ring.val d = true) :
    exec (.nop ring d) s = .next ((s.cmdFetch ring.val).finish ⟨ring.val, d.tag.toNat, d.opc.toNat, s.ringDev ring.val,
      if opcListed d.opc.toNat then 0x00 else 0x10, 0⟩) := by
  refine congrArg Host.Outcome.next ((State.runCmd_ready _ _ h).trans ?_)
  cases opcListed d.opc.toNat <;> rfl

/-- Settles O28: a write that is taken is the operation of its register (`exec_gate_taken`); NOP runs to completion once it can start
(`exec_nop_ready`); no gate stands before a doorbell, a buffer of the host, the device's own steps and the link. -/
theorem ringCommandsComplete : Obligations.RingCommandsComplete := by
  refine ⟨?enable, ?disable, ?stopDone, ?dmaError, ?doorbell, ?complete, fun ring d s h => exec_nop_ready h,
    fun ring d s h => congrArg _ (State.runCmd_waits _ _ h), ?holdoffEnd, ?unmask, ?fetch, ?pop, ?post, ?linkDown, ?linkUp, ?config⟩
  case enable | disable => exact fun m ring s h => exec_gate_taken rfl h rfl
  case pop | post => exact fun m k s h => exec_gate_taken rfl h rfl
  case linkDown => exact fun _ => rfl
  case stopDone | complete | holdoffEnd => exact fun _ _ => rfl
  case fetch | linkUp => exact fun _ _ _ => rfl
  case doorbell | config => exact fun _ _ _ _ => rfl
  case dmaError | unmask => exact fun _ _ _ _ _ => rfl

/-! ### The Pricking commands of a ring (R501–R503) -/

/-- R501. What a Pricking command does once it starts: it holds the edit port, or completes at once with a bad parameter. -/
def State.prkCmdStart (s : State) (ring : Nat) (d : Desc) (op : State → Option (State × Nat × Nat × Nat)) : State :=
  match op (s.cmdFetch ring) with
  | none => (s.cmdFetch ring).finish ⟨ring, d.tag.toNat, d.opc.toNat, s.ringDev ring, 0x11, 0⟩
  | some r =>
    (r.1.updHif (fun h => { h with portCmd := some ⟨ring, d.tag.toNat, d.opc.toNat, s.ringDev ring, r.2.1, r.2.2.1⟩ })).portHold
      r.2.1 none none r.2.2.2

/-- R501. With operands that are good it runs and holds the edit port. -/
theorem State.prkCmdStart_some {s : State} {ring : Nat} {d : Desc} {op : State → Option (State × Nat × Nat × Nat)}
    {t : State} {status result ticks : Nat} (h : op (s.cmdFetch ring) = some (t, status, result, ticks)) :
    s.prkCmdStart ring d op =
      (t.updHif (fun h => { h with portCmd := some ⟨ring, d.tag.toNat, d.opc.toNat, s.ringDev ring, status, result⟩ })).portHold
        status none none ticks := by
  unfold State.prkCmdStart
  rw [h]

/-- R501. A Pricking command that can start and finds the edit port free starts. -/
theorem State.prkCmd_ready {s : State} {ring : Nat} {d : Desc} (c : Instr) (op : State → Option (State × Nat × Nat × Nat))
    (hb : s.bit PRK_EDSTAT_BUSY = false) (h : s.cmdReady ring d = true) : s.prkCmd ring d c op = s.prkCmdStart ring d op := by
  unfold State.prkCmd
  rw [h, hb]
  rfl

/-- R501. A Pricking command that cannot start waits in its ring. -/
theorem State.prkCmd_waits {s : State} {ring : Nat} {d : Desc} (c : Instr) (op : State → Option (State × Nat × Nat × Nat))
    (h : s.cmdReady ring d = false) : s.prkCmd ring d c op = s.cmdLater ring c := by
  unfold State.prkCmd
  rw [h]
  rfl

/-- Settles O29: each command but PRK_SWAP, whose meaning the statement gives in full, starts as `State.prkCmd_ready` says or waits
as `State.prkCmd_waits` says. -/
theorem prickingRingCommandsComplete : Obligations.PrickingRingCommandsComplete := by
  refine ⟨?read, ?readWaits, ?write, ?writeWaits, ?insert, ?insertWaits, ?delete, ?deleteWaits, ?clear, ?clearWaits, ?commit,
    ?commitWaits, fun _ _ _ _ => rfl⟩
  case read | write | delete => exact fun ring d page idx x s hb h => congrArg _ (State.prkCmd_ready _ _ hb h)
  case insert => exact fun ring d page entries s hb h => congrArg _ (State.prkCmd_ready _ _ hb h)
  case clear | commit =>
    exact fun ring d page s hb h =>
      congrArg Host.Outcome.next ((State.prkCmd_ready _ _ hb h).trans (State.prkCmdStart_some rfl))
  case readWaits | writeWaits | deleteWaits => exact fun ring d page idx x s h => congrArg _ (State.prkCmd_waits _ _ h)
  case insertWaits => exact fun ring d page entries s h => congrArg _ (State.prkCmd_waits _ _ h)
  case clearWaits | commitWaits => exact fun ring d page s h => congrArg _ (State.prkCmd_waits _ _ h)

end Sys2Proof.Machine
end

