-- ==== Sys2Proof/Proofs/Step.lean ====
section
/-!
PROOFS. The statements about the step (spec/00_scope.md, spec/01_architecture.md; log entry 1): the front command runs, an empty queue
passes time, and the canonical forms of the register file and of memory hold at reset and are kept by every step.
-/

namespace Sys2Proof.Machine

/-! ### The step -/

/-- A step with a command at the front of the queue runs it with the queue's rest. -/
theorem step_cons (c : Instr) (rest : List Instr) (s : State) :
    step { s with pending := c :: rest } = exec c { s with pending := rest } := rfl

/-- A step on an empty queue passes time. -/
theorem step_nil {s : State} (h : s.pending = []) : step s = .next s.idle := by
  unfold step
  rw [h]

/-- Settles O1: it is `step_cons`. -/
theorem stepRunsFrontCommand : Obligations.StepRunsFrontCommand := step_cons

/-! ### The passing of time (R12, R15; log entry 1) -/

/-- What is due at the tick is delivered before anything else. -/
theorem State.idle_due {s : State} (ha : s.alive = true) (hd : s.deliver.pending ≠ []) : s.idle = s.deliver := by
  unfold State.idle
  exact (if_pos ha).trans (if_pos (by simpa using hd))

/-- A device that does not work only counts ticks. -/
theorem State.idle_dead {s : State} (ha : s.alive = false) : s.idle = { s with tick := s.tick + 1 } := by
  have ha' : State.alive { s with tick := s.tick + 1 } = false := ha
  unfold State.idle State.nextTick
  rw [if_neg (by simp [ha]), if_neg (by simp [ha'])]

/-- With nothing else due the scheduled steps that go now enter the empty queue and leave the agenda. -/
theorem State.deliver_agenda {s : State} (hp : s.pending = []) (hf : s.dueFirst = []) (hz : s.dueZero = [])
    (hk : s.prkDispatch = (s, [])) :
    s.deliver = { s with
      agenda := s.agenda.filter (fun e => decide (s.tick < e.1) || !s.goesNow e.2)
      pending := s.dueSteps } := by
  unfold State.deliver
  rw [hk, hf, hz]
  unfold State.push State.dropDue
  simp only [hp, List.nil_append]

/-- R22, R77. After a zero of H0 the swap is tried and the start of control cycles comes, right after ANGLE_ZERO. -/
theorem State.dueZero_crossed {s : State} (h : s.hoop.h0.crossed = true) :
    s.dueZero = .angleZero :: (s.swapTried ++ s.ctrlStart) := by
  unfold State.dueZero
  rw [if_pos h]
  rfl

/-- Settles O2: on an empty queue the step is `State.idle`, whose cases are the lemmas above. -/
theorem idleStepDelivers : Obligations.IdleStepDelivers := by
  refine ⟨fun s hp => step_nil hp, fun s hp ha hd => (step_nil hp).trans (congrArg _ (State.idle_due ha hd)),
    fun s hp ha hf hz hk hne => ?agenda, fun s h => State.dueZero_crossed h,
    fun s hp ha => (step_nil hp).trans (congrArg _ (State.idle_dead ha))⟩
  case agenda =>
    have hd := State.deliver_agenda hp hf hz hk
    rw [step_nil hp, State.idle_due ha (by rw [hd]; exact hne), hd]

/-! ### The canonical forms -/

/-- Settles O3: after reset both tables are empty, so that every address reads as an unlisted one. -/
theorem resetHoldsCanonicalForm : Obligations.ResetHoldsCanonicalForm :=
  ⟨reset_inv, rfl, rfl, fun _ => rfl, fun _ => rfl⟩

/-- What a command answers has the canonical forms: one arm per command, each by the law of its meaning. -/
theorem exec_inv (i : Instr) (s : State) (h : s.Inv) : nextInv (exec i s) :=
  match i with
  | .registerWrite m a size v => execRegisterWrite_inv m a size v s h
  | .pairLoRead m a size => execPairLoRead_inv m a size s h
  | .ntmTimeNsRead m pps => execNtmTimeNsRead_inv m pps s h
  | .powerOnReset => execPowerOnReset_inv s h
  | .perstReset => execPerstReset_inv s h
  | .powerDown => execPowerDown_inv s h
  | .timebasePllLock => execTimebasePllLock_inv s h
  | .timebasePllLoss => execTimebasePllLoss_inv s h
  | .corePllLoss => execCorePllLoss_inv s h
  | .ref10mLoss => execRef10mLoss_inv s h
  | .ref10mDetect => execRef10mDetect_inv s h
  | .pcieRefLoss => execPcieRefLoss_inv s h
  | .supplyMonitorTrip rail => execSupplyMonitorTrip_inv rail s h
  | .warmReset m w => execWarmReset_inv m w s h
  | .thimbleWatchdogExpiry => execThimbleWatchdogExpiry_inv s h
  | .thimbleWatchdogReset => execThimbleWatchdogReset_inv s h
  | .lockstepMismatch => execLockstepMismatch_inv s h
  | .thimbleBoot => execThimbleBoot_inv s h
  | .readySet fails => execReadySet_inv fails s h
  | .runSet m => execRunSet_inv m s h
  | .ctrlRunStart => execCtrlRunStart_inv s h
  | .runClear m => execRunClear_inv m s h
  | .orderlyStopStack => execOrderlyStopStack_inv s h
  | .orderlyStopLegs => execOrderlyStopLegs_inv s h
  | .orderlyStopEnd => execOrderlyStopEnd_inv s h
  | .mramImageCommit => execMramImageCommit_inv s h
  | .lifecycleAdvance => execLifecycleAdvance_inv s h
  | .fuseProgram => execFuseProgram_inv s h
  | .onDemandBist => execOnDemandBist_inv s h
  | .secureWipe => execSecureWipe_inv s h
  | .longopComplete fails => execLongopComplete_inv fails s h
  | .cycleStart => execCycleStart_inv s h
  | .refsDue => execRefsDue_inv s h
  | .tattingPublish => execTattingPublish_inv s h
  | .stitchComputeDone => execStitchComputeDone_inv s h
  | .downDeparture => execDownDeparture_inv s h
  | .h0Enable m => execH0Enable_inv m s h
  | .h0Disable m => execH0Disable_inv m s h
  | .h0DcSet m => execH0DcSet_inv m s h
  | .h0DcClear m => execH0DcClear_inv m s h
  | .h0nomWrite m nom => execH0nomWrite_inv m nom s h
  | .primaryReturn m => execPrimaryReturn_inv m s h
  | .h0PrimaryUpdate angle pos neg => execH0PrimaryUpdate_inv angle pos neg s h
  | .angleZero => execAngleZero_inv s h
  | .h1TrackUpdate angle pos neg => execH1TrackUpdate_inv angle pos neg s h
  | .h1AngleWrite m v => execH1AngleWrite_inv m v s h
  | .prickingPass => execPrickingPass_inv s h
  | .prkEnable m => execPrkEnable_inv m s h
  | .prkDisable m => execPrkDisable_inv m s h
  | .prkEditRead m page => execPrkEditRead_inv m page s h
  | .prkEditWrite m page => execPrkEditWrite_inv m page s h
  | .prkEditInsert m page => execPrkEditInsert_inv m page s h
  | .prkEditDelete m page => execPrkEditDelete_inv m page s h
  | .prkEditClear m page => execPrkEditClear_inv m page s h
  | .prkEditCommit m page => execPrkEditCommit_inv m page s h
  | .prkEditComplete => execPrkEditComplete_inv s h
  | .prkSwapRequest m page => execPrkSwapRequest_inv m page s h
  | .pageSwapEffect => execPageSwapEffect_inv s h
  | .adcSeqTrig mask => execAdcSeqTrig_inv mask s h
  | .taskWake engines arg => execTaskWake_inv engines arg s h
  | .cellSnapshot target kind => execCellSnapshot_inv target kind s h
  | .twArm mask window => execTwArm_inv mask window s h
  | .phuAlign mask => execPhuAlign_inv mask s h
  | .ageProbe target params => execAgeProbe_inv target params s h
  | .rotatePoint phases => execRotatePoint_inv phases s h
  | .pwmCommit legs => execPwmCommit_inv legs s h
  | .gpioSet pin => execGpioSet_inv pin s h
  | .gpioClr pin => execGpioClr_inv pin s h
  | .mark page idx tag => execMark_inv page idx tag s h
  | .pageSwap page => execPageSwap_inv page s h
  | .handoverPoint => execHandoverPoint_inv s h
  | .ntmIncWrite m lo => execNtmIncWrite_inv m lo s h
  | .ntmAdjStep m v => execNtmAdjStep_inv m v s h
  | .ntmAdjSlew m v => execNtmAdjSlew_inv m v s h
  | .ntmSlewComplete => execNtmSlewComplete_inv s h
  | .ntmSet m => execNtmSet_inv m s h
  | .ntmCmdFree m => execNtmCmdFree_inv m s h
  | .ntmCmdAcquire m => execNtmCmdAcquire_inv m s h
  | .ntmCmdLock m => execNtmCmdLock_inv m s h
  | .ntmCmdHold m => execNtmCmdHold_inv m s h
  | .ntmMasterTimeout => execNtmMasterTimeout_inv s h
  | .ntmMasteridWrite m reg v => execNtmMasteridWrite_inv m reg v s h
  | .ntmHoldUpdate => execNtmHoldUpdate_inv s h
  | .ppsOutPulse => execPpsOutPulse_inv s h
  | .ppsOutPulseEnd => execPpsOutPulseEnd_inv s h
  | .ppsInEdge falling quarter => execPpsInEdge_inv falling quarter s h
  | .ref10Measure err => execRef10Measure_inv err s h
  | .ntmAlarm => execNtmAlarm_inv s h
  | .ethRxFrame port frame fcsOk => execEthRxFrame_inv port frame fcsOk s h
  | .ethTxFrame port d frame returned => execEthTxFrame_inv port d frame returned s h
  | .prpEntryExpire => execPrpEntryExpire_inv s h
  | .ethLinkChange port sigdet sync an remFlt => execEthLinkChange_inv port sigdet sync an remFlt s h
  | .engineBaseInstruction e => execEngineBaseInstruction_inv e s h
  | .load e => execLoad_inv e s h
  | .store e => execStore_inv e s h
  | .postedStoreAccepted e => execPostedStoreAccepted_inv e s h
  | .aliasBitSet e => execAliasBitSet_inv e s h
  | .aliasBitClear e => execAliasBitClear_inv e s h
  | .fence e => execFence_inv e s h
  | .fenceI e => execFenceI_inv e s h
  | .wfi e => execWfi_inv e s h
  | .ecall e => execEcall_inv e s h
  | .ebreak e => execEbreak_inv e s h
  | .csrAccess e => execCsrAccess_inv e s h
  | .illegalInstruction e => execIllegalInstruction_inv e s h
  | .vaDiff e => execVaDiff_inv e s h
  | .vaLt e => execVaLt_inv e s h
  | .vaBtw e => execVaBtw_inv e s h
  | .vqMacq31 e => execVqMacq31_inv e s h
  | .vqMulq31 e => execVqMulq31_inv e s h
  | .vqMacq15 e => execVqMacq15_inv e s h
  | .vqRndq15 e => execVqRndq15_inv e s h
  | .vsAdd2 e => execVsAdd2_inv e s h
  | .vsSub2 e => execVsSub2_inv e s h
  | .vsMac2 e => execVsMac2_inv e s h
  | .vsMul2 e => execVsMul2_inv e s h
  | .vcSin e => execVcSin_inv e s h
  | .vcCos e => execVcCos_inv e s h
  | .vcSc e => execVcSc_inv e s h
  | .vrRd e => execVrRd_inv e s h
  | .waitslot e => execWaitslot_inv e s h
  | .vtLh e => execVtLh_inv e s h
  | .vtLw e => execVtLw_inv e s h
  | .vtLhu e => execVtLhu_inv e s h
  | .vtSh e => execVtSh_inv e s h
  | .vtSw e => execVtSw_inv e s h
  | .bobWakeWrite m e w => execBobWakeWrite_inv m e w s h
  | .slotDispatch e => execSlotDispatch_inv e s h
  | .slotBudgetOverrun e => execSlotBudgetOverrun_inv e s h
  | .slotEnable m e slot => execSlotEnable_inv m e slot s h
  | .slotDisable m e slot => execSlotDisable_inv m e slot s h
  | .engineEnable m e => execEngineEnable_inv m e s h
  | .engineDisable m e => execEngineDisable_inv m e s h
  | .bobWdkick m e => execBobWdkick_inv m e s h
  | .bobbinWatchdogCheck => execBobbinWatchdogCheck_inv s h
  | .stitchPhaseEnable m mask => execStitchPhaseEnable_inv m mask s h
  | .stitchPhaseDisable m mask => execStitchPhaseDisable_inv m mask s h
  | .upFrameRx c f => execUpFrameRx_inv c f s h
  | .mgmtRspRx c f => execMgmtRspRx_inv c f s h
  | .claimRspRx c f => execClaimRspRx_inv c f s h
  | .delayRspRx lane f t4 => execDelayRspRx_inv lane f t4 s h
  | .nakRx c f => execNakRx_inv c f s h
  | .chainHbtRx c f => execChainHbtRx_inv c f s h
  | .enumReturn c f => execEnumReturn_inv c f s h
  | .fastTripRx lane x => execFastTripRx_inv lane x s h
  | .mgmtTimeout c => execMgmtTimeout_inv c s h
  | .mgmtBusyRetry cell => execMgmtBusyRetry_inv cell s h
  | .delayExchangePeriod cell => execDelayExchangePeriod_inv cell s h
  | .enumAssign m chains => execEnumAssign_inv m chains s h
  | .enumFill m chains => execEnumFill_inv m chains s h
  | .enumFillPeriodic => execEnumFillPeriodic_inv s h
  | .enumBreakTimeout c => execEnumBreakTimeout_inv c s h
  | .cellLostTimeout cell => execCellLostTimeout_inv cell s h
  | .claimOutcome => execClaimOutcome_inv s h
  | .laneEnable m lane => execLaneEnable_inv m lane s h
  | .laneDisable m lane => execLaneDisable_inv m lane s h
  | .laneSignalLock lane => execLaneSignalLock_inv lane s h
  | .laneAligned lane inverted => execLaneAligned_inv lane inverted s h
  | .trainFrameRx lane head body eye => execTrainFrameRx_inv lane head body eye s h
  | .ffeTapUpdate lane => execFfeTapUpdate_inv lane s h
  | .trainCtleDone lane boost => execTrainCtleDone_inv lane boost s h
  | .trainTuneEval lane => execTrainTuneEval_inv lane s h
  | .trainTuneRestart lane => execTrainTuneRestart_inv lane s h
  | .laneLinkUp lane => execLaneLinkUp_inv lane s h
  | .laneTrainTimeout lane => execLaneTrainTimeout_inv lane s h
  | .laneLoss lane signal clock codes => execLaneLoss_inv lane signal clock codes s h
  | .laneBackoffEnd lane => execLaneBackoffEnd_inv lane s h
  | .laneRetrain m lane => execLaneRetrain_inv m lane s h
  | .lanePllLoss pll => execLanePllLoss_inv pll s h
  | .lanePllLock pll => execLanePllLock_inv pll s h
  | .lanePrbsEnable m lane => execLanePrbsEnable_inv m lane s h
  | .lanePrbsDisable m lane => execLanePrbsDisable_inv m lane s h
  | .prbsErrinj m lane => execPrbsErrinj_inv m lane s h
  | .prbsCheckerLock lane => execPrbsCheckerLock_inv lane s h
  | .prbsCheckerLoss lane errs => execPrbsCheckerLoss_inv lane errs s h
  | .eyeScanStart m lane => execEyeScanStart_inv m lane s h
  | .eyeScanDone lane height width => execEyeScanDone_inv lane height width s h
  | .elasticRecenter lane => execElasticRecenter_inv lane s h
  | .sarEnable m conv => execSarEnable_inv m conv s h
  | .sarReady conv => execSarReady_inv conv s h
  | .sarDisable m conv => execSarDisable_inv m conv s h
  | .adcSeqswGo m mask => execAdcSeqswGo_inv m mask s h
  | .sarConversionResult conv code => execSarConversionResult_inv conv code s h
  | .adcUrgentRequest m conv input => execAdcUrgentRequest_inv m conv input s h
  | .hkScanPeriod => execHkScanPeriod_inv s h
  | .selfCheckPeriod => execSelfCheckPeriod_inv s h
  | .refSelect m sel vnom => execRefSelect_inv m sel vnom s h
  | .refSettled settled => execRefSettled_inv settled s h
  | .refInbandLoss => execRefInbandLoss_inv s h
  | .windowComparatorChange k level => execWindowComparatorChange_inv k level s h
  | .adcInject m w => execAdcInject_inv m w s h
  | .fastStreamStart m chen => execFastStreamStart_inv m chen s h
  | .fastStreamStop m => execFastStreamStop_inv m s h
  | .phuEnable m => execPhuEnable_inv m s h
  | .phuGuardDecision => execPhuGuardDecision_inv s h
  | .phuTrigger => execPhuTrigger_inv s h
  | .phuFrameEmit phasors freq rocof => execPhuFrameEmit_inv phasors freq rocof s h
  | .twTrigger xs => execTwTrigger_inv xs s h
  | .twPostEnd first xs => execTwPostEnd_inv first xs s h
  | .twHoldoffEnd => execTwHoldoffEnd_inv s h
  | .twArmExpire => execTwArmExpire_inv s h
  | .twCaptureDone => execTwCaptureDone_inv s h
  | .twLocate m => execTwLocate_inv m s h
  | .twLocateDone => execTwLocateDone_inv s h
  | .pwmLegEnable m n => execPwmLegEnable_inv m n s h
  | .pwmLegDisable m n => execPwmLegDisable_inv m n s h
  | .pwmGstart m mask => execPwmGstart_inv m mask s h
  | .pwmCtrlCommit m n => execPwmCtrlCommit_inv m n s h
  | .pwmPeriodBoundary n => execPwmPeriodBoundary_inv n s h
  | .pwmTransition n high => execPwmTransition_inv n high s h
  | .deadTimeEnd n => execDeadTimeEnd_inv n s h
  | .gateAckInput n high level => execGateAckInput_inv n high level s h
  | .ackTimeout n high => execAckTimeout_inv n high s h
  | .bsuvInput n asserted => execBsuvInput_inv n asserted s h
  | .picotSupplyCheck n => execPicotSupplyCheck_inv n s h
  | .dsatBlankEnd n => execDsatBlankEnd_inv n s h
  | .selvageDecision src => execSelvageDecision_inv src s h
  | .selvForce m w => execSelvForce_inv m w s h
  | .selvClr m w => execSelvClr_inv m w s h
  | .brkMinExpire => execBrkMinExpire_inv s h
  | .faultEvent src inst detail => execFaultEvent_inv src inst detail s h
  | .faultWindowClose src => execFaultWindowClose_inv src s h
  | .faultConditionEnd src inst => execFaultConditionEnd_inv src inst s h
  | .logRecordCommit => execLogRecordCommit_inv s h
  | .errpinMinwExpire => execErrpinMinwExpire_inv s h
  | .errpinHoldWrite m hold => execErrpinHoldWrite_inv m hold s h
  | .fltReleaseSafe m key => execFltReleaseSafe_inv m key s h
  | .fltReleaseTripclr m key => execFltReleaseTripclr_inv m key s h
  | .cellBypassRelease m k mask => execCellBypassRelease_inv m k mask s h
  | .escalationClear m k mask => execEscalationClear_inv m k mask s h
  | .faultInject m w => execFaultInject_inv m w s h
  | .injectConditionEnd src inst => execInjectConditionEnd_inv src inst s h
  | .eccInjectArm m w => execEccInjectArm_inv m w s h
  | .logClear m w => execLogClear_inv m w s h
  | .rdnEnable m => execRdnEnable_inv m s h
  | .rdnDisable m => execRdnDisable_inv m s h
  | .shuttleHbtRx lane f frac => execShuttleHbtRx_inv lane f frac s h
  | .stateSegmentRx f => execStateSegmentRx_inv f s h
  | .snapshotPeriod => execSnapshotPeriod_inv s h
  | .tunnelRx f => execTunnelRx_inv f s h
  | .standbyTxSlot => execStandbyTxSlot_inv s h
  | .rdnClaimgo m => execRdnClaimgo_inv m s h
  | .rdnHoreq m => execRdnHoreq_inv m s h
  | .rdnHoabort m => execRdnHoabort_inv m s h
  | .revertTimerExpire => execRevertTimerExpire_inv s h
  | .hoarmTimeout => execHoarmTimeout_inv s h
  | .handoverClaim => execHandoverClaim_inv s h
  | .handoffTimeout => execHandoffTimeout_inv s h
  | .ctlockTimeout => execCtlockTimeout_inv s h
  | .shuttleDelayPeriod => execShuttleDelayPeriod_inv s h
  | .standbyLbistTile fail => execStandbyLbistTile_inv fail s h
  | .standbyHealthReport => execStandbyHealthReport_inv s h
  | .chainReclaim => execChainReclaim_inv s h
  | .dieSensorSample rs => execDieSensorSample_inv rs s h
  | .diodeReading k bad t => execDiodeReading_inv k bad t s h
  | .throttleEvaluate => execThrottleEvaluate_inv s h
  | .thmNstepWrite m n => execThmNstepWrite_inv m n s h
  | .thmAck m => execThmAck_inv m s h
  | .cellHeadroomUpdate => execCellHeadroomUpdate_inv s h
  | .dieComparatorTrip => execDieComparatorTrip_inv s h
  | .thermalHalt => execThermalHalt_inv s h
  | .thermalRestart => execThermalRestart_inv s h
  | .pathMonitorRead slacks => execPathMonitorRead_inv slacks s h
  | .ageEyeScanPeriod => execAgeEyeScanPeriod_inv s h
  | .probeTimeout cell => execProbeTimeout_inv cell s h
  | .ageLifeUpdate => execAgeLifeUpdate_inv s h
  | .ageSave => execAgeSave_inv s h
  | .ageCellReset m w => execAgeCellReset_inv m w s h
  | .ageReport => execAgeReport_inv s h
  | .memOwnerWrite m n w => execMemOwnerWrite_inv m n w s h
  | .ownershipDrainEnd n => execOwnershipDrainEnd_inv n s h
  | .bankPowerRequest m n w => execBankPowerRequest_inv m n w s h
  | .bankPowerDone n => execBankPowerDone_inv n s h
  | .scrubPass => execScrubPass_inv s h
  | .eccWriteback => execEccWriteback_inv s h
  | .starveTimeout => execStarveTimeout_inv s h
  | .nvmWriteGo m => execNvmWriteGo_inv m s h
  | .mramLineWritten => execMramLineWritten_inv s h
  | .tamperPin high => execTamperPin_inv high s h
  | .voltageTamper ok => execVoltageTamper_inv ok s h
  | .clockTamper ok => execClockTamper_inv ok s h
  | .secureWipeDone => execSecureWipeDone_inv s h
  | .thimbleRestartDone => execThimbleRestartDone_inv s h
  | .bar4Read off len => execBar4Read_inv off len s h
  | .bar4Write off data => execBar4Write_inv off data s h
  | .ringDoorbell ring v slots => execRingDoorbell_inv ring v slots s h
  | .ringEnable m ring => execRingEnable_inv m ring s h
  | .ringDisable m ring => execRingDisable_inv m ring s h
  | .ringStopDone ring => execRingStopDone_inv ring s h
  | .dmaError ring write cpl addr => execDmaError_inv ring write cpl addr s h
  | .nop ring d => execNop_inv ring d s h
  | .prkRead ring d page idx cnt => execPrkRead_inv ring d page idx cnt s h
  | .prkWrite ring d page idx entries => execPrkWrite_inv ring d page idx entries s h
  | .prkInsert ring d page entries => execPrkInsert_inv ring d page entries s h
  | .prkDelete ring d page idx cnt => execPrkDelete_inv ring d page idx cnt s h
  | .prkClear ring d page => execPrkClear_inv ring d page s h
  | .prkCommit ring d page => execPrkCommit_inv ring d page s h
  | .prkSwap ring d page => execPrkSwap_inv ring d page s h
  | .cellMgmt ring d q => execCellMgmt_inv ring d q s h
  | .cellmapWrite ring d first entries => execCellmapWrite_inv ring d first entries s h
  | .memRead ring d addr => execMemRead_inv ring d addr s h
  | .memWrite ring d addr data => execMemWrite_inv ring d addr data s h
  | .commandComplete cq => execCommandComplete_inv cq s h
  | .irqHoldoffEnd ring => execIrqHoldoffEnd_inv ring s h
  | .msixUnmask vec masked addr data => execMsixUnmask_inv vec masked addr data s h
  | .mailboxFetch k msg => execMailboxFetch_inv k msg s h
  | .mailboxPop m k => execMailboxPop_inv m k s h
  | .mailboxPost m k => execMailboxPost_inv m k s h
  | .pcieLinkDown => execPcieLinkDown_inv s h
  | .bootConfirm => execBootConfirm_inv s h
  | .bootSelect m sel => execBootSelect_inv m sel s h
  | .shutdownStart => execShutdownStart_inv s h
  | .shutdownPadHold => execShutdownPadHold_inv s h
  | .shutdownBistDone fails => execShutdownBistDone_inv fails s h
  | .quietEnter => execQuietEnter_inv s h
  | .quietEntryDone => execQuietEntryDone_inv s h
  | .wakePin => execWakePin_inv s h
  | .quietWakeCmd => execQuietWakeCmd_inv s h
  | .quietAwake => execQuietAwake_inv s h
  | .corePllLock => execCorePllLock_inv s h
  | .pcieRefDetect => execPcieRefDetect_inv s h
  | .pcieLinkUp speed width => execPcieLinkUp_inv speed width s h
  | .pcieConfigWrite bme msixen d3hot => execPcieConfigWrite_inv bme msixen d3hot s h
  | .thimbleHeartbeat => execThimbleHeartbeat_inv s h
  | .ctleTrackStep lane up => execCtleTrackStep_inv lane up s h
  | .enumFarEndRx c f => execEnumFarEndRx_inv c f s h
  | .shuttleDelayReqRx f t2 => execShuttleDelayReqRx_inv f t2 s h
  | .selvageInputChange src level => execSelvageInputChange_inv src level s h
  | .picotPulseEnd n => execPicotPulseEnd_inv n s h
  | .fastChannelClip c clip => execFastChannelClip_inv c clip s h
  | .tapInstruction ir => execTapInstruction_inv ir s h

/-- A step keeps the canonical forms: that of a command by `exec_inv`, the passing of time by `State.idle_inv`. -/
theorem step_inv {s : State} (h : s.Inv) : nextInv (step s) := by
  cases hp : s.pending with
  | nil =>
    rw [step_nil hp]
    exact nextInv_next (s.idle_inv h)
  | cons c rest =>
    have hstep : step s = exec c { s with pending := rest } := by
      unfold step
      rw [hp]
    rw [hstep]
    exact exec_inv c { s with pending := rest } h

/-- Settles O4: it is `step_inv`. -/
theorem stepKeepsCanonicalForm : Obligations.StepKeepsCanonicalForm := fun _ t h ht => step_inv h t ht

end Sys2Proof.Machine
end
